-- ==== Sys2Proof/Word.lean ====
section
/-!
DEFINITION. The word types of the module (R6, R7) and their plainest arithmetic.
-/
namespace Sys2Proof

abbrev Byte := BitVec 8
abbrev W16 := BitVec 16
abbrev W32 := BitVec 32
abbrev W64 := BitVec 64
/-- An address register, and the OFFSET of a global address (R45, R61). -/
abbrev W48 := BitVec 48
/-- A tensor descriptor (R77). -/
abbrev W128 := BitVec 128

/-- A crucible number, physical, 0 to 3 (R27). -/
abbrev Cru := Fin 4
/-- A port of one crucible, 0 to 15 (R369). -/
abbrev PortIx := Fin 16
/-- A half of the port die, 0 or 1 (R36). -/
abbrev HalfIx := Fin 2

/-- A logical core of a crucible (R25). -/
structure CoreId where
  cru : Cru
  core : Fin 500
  deriving DecidableEq, Repr

end Sys2Proof
end

