-- ==== Sys2Proof/Syntax.lean ====
section
/-!
DEFINITION. The commands of the module: one constructor of `Instr` for each row of spec/opcode_table.json, in the table's
order but for ATTEST, BANK, WAKE and UNKNOWN_OPCODE, which stand with the other host commands.
The table gives no operands; the operands are the model's (log 1). A Sirba instruction carries the core that issues it and the
56 bits below its opcode, as the record of its format (R120), reserved fields included. An event carries what nature, the host or
another agent decides in it (log 5).
-/
namespace Sys2Proof

/-! ### The formats of R120 -/

/-- Format A: scalar arithmetic and moves. -/
structure FmtA where
  rd : BitVec 5
  ra : BitVec 5
  rb : BitVec 5
  resv : BitVec 9
  imm : W32
  deriving DecidableEq, Repr

/-- Format M: scratchpad loads and stores. -/
structure FmtM where
  rt : BitVec 5
  rb : BitVec 5
  resv : BitVec 14
  imm : W32
  deriving DecidableEq, Repr

/-- Format B: branches. -/
structure FmtB where
  ra : BitVec 5
  rb : BitVec 5
  resv : BitVec 30
  target : W16
  deriving DecidableEq, Repr

/-- Format D: descriptor access. -/
structure FmtD where
  td : BitVec 5
  ra : BitVec 5
  rb : BitVec 5
  resv : BitVec 41
  deriving DecidableEq, Repr

/-- Format T: tally operations and fence. -/
structure FmtT where
  tidx : BitVec 6
  rs : BitVec 5
  resv : BitVec 37
  cap : Byte
  deriving DecidableEq, Repr

/-- Format S: system. -/
structure FmtS where
  rs : BitVec 5
  resv : BitVec 35
  code : W16
  deriving DecidableEq, Repr

/-- Format QT: tensor queue. `flags` is FLAGS [29:22]: bit 7 ZERO, 6 STATS, 5 SR, 4 SCALE, 3 BSCALED, 2 INTROWS, 1 and 0 reserved
(R137). -/
structure FmtQT where
  tally : BitVec 6
  ta : BitVec 5
  rrow : BitVec 5
  rowoff : BitVec 10
  flags : Byte
  as : BitVec 5
  resv : BitVec 17
  deriving DecidableEq, Repr

/-- Format QV: vector queue. -/
structure FmtQV where
  tally : BitVec 6
  vd : BitVec 5
  va : BitVec 5
  vb : BitVec 5
  vc : BitVec 5
  sr : BitVec 1
  resv : BitVec 9
  imm : BitVec 20
  deriving DecidableEq, Repr

/-- Format QX: transfer queue. -/
structure FmtQX where
  tally : BitVec 6
  sseg : BitVec 5
  sadr : BitVec 5
  dseg : BitVec 5
  dadr : BitVec 5
  rlen : BitVec 5
  raux : BitVec 5
  slocal : BitVec 1
  dlocal : BitVec 1
  col : BitVec 1
  resv : BitVec 17
  deriving DecidableEq, Repr

def FmtA.bits (f : FmtA) : BitVec 56 := f.rd ++ f.ra ++ f.rb ++ f.resv ++ f.imm
def FmtM.bits (f : FmtM) : BitVec 56 := f.rt ++ f.rb ++ f.resv ++ f.imm
def FmtB.bits (f : FmtB) : BitVec 56 := f.ra ++ f.rb ++ f.resv ++ f.target
def FmtD.bits (f : FmtD) : BitVec 56 := f.td ++ f.ra ++ f.rb ++ f.resv
def FmtT.bits (f : FmtT) : BitVec 56 := f.tidx ++ f.rs ++ f.resv ++ f.cap
def FmtS.bits (f : FmtS) : BitVec 56 := f.rs ++ f.resv ++ f.code
def FmtQT.bits (f : FmtQT) : BitVec 56 := f.tally ++ f.ta ++ f.rrow ++ f.rowoff ++ f.flags ++ f.as ++ f.resv
def FmtQV.bits (f : FmtQV) : BitVec 56 := f.tally ++ f.vd ++ f.va ++ f.vb ++ f.vc ++ f.sr ++ f.resv ++ f.imm
def FmtQX.bits (f : FmtQX) : BitVec 56 :=
  f.tally ++ f.sseg ++ f.sadr ++ f.dseg ++ f.dadr ++ f.rlen ++ f.raux ++ f.slocal ++ f.dlocal ++ f.col ++ f.resv

/-! ### Operands of the events -/

/-- Who reads or writes control space: a management core, or the command engine through a half (R52, R363, R364). -/
inductive Accessor where
  | mgmt
  | half0
  | half1
  deriving DecidableEq, Repr

/-- A control space (R45, R55–R57): a crucible's, or the port die's as CRUCIBLE selects the view (0 and 1 are the halves; 2 and 3
are unassigned). -/
inductive CtrlSpace where
  | crucible (c : Cru)
  | portDie (view : Fin 4)
  deriving DecidableEq, Repr

/-- The three queues of a core (R83). -/
inductive QueueKind where
  | tensor
  | vector
  | transfer
  deriving DecidableEq, Repr

/-- A core, and whether the check before its scalar unit's register write fails (R467). -/
structure ScalarRun extends CoreId where
  mismatch : Bool := false
  deriving DecidableEq, Repr

/-- A weight load at work (R159, R161): the core, how many accesses it makes before the next command (none: all that are left), and
the unit whose check fails at the access after those (R468). -/
structure LoadRun extends CoreId where
  accesses : Option Nat := none
  failed : Option (BitVec 4) := none
  deriving DecidableEq, Repr

/-- What happens to a row in the chain between two commands (R164, R171, R172). -/
inductive RowRun where
  /-- A row enters and, like every row in the chain, passes its check and is written. -/
  | whole
  /-- A row enters: its operand and its accumulator row are read. -/
  | enter
  /-- The oldest row in the chain passes its check and is written. -/
  | write
  /-- The oldest row in the chain, or the one that enters now if the chain is empty, fails its check in a unit. -/
  | fail (unit : BitVec 4)
  deriving DecidableEq, Repr

/-- A fabric packet (R397). `resv` is 1 when some reserved bit of the header is 1. `mask` is the mask extension: slot mask in
[63:0] under MODMASK, group mask under COREMASK. -/
structure Packet where
  kind : Byte
  cls : BitVec 2
  escape : Bool
  modmask : Bool
  coremask : Bool
  unseq : Bool
  epoch : W16
  jobTag : W16
  dstLoc : W16
  srcLoc : W16
  src : BitVec 12
  srcCru : BitVec 2
  len : BitVec 13
  stream : BitVec 11
  psn : W32
  aux : W32
  addr : W64
  mask : W128
  resv : Bool
  payload : List Byte
  deriving DecidableEq, Repr

/-- A WRITE or READ that arrives, and whether the transfer engine, which carries the parity of the scratchpad bytes from read to write,
meets an error in that access (R467, R468). -/
structure PacketRun where
  packet : Packet
  mismatch : Bool := false
  deriving DecidableEq, Repr

/-- How a message reaches a host port: on which half, with which VLAN identifier if its frames are tagged (R436), and whether a packet
of it is marked CE (R439). -/
structure Frame where
  half : HalfIx
  vid : Option (BitVec 12)
  ce : Bool
  deriving DecidableEq, Repr

/-- A host command as it arrives in a SEND, without its OPCODE, which the constructor fixes (R445). `resv` is header bytes 17 to
31, byte 17 lowest. -/
structure CmdMsg extends Frame where
  qp : Nat
  flags : W16
  tag : W32
  length : W32
  epoch : W16
  jobTag : W16
  crucibles : Byte
  resv : BitVec 120
  body : List Byte
  deriving DecidableEq, Repr

/-- An RDMA access that arrives on a queue pair (R442). -/
structure RdmaReq where
  qp : Nat
  rkey : W32
  offset : Nat
  data : List Byte
  deriving DecidableEq, Repr

/-- The symbols of a 32-byte burst that do not arrive as they were written (R317): nature's choice. -/
abbrev BurstErrors := List (Fin 36)

/-- The source of an HBM access (R320). -/
inductive HbmSource where
  | core (l : Fin 500)
  | mgmt
  | portDie
  | fabric
  deriving DecidableEq, Repr

/-- A write that meets a unit not yet copied to its riser (R491). -/
structure StalledWrite where
  src : HbmSource
  data : List Byte
  deriving DecidableEq, Repr

/-- A link message of a control flit (R367). -/
structure LinkMsg where
  type : Byte
  lane : Byte
  switchPoint : BitVec 12
  deriving DecidableEq, Repr

/-- A codeword as the receiver's decoder hands it on (R366, R367): its lane, whether it was dealt as the extra codeword of a retry request
(R377), whether it was correctable and whether symbols were corrected, and its message. `credits` are the flits freed on each of the
seven VCs. -/
structure Codeword where
  lane : Fin 17
  resent : Bool
  correctable : Bool
  corrected : Bool
  ack : BitVec 12
  seqLow : BitVec 4
  control : Bool
  credits : List (BitVec 12)
  msg : LinkMsg
  flits : List (BitVec 512)
  deriving DecidableEq, Repr

/-- The unit whose progress stalled (R542). -/
inductive StallUnit where
  | core (l : Fin 500)
  | xfer (l : Fin 500)
  | port (n : PortIx)
  | mc
  deriving DecidableEq, Repr

/-- Readings of one temperature sample, in 0.25 °C (R571, R588, R593). -/
structure TempReading where
  die : List (BitVec 10)
  hbm : List (BitVec 10)
  portDie : BitVec 10
  deriving DecidableEq, Repr

/-- A record that a crucible (0 to 3) or the port die (4) sends to the store controller (R597, R608). -/
structure RecordReq where
  source : Fin 5
  kind : Byte
  key : W32
  format : W16
  payload : List Byte
  deriving DecidableEq, Repr

/-- A connection request on QP1 (R441): byte 0 of its private data, where it comes from, and the path MTU, the retry and the RNR retry
counts it settles (R440). -/
structure CmRequest where
  kind : Byte
  family : Nat
  addr : W128
  mtu : Nat
  retry : Fin 8
  rnrRetry : Fin 8
  deriving DecidableEq, Repr

/-- What arrives for an operation the module issued (R440). -/
inductive AckKind where
  | ack
  | rnrNak
  | nak
  deriving DecidableEq, Repr

/-- A part of the module that an activation restarts (R636). -/
inductive UpdatePart where
  | portDie
  | crucible (c : Cru)
  deriving DecidableEq, Repr

/-- What Tundish finds once the checks of R284 that read only the body have passed: the causes that depend on its own
predictions (R293, R297, R302, and the enqueue count of R284). -/
inductive TundishResult where
  | ok
  | failed (status : Byte) (detail : W32)
  deriving DecidableEq, Repr

/-! ### The commands -/

inductive Instr where
  /-- ADD (R127) -/
  | add (k : CoreId) (f : FmtA) (mismatch : Bool := false)
  /-- SUB (R127) -/
  | sub (k : CoreId) (f : FmtA) (mismatch : Bool := false)
  /-- AND (R127) -/
  | andB (k : CoreId) (f : FmtA) (mismatch : Bool := false)
  /-- OR (R127) -/
  | orB (k : CoreId) (f : FmtA) (mismatch : Bool := false)
  /-- XOR (R127) -/
  | xorB (k : CoreId) (f : FmtA) (mismatch : Bool := false)
  /-- SLL (R127) -/
  | sll (k : CoreId) (f : FmtA) (mismatch : Bool := false)
  /-- SRL (R127) -/
  | srl (k : CoreId) (f : FmtA) (mismatch : Bool := false)
  /-- SRA (R127) -/
  | sra (k : CoreId) (f : FmtA) (mismatch : Bool := false)
  /-- MUL (R127) -/
  | mul (k : CoreId) (f : FmtA) (mismatch : Bool := false)
  /-- MULHU (R127) -/
  | mulhu (k : CoreId) (f : FmtA) (mismatch : Bool := false)
  /-- SLT (R127) -/
  | slt (k : CoreId) (f : FmtA) (mismatch : Bool := false)
  /-- SLTU (R127) -/
  | sltu (k : CoreId) (f : FmtA) (mismatch : Bool := false)
  /-- SEQ (R127) -/
  | seq (k : CoreId) (f : FmtA) (mismatch : Bool := false)
  /-- ADDI (R127) -/
  | addi (k : CoreId) (f : FmtA) (mismatch : Bool := false)
  /-- ANDI (R127) -/
  | andi (k : CoreId) (f : FmtA) (mismatch : Bool := false)
  /-- ORI (R127) -/
  | ori (k : CoreId) (f : FmtA) (mismatch : Bool := false)
  /-- XORI (R127) -/
  | xori (k : CoreId) (f : FmtA) (mismatch : Bool := false)
  /-- SLLI (R127) -/
  | slli (k : CoreId) (f : FmtA) (mismatch : Bool := false)
  /-- SRLI (R127) -/
  | srli (k : CoreId) (f : FmtA) (mismatch : Bool := false)
  /-- SRAI (R127) -/
  | srai (k : CoreId) (f : FmtA) (mismatch : Bool := false)
  /-- LI (R127) -/
  | li (k : CoreId) (f : FmtA) (mismatch : Bool := false)
  /-- LIH (R127) -/
  | lih (k : CoreId) (f : FmtA) (mismatch : Bool := false)
  /-- MOV_AS (R127) -/
  | movAs (k : CoreId) (f : FmtA) (mismatch : Bool := false)
  /-- MOV_SA (R127) -/
  | movSa (k : CoreId) (f : FmtA) (mismatch : Bool := false)
  /-- AADDI (R127) -/
  | aaddi (k : CoreId) (f : FmtA) (mismatch : Bool := false)
  /-- AADD (R127) -/
  | aadd (k : CoreId) (f : FmtA) (mismatch : Bool := false)
  /-- LD_U8 (R128) -/
  | ldU8 (k : CoreId) (f : FmtM) (mismatch : Bool := false)
  /-- LD_U16 (R128) -/
  | ldU16 (k : CoreId) (f : FmtM) (mismatch : Bool := false)
  /-- LD_U32 (R128) -/
  | ldU32 (k : CoreId) (f : FmtM) (mismatch : Bool := false)
  /-- LD_64 (R128) -/
  | ld64 (k : CoreId) (f : FmtM) (mismatch : Bool := false)
  /-- LD_S8 (R128) -/
  | ldS8 (k : CoreId) (f : FmtM) (mismatch : Bool := false)
  /-- LD_S16 (R128) -/
  | ldS16 (k : CoreId) (f : FmtM) (mismatch : Bool := false)
  /-- LD_S32 (R128) -/
  | ldS32 (k : CoreId) (f : FmtM) (mismatch : Bool := false)
  /-- LD_A (R128) -/
  | ldA (k : CoreId) (f : FmtM) (mismatch : Bool := false)
  /-- ST_8 (R128) -/
  | st8 (k : CoreId) (f : FmtM)
  /-- ST_16 (R128) -/
  | st16 (k : CoreId) (f : FmtM)
  /-- ST_32 (R128) -/
  | st32 (k : CoreId) (f : FmtM)
  /-- ST_64 (R128) -/
  | st64 (k : CoreId) (f : FmtM)
  /-- ST_A (R128) -/
  | stA (k : CoreId) (f : FmtM)
  /-- BEQ (R129) -/
  | beq (k : CoreId) (f : FmtB)
  /-- BNE (R129) -/
  | bne (k : CoreId) (f : FmtB)
  /-- BLT (R129) -/
  | blt (k : CoreId) (f : FmtB)
  /-- BGE (R129) -/
  | bge (k : CoreId) (f : FmtB)
  /-- BLTU (R129) -/
  | bltu (k : CoreId) (f : FmtB)
  /-- BGEU (R129) -/
  | bgeu (k : CoreId) (f : FmtB)
  /-- JMP (R129) -/
  | jmp (k : CoreId) (f : FmtB)
  /-- JAL (R129) -/
  | jal (k : CoreId) (f : FmtB) (mismatch : Bool := false)
  /-- JR (R129) -/
  | jr (k : CoreId) (f : FmtB)
  /-- BDNZ (R129) -/
  | bdnz (k : CoreId) (f : FmtB) (mismatch : Bool := false)
  /-- ILLEGAL_INSTRUCTION (R119) -/
  | illegalInstruction (k : CoreId) (w : W64)
  /-- TSET (R130) -/
  | tset (k : CoreId) (f : FmtD) (mismatch : Bool := false)
  /-- TBASE (R130) -/
  | tbase (k : CoreId) (f : FmtD) (mismatch : Bool := false)
  /-- TROWS (R130) -/
  | trows (k : CoreId) (f : FmtD) (mismatch : Bool := false)
  /-- TGET_LO (R130) -/
  | tgetLo (k : CoreId) (f : FmtD) (mismatch : Bool := false)
  /-- TGET_HI (R130) -/
  | tgetHi (k : CoreId) (f : FmtD) (mismatch : Bool := false)
  /-- TLY_SIGNAL (R131) -/
  | tlySignal (k : CoreId) (f : FmtT)
  /-- TLY_WAIT (R131) -/
  | tlyWait (k : CoreId) (f : FmtT)
  /-- WAIT_TAKES_SIGNAL (R339) -/
  | waitTakesSignal (k : CoreId)
  /-- TLY_TAKE (R131) -/
  | tlyTake (k : CoreId) (f : FmtT)
  /-- TLY_INIT (R131) -/
  | tlyInit (k : CoreId) (f : FmtT)
  /-- TLY_READ (R131) -/
  | tlyRead (k : CoreId) (f : FmtT) (mismatch : Bool := false)
  /-- FENCE (R133) -/
  | fence (k : CoreId) (f : FmtT)
  /-- FENCE_RELEASE (R343) -/
  | fenceRelease (k : CoreId)
  /-- NOP (R135) -/
  | nop (k : CoreId) (f : FmtS)
  /-- HALT (R95) -/
  | haltCore (k : CoreId) (f : FmtS)
  /-- TRAP (R135) -/
  | trap (k : CoreId) (f : FmtS)
  /-- STEP_START (R91) -/
  | stepStart (k : ScalarRun) (f : FmtS)
  /-- STEP_START_PROCEEDS (R91) -/
  | stepStartProceeds (k : ScalarRun)
  /-- RD_CYC (R135) -/
  | rdCyc (k : CoreId) (f : FmtS) (mismatch : Bool := false)
  /-- RD_STEP (R135) -/
  | rdStep (k : CoreId) (f : FmtS) (mismatch : Bool := false)
  /-- RD_SEQ (R135) -/
  | rdSeq (k : CoreId) (f : FmtS) (mismatch : Bool := false)
  /-- RD_ID (R136) -/
  | rdId (k : CoreId) (f : FmtS) (mismatch : Bool := false)
  /-- QUEUE_SPACE_ISSUE (R84) -/
  | queueSpaceIssue (k : CoreId)
  /-- TLD_W (R138) -/
  | tldW (k : CoreId) (f : FmtQT)
  /-- WEIGHT_LOAD_START (R159) -/
  | weightLoadStart (k : LoadRun)
  /-- TMAC_I8 (R140) -/
  | tmacI8 (k : CoreId) (f : FmtQT)
  /-- TMAC_F8 (R140) -/
  | tmacF8 (k : CoreId) (f : FmtQT)
  /-- TMAC_BF16 (R140) -/
  | tmacBf16 (k : CoreId) (f : FmtQT)
  /-- TMAC_F16 (R140) -/
  | tmacF16 (k : CoreId) (f : FmtQT)
  /-- TMAC_F32 (R140) -/
  | tmacF32 (k : CoreId) (f : FmtQT)
  /-- TMAC_STREAM_START (R163) -/
  | tmacStreamStart (k : CoreId)
  /-- ROW_ENTRY (R165) -/
  | rowEntry (k : CoreId) (run : RowRun)
  /-- TDRAIN (R142) -/
  | tdrain (k : CoreId) (f : FmtQT)
  /-- DRAIN_START (R167) -/
  | drainStart (k : CoreId) (mismatch : Option (Nat × BitVec 4))
  /-- VACC_RD (R145) -/
  | vaccRd (k : CoreId) (f : FmtQV)
  /-- VACC_WR (R145) -/
  | vaccWr (k : CoreId) (f : FmtQV)
  /-- VBCAST (R145) -/
  | vbcast (k : CoreId) (f : FmtQV)
  /-- VADD_F32 (R145) -/
  | vaddF32 (k : CoreId) (f : FmtQV)
  /-- VSUB_F32 (R145) -/
  | vsubF32 (k : CoreId) (f : FmtQV)
  /-- VMUL_F32 (R145) -/
  | vmulF32 (k : CoreId) (f : FmtQV)
  /-- VFMA_F32 (R145) -/
  | vfmaF32 (k : CoreId) (f : FmtQV)
  /-- VMAX_F32 (R188) -/
  | vmaxF32 (k : CoreId) (f : FmtQV)
  /-- VMIN_F32 (R188) -/
  | vminF32 (k : CoreId) (f : FmtQV)
  /-- VABS_F32 (R145) -/
  | vabsF32 (k : CoreId) (f : FmtQV)
  /-- VNEG_F32 (R145) -/
  | vnegF32 (k : CoreId) (f : FmtQV)
  /-- VEXP2_F32 (R189) -/
  | vexp2F32 (k : CoreId) (f : FmtQV)
  /-- VLOG2_F32 (R189) -/
  | vlog2F32 (k : CoreId) (f : FmtQV)
  /-- VRCP_F32 (R189) -/
  | vrcpF32 (k : CoreId) (f : FmtQV)
  /-- VRSQRT_F32 (R189) -/
  | vrsqrtF32 (k : CoreId) (f : FmtQV)
  /-- VROW_MAX (R146) -/
  | vrowMax (k : CoreId) (f : FmtQV)
  /-- VROW_SUM (R146) -/
  | vrowSum (k : CoreId) (f : FmtQV)
  /-- VROW_AMAX (R146) -/
  | vrowAmax (k : CoreId) (f : FmtQV)
  /-- VLD_F32 (R147) -/
  | vldF32 (k : CoreId) (f : FmtQV)
  /-- VLD_BF16 (R147) -/
  | vldBf16 (k : CoreId) (f : FmtQV)
  /-- VLD_F16 (R147) -/
  | vldF16 (k : CoreId) (f : FmtQV)
  /-- VLD_E4M3 (R147) -/
  | vldE4m3 (k : CoreId) (f : FmtQV)
  /-- VLD_E5M2 (R147) -/
  | vldE5m2 (k : CoreId) (f : FmtQV)
  /-- VLD_I8 (R147) -/
  | vldI8 (k : CoreId) (f : FmtQV)
  /-- VST_F32 (R147) -/
  | vstF32 (k : CoreId) (f : FmtQV)
  /-- VST_BF16 (R147) -/
  | vstBf16 (k : CoreId) (f : FmtQV)
  /-- VST_F16 (R147) -/
  | vstF16 (k : CoreId) (f : FmtQV)
  /-- VST_E4M3 (R147) -/
  | vstE4m3 (k : CoreId) (f : FmtQV)
  /-- VST_E5M2 (R147) -/
  | vstE5m2 (k : CoreId) (f : FmtQV)
  /-- VST_I8 (R147) -/
  | vstI8 (k : CoreId) (f : FmtQV)
  /-- VECTOR_OP_START (R85) -/
  | vectorOpStart (k : CoreId) (mismatch : Option (BitVec 4))
  /-- XCOPY (R148) -/
  | xcopy (k : CoreId) (f : FmtQX)
  /-- XCOPY_2D (R149) -/
  | xcopy2d (k : CoreId) (f : FmtQX)
  /-- XCAST_CORE (R152) -/
  | xcastCore (k : CoreId) (f : FmtQX)
  /-- XCAST_MOD (R153) -/
  | xcastMod (k : CoreId) (f : FmtQX)
  /-- XTLY_SIGNAL (R154) -/
  | xtlySignal (k : CoreId) (f : FmtQX)
  /-- XTLY_TAKE (R154) -/
  | xtlyTake (k : CoreId) (f : FmtQX)
  /-- TRANSFER_START (R86) -/
  | transferStart (k : CoreId) (mismatch : Option (BitVec 4))
  /-- PACKET_INJECT (R410) -/
  | packetInject (c : Cru) (i : Nat) (n : PortIx)
  /-- COMPLETION_SIGNAL (R89) -/
  | completionSignal (k : CoreId) (q : QueueKind) (i : Nat)
  /-- HELD_SIGNAL_APPLIED (R123) -/
  | heldSignalApplied (k : CoreId) (q : QueueKind) (i : Nat)
  /-- ESCAPE_TIMEOUT (R403) -/
  | escapeTimeout (c : Cru) (n : PortIx)
  /-- RESEND_TIMEOUT (R412) -/
  | resendTimeout (c : Cru) (i : Nat) (n : PortIx)
  /-- RESEND_QUIET_END (R410) -/
  | resendQuietEnd (c : Cru) (i : Nat)
  /-- WRITE (R415) -/
  | packetWrite (c : Cru) (n : PortIx) (run : PacketRun)
  /-- READ (R415) -/
  | packetRead (c : Cru) (n : PortIx) (run : PacketRun)
  /-- TALLY_SIGNAL (R341) -/
  | tallySignal (c : Cru) (n : PortIx) (p : Packet)
  /-- TALLY_TAKE (R341) -/
  | tallyTake (c : Cru) (n : PortIx) (p : Packet)
  /-- RESPONSE (R398); `r` is the crucible whose request it answers, which the header does not name (log 21). -/
  | response (c : Cru) (n : PortIx) (p : Packet) (r : Cru)
  /-- READ_DATA (R414) -/
  | readData (c : Cru) (n : PortIx) (p : Packet) (r : Cru)
  /-- URGENT_ACK (R425) -/
  | urgentAck (c : Cru) (n : PortIx) (p : Packet)
  /-- URGENT_RESEND (R425) -/
  | urgentResend (c : Cru) (i : Nat)
  /-- PORT_LOSS_NOTICE (R406) -/
  | portLossNotice (c : Cru) (n : PortIx) (p : Packet)
  /-- PORT_UP_NOTICE (R406) -/
  | portUpNotice (c : Cru) (n : PortIx) (p : Packet)
  /-- EPOCH_STALE (R510) -/
  | epochStale (c : Cru) (n : PortIx) (p : Packet)
  /-- STEP_REPORT (R497) -/
  | stepReport (c : Cru) (n : PortIx) (p : Packet)
  /-- STEP_CHECKED (R498) -/
  | stepChecked (c : Cru) (n : PortIx) (p : Packet)
  /-- REPLAY (R500) -/
  | replayStep (c : Cru) (n : PortIx) (p : Packet)
  /-- DRAIN_QUIET_END (R500) -/
  | drainQuietEnd
  /-- DRAINED (R501) -/
  | drainedReport (c : Cru) (n : PortIx) (p : Packet)
  /-- RESUME (R501) -/
  | resumeStep (c : Cru) (n : PortIx) (p : Packet)
  /-- CODEWORD_RECEIVED (R375) -/
  | codewordReceived (c : Cru) (n : PortIx) (w : Codeword)
  /-- RETRY_REQUEST (R377) -/
  | retryRequest (c : Cru) (n : PortIx) (number : BitVec 12)
  /-- RETRY_REQUEST_TIMEOUT (R378) -/
  | retryRequestTimeout (c : Cru) (n : PortIx)
  /-- LANE_LOCK_LOSS (R381) -/
  | laneLockLoss (c : Cru) (n : PortIx) (lane : Fin 17)
  /-- LANE_MARGINAL (R381) -/
  | laneMarginal (c : Cru) (n : PortIx) (lane : Fin 17)
  /-- SPARE_ADAPTED (R382) -/
  | spareAdapted (c : Cru) (n : PortIx)
  /-- LANE_DROP (R382) -/
  | laneDrop (c : Cru) (n : PortIx) (lane : Fin 17) (switchPoint : BitVec 12)
  /-- LANE_SWAP (R382) -/
  | laneSwap (c : Cru) (n : PortIx) (lane : Fin 17) (switchPoint : BitVec 12)
  /-- LANE_ACK (R382) -/
  | laneAck (c : Cru) (n : PortIx) (lane : Fin 17) (switchPoint : BitVec 12)
  /-- PORT_DOWN (R384) -/
  | portDown (c : Cru) (n : PortIx)
  /-- KEEP_ALIVE (R386) -/
  | keepAlive (c : Cru) (n : PortIx) (switchPoint : BitVec 12)
  /-- LOCK_LOSS (R384) -/
  | lockLoss (c : Cru) (n : PortIx)
  /-- DETECT_SIGNAL (R370) -/
  | detectSignal (c : Cru) (n : PortIx) (lanes : BitVec 17)
  /-- DETECT_TIMEOUT (R370) -/
  | detectTimeout (c : Cru) (n : PortIx)
  /-- EXCHANGE_PAGE (R372) -/
  | exchangePage (c : Cru) (n : PortIx) (page : W64)
  /-- TRAIN_DONE (R373) -/
  | trainDone (c : Cru) (n : PortIx) (passed : BitVec 17)
  /-- CHECK_DONE (R374) -/
  | checkDone (c : Cru) (n : PortIx) (failed : BitVec 17)
  /-- BACKOFF_EXPIRY (R384) -/
  | backoffExpiry (c : Cru) (n : PortIx)
  /-- BACKOFF_RESET (R384) -/
  | backoffReset (c : Cru) (n : PortIx)
  /-- RESUME_ORDERED_SET (R386) -/
  | resumeOrderedSet (c : Cru) (n : PortIx)
  /-- RESUME_TIMEOUT (R386) -/
  | resumeTimeout (c : Cru) (n : PortIx)
  /-- ENABLE (R370) -/
  | portEnable (a : Accessor) (c : Cru) (n : PortIx) (value : Bool)
  /-- RETRAIN (R391) -/
  | portRetrain (a : Accessor) (c : Cru) (n : PortIx)
  /-- RUN (R94) -/
  | runCore (a : Accessor) (k : CoreId) (startPc : BitVec 13)
  /-- HALT_REQUEST (R96) -/
  | haltRequest (a : Accessor) (k : CoreId)
  /-- HELD_SIGNAL_DROP (R96) -/
  | heldSignalDrop (k : CoreId)
  /-- CLEAR_FAULT (R107) -/
  | clearFault (a : Accessor) (k : CoreId)
  /-- CLEARING_DONE (R103) -/
  | clearingDone (k : CoreId)
  /-- REMAP_COMMIT (R16) -/
  | remapCommit (a : Accessor) (c : Cru)
  /-- REMAP_COMMIT_POINT (R100) -/
  | remapCommitPoint (c : Cru)
  /-- ISTORE_COMMIT (R16) -/
  | istoreCommit (a : Accessor) (c : Cru)
  /-- ISTORE_COPY (R117) -/
  | istoreCopy (c : Cru)
  /-- ISTORE_COPY_DONE (R118) -/
  | istoreCopyDone (c : Cru)
  /-- NUM_COMMIT (R215) -/
  | numCommit (a : Accessor) (c : Cru)
  /-- HBM_REG_COMMIT (R324) -/
  | hbmRegCommit (a : Accessor) (c : Cru)
  /-- HBM_PMAP_COMMIT (R328) -/
  | hbmPmapCommit (a : Accessor) (c : Cru)
  /-- ACCOUNTING_WINDOW (R322) -/
  | accountingWindow (c : Cru)
  /-- TALLY_XLAT_COMMIT (R354) -/
  | tallyXlatCommit (a : Accessor) (c : Cru) (x : Fin 8)
  /-- TALLY_XLAT_COMMIT_POINT (R354) -/
  | tallyXlatCommitPoint (c : Cru) (x : Fin 8)
  /-- TALLY_FORCE_COMMIT (R355) -/
  | tallyForceCommit (a : Accessor) (c : Cru)
  /-- FAB_COMMIT (R388) -/
  | fabCommit (a : Accessor) (c : Cru) (n : PortIx)
  /-- FAB_JOB_COMMIT (R16) -/
  | fabJobCommit (a : Accessor) (c : Cru)
  /-- JOB_SET_COMMIT_POINT (R430) -/
  | jobSetCommitPoint (c : Cru)
  /-- FAB_XRACK_COMMIT (R431) -/
  | fabXrackCommit (a : Accessor) (c : Cru)
  /-- RES_NOSE_COMMIT (R483) -/
  | resNoseCommit (a : Accessor) (c : Cru)
  /-- HANG_WIN_COMMIT (R557) -/
  | hangWinCommit (a : Accessor) (c : Cru)
  /-- STORE_READ_RECORD (R619) -/
  | storeReadRecord (a : Accessor)
  /-- STORE_READ_HISTORY (R619) -/
  | storeReadHistory (a : Accessor)
  /-- STORE_APPEND_CONFIG (R619) -/
  | storeAppendConfig (a : Accessor)
  /-- SHADOW_WRITE (R19) -/
  | shadowWrite (a : Accessor) (sp : CtrlSpace) (off : Nat) (v : W32)
  /-- TALLY_CTX_SEL (R353) -/
  | tallyCtxSel (a : Accessor) (k : CoreId) (v : W32)
  /-- TALLY_LOG_CLEAR (R362) -/
  | tallyLogClear (a : Accessor) (c : Cru)
  /-- TALLY_WORD_READ (R364) -/
  | tallyWordRead (a : Accessor) (k : CoreId) (i : Fin 48)
  /-- RES_SIG_READ (R484) -/
  | resSigRead (a : Accessor) (k : CoreId)
  /-- PWR_AON_READ (R589) -/
  | pwrAonRead (a : Accessor) (c : Cru)
  /-- POP (R487) -/
  | popRecord (a : Accessor) (c : Cru)
  /-- FORCE (R559) -/
  | forceHang (a : Accessor) (c : Cru)
  /-- MC_KICK (R559) -/
  | mcKick (a : Accessor) (c : Cru)
  /-- FAB_E2E_WRITE (R432) -/
  | fabE2eWrite (a : Accessor) (c : Cru) (v : W32)
  /-- ETH_VLAN_WRITE (R462) -/
  | ethVlanWrite (a : Accessor) (h : HalfIx) (v : W32)
  /-- PWR_LIMIT_WRITE (R592) -/
  | pwrLimitWrite (a : Accessor) (v : W32)
  /-- INTERVAL_WRITE (R485) -/
  | intervalWrite (a : Accessor) (c : Cru) (sillage : Bool) (v : W32)
  /-- UE_PENDING_CLEAR (R330) -/
  | uePendingClear (a : Accessor) (c : Cru)
  /-- EVENT_SUMMARY_CLEAR (R217) -/
  | eventSummaryClear (a : Accessor) (k : CoreId)
  /-- UNASSIGNED_ACCESS (R13) -/
  | unassignedAccess (a : Accessor) (sp : CtrlSpace) (off : Nat) (width : Nat)
  /-- REGISTER_WRITE (R10) -/
  | registerWrite (a : Accessor) (sp : CtrlSpace) (off : Nat) (v : W32)
  /-- HBM_READ (R318) -/
  | hbmRead (c : Cru) (src : HbmSource) (off : BitVec 36) (ecc : BurstErrors)
  /-- HBM_WRITE (R650) -/
  | hbmWrite (c : Cru) (src : HbmSource) (off : BitVec 36) (data : List Byte) (ecc : BurstErrors)
  /-- PATROL_SCRUB (R319) -/
  | patrolScrub (c : Cru) (q : Fin 64) (ecc0 : BurstErrors) (ecc1 : BurstErrors)
  /-- IDENTIFY (R447) -/
  | identify (m : CmdMsg)
  /-- SUBSCRIBE (R449) -/
  | subscribe (m : CmdMsg)
  /-- ATTEST (R642) -/
  | attest (m : CmdMsg)
  /-- BANK (R579) -/
  | bankCommand (m : CmdMsg)
  /-- WAKE (R581) -/
  | wakeCommand (m : CmdMsg)
  /-- UNKNOWN_OPCODE (R446) -/
  | unknownOpcode (m : CmdMsg) (opcode : W16)
  /-- JOB_SET (R448) -/
  | jobSet (m : CmdMsg)
  /-- SET_EPOCH (R448) -/
  | setEpoch (m : CmdMsg)
  /-- SET_HEALTH_MAP (R448) -/
  | setHealthMap (m : CmdMsg)
  /-- SET_XRACK (R448) -/
  | setXrack (m : CmdMsg)
  /-- TAKE_OVER (R505) -/
  | takeOver (m : CmdMsg)
  /-- TAKEOVER_COPY_DONE (R505) -/
  | takeoverCopyDone (ok : Bool)
  /-- DEFINE_WINDOW (R451) -/
  | defineWindow (m : CmdMsg)
  /-- DELETE_WINDOW (R451) -/
  | deleteWindow (m : CmdMsg)
  /-- DEFINE_RING (R453) -/
  | defineRing (m : CmdMsg)
  /-- RING_CREDIT (R455) -/
  | ringCredit (m : CmdMsg)
  /-- REGISTER_KERNEL (R641) -/
  | registerKernel (m : CmdMsg)
  /-- SUBMIT_GRAPH (R284) -/
  | submitGraph (m : CmdMsg)
  /-- PLACEMENT_DONE (R301) -/
  | placementDone (r : TundishResult)
  /-- STEP (R448) -/
  | stepCommand (m : CmdMsg)
  /-- STOP (R448) -/
  | stopCommand (m : CmdMsg)
  /-- STORAGE_TARGET (R457) -/
  | storageTarget (m : CmdMsg) (connected : Bool) (blocks : Nat) (formatOk : Bool) (status : W16)
  /-- INGOT (R521) -/
  | ingot (m : CmdMsg)
  /-- INGOT_START (R523) -/
  | ingotStart
  /-- RESTORE (R536) -/
  | restore (m : CmdMsg)
  /-- CTRL_READ (R448) -/
  | ctrlRead (m : CmdMsg)
  /-- CTRL_WRITE (R448) -/
  | ctrlWrite (m : CmdMsg)
  /-- UPDATE_WRITE (R634) -/
  | updateWrite (m : CmdMsg)
  /-- ACTIVATE (R635) -/
  | activate (m : CmdMsg)
  /-- ACTIVATION_START (R635) -/
  | activationStart
  /-- CRUCIBLE_RESTART_DONE (R636) -/
  | crucibleRestartDone (c : Cru)
  /-- ACTIVATION_PAUSE_TIMEOUT (R637) -/
  | activationPauseTimeout (part : UpdatePart)
  /-- TRIAL_TIMEOUT (R635) -/
  | trialTimeout
  /-- BANKED_ENTERED (R580) -/
  | bankedEntered
  /-- WAKE_END (R581) -/
  | wakeEnd (late : BitVec 4)
  /-- RDMA_WRITE (R442) -/
  | rdmaWrite (f : Frame) (r : RdmaReq)
  /-- RDMA_WRITE_WITH_IMMEDIATE (R454) -/
  | rdmaWriteWithImmediate (f : Frame) (r : RdmaReq) (imm : W32)
  /-- RDMA_READ (R442) -/
  | rdmaRead (f : Frame) (r : RdmaReq) (length : Nat)
  /-- DATA_QP_SEND (R442) -/
  | dataQpSend (f : Frame) (qp : Nat)
  /-- CM_REQ (R441) -/
  | cmReq (f : Frame) (r : CmRequest)
  /-- CNP (R439) -/
  | cnp (f : Frame) (qp : Nat)
  /-- CNP_RATE_INCREASE (R439) -/
  | cnpRateIncrease (h : HalfIx) (qp : Nat)
  /-- PFC_PAUSE (R438) -/
  | pfcPause (h : HalfIx) (priority : Fin 8) (pause : Bool)
  /-- ARP (R436) -/
  | arp (f : Frame) (target : W32)
  /-- NEIGHBOUR_DISCOVERY (R436) -/
  | neighbourDiscovery (f : Frame) (target : W128)
  /-- ICMP_ECHO (R436) -/
  | icmpEcho (f : Frame) (family : Nat) (target : W128) (data : List Byte)
  /-- UNSUPPORTED_FRAME (R436) -/
  | unsupportedFrame (h : HalfIx)
  /-- NVME_COMPLETION (R459) -/
  | nvmeCompletion (f : Frame) (target : Fin 32) (command : Nat) (status : W16) (data : List Byte)
  /-- TARGET_RDMA_READ (R458) -/
  | targetRdmaRead (f : Frame) (extent : Nat)
  /-- OUTPUT_ENTRY_SEND (R455) -/
  | outputEntrySend (ring : Fin 256)
  /-- EVENT_QUEUE_SPACE (R449) -/
  | eventQueueSpace (h : HalfIx) (space : Nat)
  /-- PORT_DIE_HALF_FAILURE (R37) -/
  | portDieHalfFailure (h : HalfIx)
  /-- COMPUTE_PHASE_START (R253) -/
  | computePhaseStart
  /-- GRADIENT_FINAL (R255) -/
  | gradientFinal (tile : Nat)
  /-- UPDATE_PHASE_START (R254) -/
  | updatePhaseStart
  /-- CHECK_PHASE_END (R495) -/
  | checkPhaseEnd
  /-- RISER_COPY_UNIT (R490) -/
  | riserCopyUnit (c : Cru) (u : Nat)
  /-- RISER_WRITE_STALL (R491) -/
  | riserWriteStall (c : Cru) (off : BitVec 36) (write : StalledWrite)
  /-- NOSE_ROUND_START (R476) -/
  | noseRoundStart
  /-- NOSE_ROUND_END (R477) -/
  | noseRoundEnd
  /-- SILLAGE_DIGEST_DONE (R479) -/
  | sillageDigestDone
  /-- SILLAGE_COMPARE (R480) -/
  | sillageCompare
  /-- SILLAGE_MISSING (R480) -/
  | sillageMissing
  /-- CORE_RETIREMENT (R472) -/
  | coreRetirement (k : CoreId)
  /-- PROGRESS_STALL (R543) -/
  | progressStall (c : Cru) (units : List StallUnit)
  /-- HANG_RECORD_COMPLETE (R546) -/
  | hangRecordComplete (c : Cru)
  /-- HANG_RECORD_TIMEOUT (R546) -/
  | hangRecordTimeout (c : Cru)
  /-- CRUCIBLE_RETURN (R551) -/
  | crucibleReturn (c : Cru)
  /-- BOOT_TIMEOUT (R552) -/
  | bootTimeout (c : Cru)
  /-- STANDBY_ENTRY (R565) -/
  | standbyEntry (slot : BitVec 6)
  /-- PWR_EN_HIGH (R566) -/
  | pwrEnHigh
  /-- POWER_UP_COMPLETE (R566) -/
  | powerUpComplete
  /-- RAIL_FAULT (R568) -/
  | railFault
  /-- INPUT_LOST (R568) -/
  | inputLost (vin : W16)
  /-- INPUT_OVER_VOLTAGE (R568) -/
  | inputOverVoltage (vin : W16)
  /-- PWR_EN_LOW (R568) -/
  | pwrEnLow
  /-- POWER_DOWN_COMPLETE (R568) -/
  | powerDownComplete
  /-- VIN_WARN (R569) -/
  | vinWarn (vin : W16)
  /-- SYS_RST_N (R567) -/
  | sysRstN (slot : BitVec 6)
  /-- TEMPERATURE_SAMPLE (R571) -/
  | temperatureSample (t : TempReading)
  /-- THERM_TRIP_RELEASE (R571) -/
  | thermTripRelease
  /-- POWER_SAMPLE (R572) -/
  | powerSample (vin : W16) (iin : W16)
  /-- CLEAR_FAULTS (R573) -/
  | clearFaults
  /-- STATUS_WORD (R573) -/
  | statusWord
  /-- READ_VIN (R573) -/
  | readVin
  /-- READ_IIN (R573) -/
  | readIin
  /-- READ_TEMPERATURE_1 (R573) -/
  | readTemperature1
  /-- READ_TEMPERATURE_2 (R573) -/
  | readTemperature2
  /-- READ_PIN (R573) -/
  | readPin
  /-- PMBUS_REVISION (R573) -/
  | pmbusRevision
  /-- UNSUPPORTED_PMBUS_COMMAND (R573) -/
  | unsupportedPmbusCommand (code : Byte)
  /-- STORE_OPEN (R600) -/
  | storeOpen
  /-- PERSISTENT_RECORD (R608) -/
  | persistentRecord (r : RecordReq)
  /-- RECORD_DURABLE (R599) -/
  | recordDurable (ok : Bool)
  /-- WEAR_RECORD (R607) -/
  | wearRecord
  /-- STORE_DAILY_CHECK (R617) -/
  | storeDailyCheck (bad : List Nat)
  /-- PORT_DIE_BOOT (R629) -/
  | portDieBoot
  /-- CRUCIBLE_BOOT (R630) -/
  | crucibleBoot (c : Cru)
  /-- ALWAYS_ON_DOMAIN_FAILURE (R37) -/
  | alwaysOnDomainFailure
  /-- ETH_LINK_UP (R461) -/
  | ethLinkUp (h : HalfIx)
  /-- ETH_LINK_DOWN (R461) -/
  | ethLinkDown (h : HalfIx)
  /-- ROCE_ACK (R440) -/
  | roceAck (f : Frame) (qp : Nat) (kind : AckKind)
  /-- ROCE_ACK_TIMEOUT (R440) -/
  | roceAckTimeout (h : HalfIx) (qp : Nat)
  /-- SEND_WITHOUT_RECEIVE_BUFFER (R444) -/
  | sendWithoutReceiveBuffer (f : Frame) (qp : Nat)
  /-- FLASH_SECTOR_DONE (R634) -/
  | flashSectorDone (ok : Bool)
  deriving DecidableEq, Repr

end Sys2Proof
end

