-- ==== Sys2Proof/Decode.lean ====
section
/-!
DEFINITION. Words and commands.
-/
namespace Sys2Proof

/-- spec/opcode_table.json gives no row any bits, so no word spells a command. -/
def decodeTableWord (_nbits _w : Nat) : Option Instr := none

end Sys2Proof
end

