-- ==== Sys2Proof/Machine/Sparse.lean ====
section
/-!
DEFINITION. Sparse tables: a list of (key, value) pairs in one canonical form. Memories, register files and every indexed set of
the module are held so.
-/
namespace Sys2Proof.Machine

/-- A table by number. An unlisted key reads as the table's reset value `d k`. -/
abbrev Store (α : Type) := List (Nat × α)

/-- What key `k` holds. -/
def Store.get {α : Type} (d : Nat → α) : Store α → Nat → α
  | [], k => d k
  | (j, v) :: m, k => if j = k then v else Store.get d m k

/-- `m` without an entry for `k`. -/
def Store.erase {α : Type} : Store α → Nat → Store α
  | [], _ => []
  | (j, v) :: m, k => if j = k then Store.erase m k else (j, v) :: Store.erase m k

/-- `m` with the entry (k, v) at its place in rising order. -/
def Store.put {α : Type} : Store α → Nat → α → Store α
  | [], k, v => [(k, v)]
  | (j, w) :: m, k, v =>
    if k < j then (k, v) :: (j, w) :: m
    else if k = j then (k, v) :: m
    else (j, w) :: Store.put m k v

/-- Write key `k`. Writing the value an unlisted key reads as removes the entry, so equal tables are equal lists. -/
def Store.set {α : Type} [DecidableEq α] (d : Nat → α) (m : Store α) (k : Nat) (v : α) : Store α :=
  if v = d k then Store.erase m k else Store.put m k v

/-- Change the value at key `k`. -/
def Store.modify {α : Type} [DecidableEq α] (d : Nat → α) (m : Store α) (k : Nat) (f : α → α) : Store α :=
  Store.set d m k (f (Store.get d m k))

/-- Every key of `m` is above `k`, and the keys rise. -/
def Store.above {α : Type} (k : Nat) : Store α → Bool
  | [] => true
  | (j, _) :: m => decide (k < j) && Store.above j m

/-- The keys rise strictly. -/
def Store.sorted {α : Type} : Store α → Bool
  | [] => true
  | (j, _) :: m => Store.above j m

/-- No entry equals what an unlisted key reads as. -/
def Store.tight {α : Type} [DecidableEq α] (d : Nat → α) : Store α → Bool
  | [] => true
  | (j, v) :: m => decide (v ≠ d j) && Store.tight d m

/-- The canonical form. -/
def Store.wf {α : Type} [DecidableEq α] (d : Nat → α) (m : Store α) : Bool :=
  Store.sorted m && Store.tight d m

/-- A memory: bytes by address (R46, R47). -/
abbrev Memory := List Host.Cell

/-- What an unlisted byte reads as: 0 (R313 for HBM, R103 for a core). -/
def Memory.unlisted : Nat → Byte := fun _ => 0

def Memory.read (m : Memory) (a : Nat) : Byte := Store.get Memory.unlisted m a
def Memory.write (m : Memory) (a : Nat) (b : Byte) : Memory := Store.set Memory.unlisted m a b
def Memory.wf (m : Memory) : Bool := Store.wf Memory.unlisted m

/-- The `n` bytes from address `a`, lowest address first. -/
def Memory.readBytes (m : Memory) (a : Nat) : Nat → List Byte
  | 0 => []
  | n + 1 => Memory.read m a :: Memory.readBytes m (a + 1) n

/-- Write bytes from address `a` on, lowest address first. -/
def Memory.writeBytes (m : Memory) (a : Nat) : List Byte → Memory
  | [] => m
  | b :: bs => Memory.writeBytes (Memory.write m a b) (a + 1) bs

/-- The number that bytes spell, little-endian (R7). -/
def leNat : List Byte → Nat
  | [] => 0
  | b :: bs => b.toNat + 256 * leNat bs

/-- `v` as `n` bytes, little-endian (R7). -/
def leBytes : Nat → Nat → List Byte
  | 0, _ => []
  | n + 1, v => BitVec.ofNat 8 v :: leBytes n (v / 256)

/-- The number that bytes spell, big-endian (R7: published standards). -/
def beNat (bs : List Byte) : Nat := leNat bs.reverse

/-- `v` as `n` bytes, big-endian. -/
def beBytes (n v : Nat) : List Byte := (leBytes n v).reverse

/-- Four values, one for each crucible. -/
structure Quad (α : Type) where
  c0 : α
  c1 : α
  c2 : α
  c3 : α
  deriving DecidableEq, Repr

def Quad.get {α : Type} (q : Quad α) (c : Cru) : α :=
  match c with
  | 0 => q.c0
  | 1 => q.c1
  | 2 => q.c2
  | 3 => q.c3

def Quad.set {α : Type} (q : Quad α) (c : Cru) (v : α) : Quad α :=
  match c with
  | 0 => { q with c0 := v }
  | 1 => { q with c1 := v }
  | 2 => { q with c2 := v }
  | 3 => { q with c3 := v }

def Quad.all {α : Type} (v : α) : Quad α := ⟨v, v, v, v⟩

/-- Two values, one for each half of the port die (R36). -/
structure Pair (α : Type) where
  h0 : α
  h1 : α
  deriving DecidableEq, Repr

def Pair.get {α : Type} (q : Pair α) (h : HalfIx) : α := if h = 0 then q.h0 else q.h1

def Pair.set {α : Type} (q : Pair α) (h : HalfIx) (v : α) : Pair α :=
  if h = 0 then { q with h0 := v } else { q with h1 := v }

/-- A register set with a live and a shadow copy and its COMMIT (R14–R20). -/
structure Staged (α : Type) where
  live : α
  shadow : α
  commit : Bool
  deriving DecidableEq, Repr

def Staged.reset {α : Type} (v : α) : Staged α := ⟨v, v, false⟩

/-- The commit point passes: the whole shadow set becomes live (R16), COMMIT reads 0, the shadow keeps its values (R20). -/
def Staged.accept {α : Type} (x : Staged α) : Staged α := { x with live := x.shadow, commit := false }

/-- A set rejected at its commit point leaves both copies as they are (R18). -/
def Staged.reject {α : Type} (x : Staged α) : Staged α := { x with commit := false }

/-- Replace the value at position `i` of a list. -/
def listSet {α : Type} : List α → Nat → α → List α
  | [], _, _ => []
  | _ :: l, 0, v => v :: l
  | x :: l, n + 1, v => x :: listSet l n v

/-- The list without position `i`. -/
def listDrop {α : Type} : List α → Nat → List α
  | [], _ => []
  | _ :: l, 0 => l
  | x :: l, n + 1 => x :: listDrop l n

end Sys2Proof.Machine
end

