-- ==== Sys2Proof/Machine/Crypto.lean ====
section
/-!
DEFINITION. CRC-64 (R478), CRC-32C and SHA-256, over byte strings.
-/
namespace Sys2Proof.Machine

/-! ### CRC-64, polynomial of ECMA-182, initial value 0, no reflection, no final XOR (R478) -/

def crc64Bit (c : W64) : W64 := if c.getLsbD 63 then (c <<< 1) ^^^ 0x42F0E1EBA9EA3693#64 else c <<< 1

def crc64Byte (c : W64) (b : Byte) : W64 :=
  let c := c ^^^ (b.setWidth 64 <<< 56)
  crc64Bit (crc64Bit (crc64Bit (crc64Bit (crc64Bit (crc64Bit (crc64Bit (crc64Bit c)))))))

def crc64 (bs : List Byte) : W64 := bs.foldl crc64Byte 0

/-! ### CRC-32C (Castagnoli), reflected, initial value and final XOR all ones -/

def crc32cBit (c : W32) : W32 := if c.getLsbD 0 then (c >>> 1) ^^^ 0x82F63B78#32 else c >>> 1

def crc32cByte (c : W32) (b : Byte) : W32 :=
  let c := c ^^^ b.setWidth 32
  crc32cBit (crc32cBit (crc32cBit (crc32cBit (crc32cBit (crc32cBit (crc32cBit (crc32cBit c)))))))

def crc32c (bs : List Byte) : W32 := ~~~(bs.foldl crc32cByte 0xFFFFFFFF)

/-! ### SHA-256 -/

abbrev W256 := BitVec 256

/-- The round constants, eight to a number, the first one highest: the first 32 bits of the fractional parts of the cube roots of the
first 64 primes. -/
def shaTable : List W256 :=
  [0x428a2f9871374491b5c0fbcfe9b5dba53956c25b59f111f1923f82a4ab1c5ed5,
   0xd807aa9812835b01243185be550c7dc372be5d7480deb1fe9bdc06a7c19bf174,
   0xe49b69c1efbe47860fc19dc6240ca1cc2de92c6f4a7484aa5cb0a9dc76f988da,
   0x983e5152a831c66db00327c8bf597fc7c6e00bf3d5a7914706ca635114292967,
   0x27b70a852e1b21384d2c6dfc53380d13650a7354766a0abb81c2c92e92722c85,
   0xa2bfe8a1a81a664bc24b8b70c76c51a3d192e819d6990624f40e3585106aa070,
   0x19a4c1161e376c082748774c34b0bcb5391c0cb34ed8aa4a5b9cca4f682e6ff3,
   0x748f82ee78a5636f84c878148cc7020890befffaa4506cebbef9a3f7c67178f2]

/-- Word `i` of eight, counted from the most significant. -/
def wordFrom (v : W256) (i : Nat) : W32 := v.extractLsb' (32 * (7 - i)) 32

def sha256K : List W32 := (shaTable.map (fun v => (List.range 8).map (wordFrom v))).flatten

/-- The eight working words. -/
structure Sha where
  a : W32
  b : W32
  c : W32
  d : W32
  e : W32
  f : W32
  g : W32
  h : W32
  deriving DecidableEq, Repr

/-- The initial words, from the square roots of the first 8 primes, in the same form. -/
def shaStart : W256 := 0x6a09e667bb67ae853c6ef372a54ff53a510e527f9b05688c1f83d9ab5be0cd19

def sha256Init : Sha :=
  let w := wordFrom shaStart
  ⟨w 0, w 1, w 2, w 3, w 4, w 5, w 6, w 7⟩

/-- A word turned right by three distances, the results combined bit by bit. -/
def shaTurn (x : W32) (i j k : Nat) : W32 := x.rotateRight i ^^^ x.rotateRight j ^^^ x.rotateRight k

/-- As `shaTurn`, the third distance a shift. -/
def shaMix (x : W32) (i j k : Nat) : W32 := x.rotateRight i ^^^ x.rotateRight j ^^^ (x >>> k)

/-- Bit by bit: y where x is 1, z where it is 0. -/
def shaChoose (x y z : W32) : W32 := z ^^^ (x &&& (y ^^^ z))

/-- Bit by bit: the value that two of the three hold. -/
def shaMajority (x y z : W32) : W32 := (x &&& y) ||| (z &&& (x ||| y))

/-- One round: `u` is the round constant plus the schedule's word. -/
def shaRound (s : Sha) (u : W32) : Sha :=
  let t := s.h + shaTurn s.e 6 11 25 + shaChoose s.e s.f s.g + u
  { a := t + shaTurn s.a 2 13 22 + shaMajority s.a s.b s.c, b := s.a, c := s.b, d := s.c, e := s.d + t, f := s.e, g := s.f, h := s.g }

/-- The message schedule as a window of 16 words, consumed one round at a time. -/
def shaRounds (s : Sha) (w : List W32) : List W32 → Sha
  | [] => s
  | k :: ks =>
    match w with
    | w0 :: rest =>
      shaRounds (shaRound s (k + w0))
        (rest ++ [shaMix (rest.getD 13 0) 17 19 10 + rest.getD 8 0 + shaMix (rest.getD 0 0) 7 18 3 + w0]) ks
    | [] => s

def shaBlock (h : Sha) (w : List W32) : Sha :=
  let s := shaRounds h w sha256K
  ⟨h.a + s.a, h.b + s.b, h.c + s.c, h.d + s.d, h.e + s.e, h.f + s.f, h.g + s.g, h.h + s.h⟩

/-- `n` 32-bit words from bytes, most significant byte first. -/
def beWords : Nat → List Byte → List W32
  | 0, _ => []
  | n + 1, bs => BitVec.ofNat 32 (beNat (bs.take 4)) :: beWords n (bs.drop 4)

def shaBlocks (h : Sha) (bs : List Byte) : Nat → Sha
  | 0 => h
  | n + 1 => shaBlocks (shaBlock h (beWords 16 bs)) (bs.drop 64) n

def shaPad (bs : List Byte) : List Byte :=
  let n := bs.length
  bs ++ [0x80] ++ List.replicate ((119 - n % 64) % 64) 0 ++ beBytes 8 (8 * n)

/-- SHA-256 as its 32 bytes, in the standard's order (R7). -/
def sha256 (bs : List Byte) : List Byte :=
  let p := shaPad bs
  let h := shaBlocks sha256Init p (p.length / 64)
  ([h.a, h.b, h.c, h.d, h.e, h.f, h.g, h.h].map (fun (w : W32) => beBytes 4 w.toNat)).flatten

end Sys2Proof.Machine
end

