-- ==== Sys2Proof/Machine/Flags.lean ====
section
/-!
DEFINITION. The access codes of R10–R12, sticky flags (R11, R13, R18, R19) and saturating counters.
-/
namespace Sys2Proof.Machine

/-- A W1C field after software writes `v` (R10): each 1 written clears its bit. -/
def w1c {n : Nat} (old v : BitVec n) : BitVec n := old &&& ~~~v

/-- Set flag bit `i` of a status field. Hardware sets never race with a clear: commands are whole steps (R11). -/
def setFlag {n : Nat} (old : BitVec n) (i : Nat) : BitVec n := old ||| (BitVec.ofNat n 1 <<< i)

def clearFlag {n : Nat} (old : BitVec n) (i : Nat) : BitVec n := old &&& ~~~(BitVec.ofNat n 1 <<< i)

/-- A counter that stops at its largest value (R211, R333, R395, R435, R464). -/
def satAdd {n : Nat} (c : BitVec n) (k : Nat) : BitVec n := BitVec.ofNat n (min (c.toNat + k) (2 ^ n - 1))

/-- A flag as one bit of a register, at position `i`. -/
def bitAt (b : Bool) (i : Nat) : W32 := if b then BitVec.ofNat 32 (2 ^ i) else 0

/-- A field at position `i` of a register. -/
def fieldAt {n : Nat} (v : BitVec n) (i : Nat) : W32 := v.setWidth 32 <<< i

end Sys2Proof.Machine
end

