-- ==== Sys2Proof/Machine/Residue.lean ====
section
/-!
DEFINITION. Residue codes: the check bits beside accumulator words and vector lanes, what a unit predicts, and its comparison (R65,
R465, R466).
-/
namespace Sys2Proof.Machine

/-- A number modulo 7, in 3 bits. -/
def mod7 (n : Int) : BitVec 3 := BitVec.ofNat 3 (n % 7).toNat

/-- The integer significand of an FP32 word: the fraction with its hidden bit; none for an infinity or a NaN (R465). -/
def significand32 (w : W32) : Option Nat :=
  let e := w.extractLsb' 23 8
  let f := (w.extractLsb' 0 23).toNat
  if e = 0xFF then none else if e = 0 then some f else some (2 ^ 23 + f)

/-- The residue of an FP32 word: 0 for an infinity or a NaN (R465). -/
def residue32 (w : W32) : BitVec 3 := mod7 ((significand32 w).getD 0)

/-- The residue of a word that an integer chain wrote: its two's-complement value modulo 7 (R465). -/
def residueInt (w : W32) : BitVec 3 := mod7 w.toInt

/-- A stored word agrees with its check bits: as the FP32 or as the INT32 value it was written as. -/
def residueAgrees (r : BitVec 3) (w : W32) : Bool := r == residue32 w || r == residueInt w

/-- What a cell predicts of a product (R466). -/
def residueProduct (rx rw : BitVec 3) : BitVec 3 := mod7 (rx.toNat * rw.toNat)

/-- What a stage predicts of an exact sum of two aligned terms, each a residue and the number of places it is shifted up. -/
def residueSum (ra rb : BitVec 3) (i j : Nat) : BitVec 3 := mod7 (ra.toNat * 2 ^ i + rb.toNat * 2 ^ j)

/-- The comparison of a chain stage: r(R) × (2^t mod 7) + r(D) against the prediction of the exact sum R × 2^t + D (R466). -/
def stageAgrees (rR rD predicted : BitVec 3) (t : Nat) : Bool := mod7 (rR.toNat * (2 ^ t % 7) + rD.toNat) == predicted

end Sys2Proof.Machine
end

