-- ==== Sys2Proof/Config.lean ====
section
/-!
DEFINITION. What one module has fixed and the spec does not state, and the free values. Each is an opaque constant: nothing can be
proved of its value, so a statement about the model holds for every value of it.
-/
namespace Sys2Proof.Config

/-! ### Free values, by the index `State.freeCtr` (log 2) -/

opaque freeBool : Nat → Bool
opaque freeNat : Nat → Nat
opaque free32 : Nat → W32
opaque free64 : Nat → W64
opaque freeBytes : Nat → List Byte

/-- Two faults of a core in one tick, by core and the issue orders of their instructions: both were raised before the fault record was
written (R106, log 53). -/
opaque faultsMeet : Nat → Nat → Nat → Bool

/-- A byte that a later row of an xcopy.2d writes as well keeps its earlier row's value, by core, step and sequence number, row and
place in the row (R151, log 113). -/
opaque rowKept : Nat → Nat → Nat → Nat → Nat → Bool

/-- Lanes that a test of HBM training finds failing, each as 38 × pseudo-channel + lane, where 36 and 37 are the spares; by the training's
free value and the test's number (R312, R315, log 126). -/
opaque laneTest : Nat → Nat → List Nat

/-- A burst with more wrong symbols than R317 says the code detects, by unit, tick and number of wrong symbols: found uncorrectable
(none), or taken for other data (log 150). -/
opaque missed : Nat → Nat → Nat → Option (List Byte)

/-- How a recomputed weight or a score gradient enters a product whose operands have FORMAT FMT: not stated (R248, R249, log 127). -/
opaque gradOperand : Nat → W32 → W32

/-! ### Fixed functions whose accuracy alone is stated (R189, R190) -/

/-- A candidate for the result of vexp2.f32, used when it lies within the bound of R189 (log 20). -/
opaque exp2Candidate : W32 → W32
/-- As `exp2Candidate`, for vlog2.f32. -/
opaque log2Candidate : W32 → W32
/-- As `exp2Candidate`, for vrcp.f32. -/
opaque rcpCandidate : W32 → W32
/-- As `exp2Candidate`, for vrsqrt.f32. -/
opaque rsqrtCandidate : W32 → W32

/-! ### What differs from module to module (R595, R596, R643, R646) -/

/-- OTP bytes 0x000 to 0x0DF as the module was made. -/
opaque otp : List Byte
/-- Firmware slots A (0) and B (1) as the module was made. -/
opaque factorySlot : Nat → List Byte
/-- ID_ROM_VERSION and the SHA-256 of the port-die ROM. -/
opaque romVersion : W32
opaque romDigest : List Byte

/-! ### Tundish (R276, R277, R290, R301, R302)

What Tundish finds depends on the graph body, the health map and its own version, which the body names. How it predicts times, the
programs it builds, and the canonical encoding its digest covers are not stated: fixed, unknown functions of the body and the map's
active modules with their twins (log 34). -/

/-- Predicted nanoseconds of a forward or backward pass of a stage on so many cores of each crucible; by the CYCLES, HBM_READ and HBM_WRITE
of each operator's registration as well (R300). -/
opaque passTime : List Byte → List (Nat × Nat) → List (Nat × Nat × Nat) → Nat → Nat → Bool → Nat
opaque placementDigest : List Byte → List (Nat × Nat) → List Byte
/-- Programs that Tundish builds for a crucible of the module at a position of the active list: logical core, and its instruction words. -/
opaque programs : List Byte → List Nat → Nat → Nat → List (Nat × List W64)
/-- The tally words their programs use (R346–R349): logical core; use 0 for a completion tally, 1 for arrivals and credits, else the
library's own; the word within that use's range; the most signals left untaken; the signals held at the start; the operator whose program
uses the word; the agents that signal it from outside the core, as module and global core. -/
opaque tallyUses : List Byte → List Nat → Nat → Nat → List (Nat × Nat × Nat × Nat × Nat × Nat × List (Nat × Nat))
/-- Enqueues of a core in phases 1 and 2 of a step, and in phase 3: by the ENQUEUES of each operator's registration, the module's position
in the active list, the crucible and the core (R92, R275, R300). -/
opaque enqueues : List Byte → List (Nat × Nat) → List Nat → Nat → Nat → Nat → Nat
opaque updateEnqueues : List Byte → List (Nat × Nat) → Nat → Nat → Nat → Nat
/-- Index in the instruction store of the entry of user kernel k of a placement. -/
opaque kernelEntry : List Byte → Nat → Nat
/-- Figures of the report of a module, by its position in the active list and their number. -/
opaque figure : List Byte → List (Nat × Nat) → Nat → Nat → Nat

/-! ### What reaches a module in a step from outside, and what the spec leaves open in one (log 131–135)

By the run of the job (a number new at each job start) and the step, so that a replay of a step meets the same values. -/

/-- Which of the ranges of a transfer that break a rule gives DETAIL: the instruction, its sequence number, the addresses of those ranges. -/
opaque badRange : BitVec 64 → BitVec 32 → List (BitVec 32) → Nat
/-- An element of a tensor, or of its gradient, that another module holds: run, step, micro-batch, is it a gradient, tensor, row, column. -/
opaque arrived : Nat → Nat → Nat → Bool → Nat → Nat → Nat → W32
/-- Where a crucible's receive area lies in region 8, and how many slots it has: by body, position, crucible and area (R421). -/
opaque receiveAt : List Byte → Nat → Nat → Nat → Nat
opaque receiveSlots : List Byte → Nat → Nat → Nat → Nat
/-- Where what an attention operator keeps in region 8 lies: by body, position, crucible, operator, and the place of it (a ring slot, or a
tile's running state). -/
opaque attnAt : List Byte → Nat → Nat → Nat → Nat → Nat
/-- Where row statistics, and the tiles of what a pass produces, lie in region 7 and above: by body, position, crucible, micro-batch, and
operator or tensor; and for a tile its number. -/
opaque statAt : List Byte → Nat → Nat → Nat → Nat → Nat
opaque tileAt : List Byte → Nat → Nat → Nat → Nat → Nat → Nat
/-- An element that a user kernel writes: run, step, micro-batch, is it a gradient, tensor, row, column. -/
opaque kernelValue : Nat → Nat → Nat → Bool → Nat → Nat → Nat → W32
/-- Where an input or output tensor's element stands: which of the step's slots, and the byte in it; by body, micro-batch, tensor, row
and column. -/
opaque slotPlace : List Byte → Nat → Nat → Nat → Nat → Nat × Nat
/-- Another member's part of a sum over the stage group: run, step, micro-batch, operator, member, row, column. -/
opaque memberPartial : Nat → Nat → Nat → Nat → Nat → Nat → Nat → W32
/-- Statistics of an attention row that another rank computes: run, step, micro-batch, operator, head, row. -/
opaque arrivedStats : Nat → Nat → Nat → Nat → Nat → Nat → W32 × W32
/-- A word in a 4-bit FORMAT, to which no conversion is stated: FORMAT, word. -/
opaque fourBit : Nat → W32 → Nat
/-- What a call of a user kernel finds on a core: a0, s2, s31, and bytes 72 to 255 of its parameter block; by body, operator and rank. -/
opaque kernelCall : List Byte → Nat → Nat → Nat × Nat × Nat × List Byte
/-- The format in which a tensor's gradient is kept between operators: 0 FP32, 1 BF16, else another; by body and tensor. It is not stated
but for what attention produces. -/
opaque gradFormat : List Byte → Nat → Nat
/-- A gradient kept in another format than FP32 or BF16, from its FP32 word: run, step, micro-batch, tensor, row, column. -/
opaque keptGrad : Nat → Nat → Nat → Nat → Nat → Nat → W32 → W32
/-- The operation that narrows an element of an activation's gradient: global core, sequence number and element index, by body, position,
micro-batch, operator, tensor, row and column (R206, R270). -/
opaque gradOp : List Byte → Nat → Nat → Nat → Nat → Nat → Nat → Nat × Nat × Nat
/-- The gradient of SILU, from x and dy: no rule gives it. -/
opaque siluGrad : W32 → W32 → W32
/-- β^t as the firmware's binary64 routine forms it: sign, m and e of m × 2^e. -/
opaque power : W32 → Nat → Bool × Nat × Int
/-- The operation of the update program that narrows a value (log 137): its sequence number past U, and the element index; by how many groups the
core has updated before, the value (0 w, 1 m, 2 u) and the parameter's number in its group. -/
opaque updateOp : Nat → Nat → Nat → Nat × Nat
/-- As `updateOp`, for the narrowing of a reduced gradient at the last rank: sequence number and element, by crucible, group and
parameter. -/
opaque reduceOp : Nat → Nat → Nat → Nat × Nat
/-- Whether a tile's arrival signal has come by a tick: a free value's index, the pass's micro-batch and direction, tensor and tile (R262). -/
opaque tileHere : Nat → Nat → Bool → Nat → Nat → Bool
/-- Whether a chunk's arrival signal, or the free signal of the slot it goes to, has come by a tick: a free value's index, the area, the
crucible and the chunk (R421, R422). -/
opaque chunkHere : Nat → Nat → Nat → Nat → Bool
opaque slotHere : Nat → Nat → Nat → Bool

/-- The hexadecimal digits of the host NQN are capitals (R456, log 154). -/
opaque nqnUpper : Bool

/-! ### The nose suite (R473, R474) -/

/-- Its instruction words. -/
opaque noseSuite : List W64

/-- The elements of the operand image, in order: runs of a FORMAT and how many elements it has. -/
opaque noseRuns : List (BitVec 4 × Nat)
/-- Offset of the resend area in region 1, by crucible (R411, log 51). -/
opaque resendAt : Nat → Nat
/-- Offset of the operand image in region 1, by crucible. -/
opaque noseImageAt : Nat → Nat
/-- The lowest of the bits of mix that an element of a width takes, and which of the three exponents element i of a seed has. -/
opaque noseShift : Nat → Nat
opaque noseExponent : BitVec 64 → Nat → Nat

/-! ### The record of a user kernel (R298)

The spec lists its fields and not their places: what a record holds is a fixed, unknown function of its bytes (log 32). -/

/-- IMAGE of a record. -/
opaque kernelImage : List Byte → List Byte
/-- BACKWARD_CODE, CORES, TALLIES, SCRATCH, ENQUEUES, CYCLES, HBM_READ, HBM_WRITE, PARTITION, by number from 0. -/
opaque kernelField : List Byte → Nat → Nat
/-- Offset of the first bad byte of a record. -/
opaque kernelBadByte : List Byte → Nat

/-! ### The identity key (R611, R612) -/

/-- Bottom tree k's public key, its top-level signature, and the signature of a message with leaf g, from IDENTITY_SEED and
IDENTITY_I (RFC 8554, Appendix A). -/
opaque bottomKey : List Byte → Nat → List Byte
opaque topSignature : List Byte → Nat → List Byte
opaque leafSignature : List Byte → Nat → List Byte → List Byte

/-! ### Telemetry (R573) -/

/-- A LINEAR11 word for the value n / d, used when it lies within one unit of its mantissa (log 45). -/
opaque linear11 : Nat → Nat → W16

end Sys2Proof.Config
end

