-- ==== Sys2Proof/Machine/CoreState.lean ====
section
/-!
DEFINITION. The state of the Sirba cores and of the register blocks beside them: core array and remap (spec/02), the numeric
counters (spec/05) and the tally block (spec/10).
-/
namespace Sys2Proof.Machine

/-! ### A physical core (R61, R83, R155) -/

/-- How far a queued operation has come. -/
inductive Phase where
  /-- In its queue, not started. -/
  | queued
  /-- Started. -/
  | running
  /-- Complete in the sense of R89, its signal not yet sent. -/
  | complete
  /-- Complete, its signal held at a word at capacity (R123). -/
  | held
  deriving DecidableEq, Repr

/-- The operand format of a tmac (R140). -/
inductive MacKind where
  | i8
  | f8
  | bf16
  | f16
  | f32
  deriving DecidableEq, Repr

inductive TensorOp where
  | load
  | mac (kind : MacKind)
  | drain
  deriving DecidableEq, Repr

/-- A row in the reduction chain: its words, each with what it adds to the saturated count, and whether the accumulator words it read
agreed with their check bits (R164, R466). -/
structure ChainRow where
  words : List (W32 × Nat)
  agreed : Bool
  deriving DecidableEq, Repr

/-- An entry of the tensor queue: what the instruction copied at issue (R80). -/
structure TensorEntry where
  op : TensorOp
  /-- The instruction's word (R548). -/
  word : W64
  seq : W32
  pc : BitVec 13
  /-- The physical word of the completion tally, or none (R122, R352). -/
  tally : Option Nat
  desc : W128
  /-- Starting accumulator row (R137). -/
  row : Nat
  flags : Byte
  asOff : W48
  /-- The number of the tld.w itself, or of the last one issued before (R160). -/
  loadId : Nat
  phase : Phase
  /-- Logical rows of a tmac already written to the accumulator, rows of a drain already written to the scratchpad, accesses a tld.w
  has made. -/
  rowsDone : Nat
  /-- What has been read from the scratchpad for work not yet done: rows of a tmac, since a re-entered row uses what its first entry
  read (R172); the table or the scale record of a tld.w; scale records of a drain. -/
  rowBuf : List (List W32)
  /-- Rows of a tmac that have entered and are not yet written, oldest first (R164). -/
  chain : List ChainRow
  deriving DecidableEq, Repr

/-- An entry of the vector queue. -/
structure VectorEntry where
  op : Byte
  /-- The instruction's word (R548). -/
  word : W64
  seq : W32
  pc : BitVec 13
  tally : Option Nat
  vd : BitVec 5
  va : BitVec 5
  vb : BitVec 5
  vc : BitVec 5
  sr : Bool
  /-- Scratchpad address of a load or store, or accumulator row. -/
  at_ : Nat
  /-- The scalar of a vbcast. -/
  scalar : W32
  phase : Phase
  deriving DecidableEq, Repr

/-- One side of a transfer: an offset in the core's own window, or a global address (R67, R148). -/
inductive Side where
  | own (off : BitVec 22)
  | global (addr : W64)
  deriving DecidableEq, Repr

inductive XferOp where
  | copy
  | copy2d
  | castCore
  | castMod
  | signal
  | take
  deriving DecidableEq, Repr

/-- An entry of the transfer queue. -/
structure XferEntry where
  op : XferOp
  /-- The instruction's word (R548). -/
  word : W64
  seq : W32
  pc : BitVec 13
  tally : Option Nat
  src : Side
  dst : Side
  rows : Nat
  len : Nat
  srcStride : Nat
  dstStride : Nat
  /-- Group mask of a castCore, module mask of a castMod. -/
  mask : W128
  col : Bool
  phase : Phase
  /-- Number of its packets still to be injected, and of read requests whose data has not arrived. -/
  toInject : Nat
  toArrive : Nat
  /-- WRITE packets cut so far: the AUX of the next one in the collective class (R398, log 22). -/
  cut : Nat
  /-- The connection resets of its crucible before it issued (R430). -/
  gen : Nat
  /-- Bytes read for accumulator words that other bytes still complete, by their offset in the destination (log 111). -/
  staged : List (Nat × List Byte)
  /-- A source, a destination range of it that lies elsewhere breaks R150: found when it starts, raised by the first answer to a packet
  of that side. -/
  badSrc : Bool
  badDst : Bool
  deriving DecidableEq, Repr

/-- A weight set of the array (R155): logical shape, FORMAT, AUX_MODE and its cells by 64 k + n, expanded codes. `id` is the model's
number of the tld.w that loaded it, which says whether a tmac activates it (R160, log 7). -/
structure WeightSet where
  id : Nat
  k : Nat
  n : Nat
  format : BitVec 4
  aux : BitVec 2
  cells : Store W32
  /-- The residue beside each cell (R465). -/
  res : Store (BitVec 3)
  deriving DecidableEq, Repr

/-- The empty INT8 tile (R158). -/
def WeightSet.empty : WeightSet := ⟨0, 0, 0, 0, 0, [], []⟩

/-- What a tmac issued now is checked against: the shape and format of the last tld.w issued (R138, R140). -/
structure LoadShape where
  id : Nat
  k : Nat
  n : Nat
  format : BitVec 4
  aux : BitVec 2
  deriving DecidableEq, Repr

structure PhysCore where
  s : Store W64
  a : Store W48
  pc : BitVec 13
  step : W48
  /-- The sequence register. It holds 2^32 once every sequence number of the step is taken (R92). -/
  seq : Nat
  cyc : W64
  istore : Store W64
  scratch : Memory
  /-- The parity bit of each scratchpad byte (R468). -/
  parity : Store Bool
  acc : Store W32
  v : Store W32
  /-- The residue check bits of accumulator words and of vector lanes (R65). -/
  accRes : Store (BitVec 3)
  vRes : Store (BitVec 3)
  t : Store W128
  tally : Store W64
  tq : List TensorEntry
  vq : List VectorEntry
  xq : List XferEntry
  active : WeightSet
  standby : WeightSet
  /-- The standby set is loaded and no tmac has activated it (R160). -/
  standbyFull : Bool
  lastLoad : LoadShape
  deriving DecidableEq, Repr

def zero3 : Nat → BitVec 3 := fun _ => 0
def zero32 : Nat → W32 := fun _ => 0
def even : Nat → Bool := fun _ => false
def zero48 : Nat → W48 := fun _ => 0
def zero64 : Nat → W64 := fun _ => 0
def zero128 : Nat → W128 := fun _ => 0

def PhysCore.reset : PhysCore where
  s := []
  a := []
  pc := 0
  step := 0
  seq := 0
  cyc := 0
  istore := []
  scratch := []
  parity := []
  acc := []
  v := []
  accRes := []
  vRes := []
  t := []
  tally := []
  tq := []
  vq := []
  xq := []
  active := WeightSet.empty
  standby := WeightSet.empty
  standbyFull := false
  lastLoad := ⟨0, 0, 0, 0, 0⟩

/-! ### A logical core -/

/-- The states of R93. -/
inductive CoreMode where
  | halted
  | running
  | halting
  | faulted
  | clearing
  deriving DecidableEq, Repr

/-- What a Running core waits for at issue (R84, R88, R91, R133). -/
inductive Waiting where
  | tally (word : Nat)
  | stepStart (v : W48)
  | fence
  | tensor (e : TensorEntry)
  | vector (e : VectorEntry)
  | xfer (e : XferEntry)
  deriving DecidableEq, Repr

/-- CORE_FAULT_L and CORE_FAULT_DETAIL_L (R113). -/
structure FaultRecord where
  cause : Byte
  source : BitVec 3
  multiple : Bool
  pc : BitVec 13
  detail : W32
  deriving DecidableEq, Repr

def FaultRecord.none : FaultRecord := ⟨0, 0, false, 0, 0⟩

/-- Numeric thresholds and enables (R218): ENABLE bit 1 FLUSH_EN, bit 0 SAT_EN. -/
structure NumRegs where
  sat : W32
  flush : W32
  enable : BitVec 2
  deriving DecidableEq, Repr

def NumRegs.reset : NumRegs := ⟨0x400, 0x400, 0⟩

/-- The event record of R217. -/
structure NumEvent where
  seq : W32
  step : W48
  satCrossed : Bool
  flushCrossed : Bool
  overrun : Bool
  deriving DecidableEq, Repr

def NumEvent.none : NumEvent := ⟨0, 0, false, false, false⟩

structure LogCore where
  mode : CoreMode
  waiting : Option Waiting
  /-- The halt in progress was requested by the management core (R96), not by the core's own halt instruction. -/
  mgmtHalt : Bool
  /-- SIGNALS_DROPPED (R112). -/
  dropped : Bool
  startPc : BitVec 13
  /-- The START_PC of a RUN that waits for an instruction-store copy (R111, R118). -/
  runWaiting : Option (BitVec 13)
  fault : FaultRecord
  /-- Issue order of the instruction the record names, and the tick at which the core entered Faulted (R106, log 53). The model's
  own. -/
  faultOrder : Nat
  faultAt : W64
  /-- The core's bit of FAULT_SUMMARY (R114). -/
  faultFlag : Bool
  /-- A CLEAR_FAULT in progress (R107). -/
  clearReq : Bool
  /-- TALLY_CTX_SEL_L: bit 3 VIRTUAL, bits [2:0] CTX (R359). -/
  ctxSel : BitVec 4
  sat : W32
  flush : W32
  satPrev : W32
  flushPrev : W32
  event : NumEvent
  /-- The core's bit of NUM_EVENT_SUMMARY (R219). -/
  numFlag : Bool
  /-- The thresholds in use since the last step instruction (R214). -/
  thr : NumRegs
  /-- Residue mismatches of the core (R484). -/
  mismatches : BitVec 2
  /-- RES_SIG_L (R484). -/
  sig : W64
  /-- A retirement that R472 has still to carry out, with what its CORE_FAULT event reports. -/
  retireDue : Option FaultRecord
  /-- Its instruction store is loaded once Clearing ends, for the replay after a retirement (R472). -/
  reload : Bool
  /-- HANG_PROG_CORE_L and HANG_PROG_XFER_L (R562). -/
  progCore : W32
  progXfer : W32
  deriving DecidableEq, Repr

def LogCore.reset : LogCore where
  mode := .halted
  waiting := none
  mgmtHalt := false
  dropped := false
  startPc := 0
  runWaiting := none
  fault := FaultRecord.none
  faultOrder := 0
  faultAt := 0
  faultFlag := false
  clearReq := false
  ctxSel := 0
  sat := 0
  flush := 0
  satPrev := 0
  flushPrev := 0
  event := NumEvent.none
  numFlag := false
  thr := NumRegs.reset
  mismatches := 0
  sig := 0
  retireDue := none
  reload := false
  progCore := 0
  progXfer := 0

/-! ### Core array block (R108–R118) -/

/-- The ISTORE_ set (R116), each register with its reserved bits already 0. -/
structure IstoreRegs where
  srcLo : W32
  srcHi : BitVec 4
  len : BitVec 17
  dst : W16
  groups : W32
  deriving DecidableEq, Repr

def IstoreRegs.reset : IstoreRegs := ⟨0, 0, 0, 0, 0⟩

/-- The bound physical core of an unlisted logical core: L (R98). -/
def remapDefault : Nat → BitVec 10 := fun l => BitVec.ofNat 10 l

structure CoreArray where
  phys : Store PhysCore
  logi : Store LogCore
  remap : Staged (Store (BitVec 10))
  /-- RETIRED of PHYS_STATE_p (R110). -/
  retired : Store Bool
  istore : Staged IstoreRegs
  /-- The copy in progress: the set it copies by, and the logical cores it writes (R118). -/
  copying : Option (IstoreRegs × List Nat)
  skipped : BitVec 9
  /-- ARRAY_STATUS [4:0] (R115). -/
  status : BitVec 5
  deriving DecidableEq, Repr

def CoreArray.reset : CoreArray where
  phys := []
  logi := []
  remap := Staged.reset []
  retired := []
  istore := Staged.reset IstoreRegs.reset
  copying := none
  skipped := 0
  status := 0

def physDefault : Nat → PhysCore := fun _ => PhysCore.reset
def logiDefault : Nat → LogCore := fun _ => LogCore.reset
def retiredDefault : Nat → Bool := fun _ => false

/-! ### Tally block (R358–R364) -/

/-- TALLY_XLAT_x_v (R359). -/
structure XlatEntry where
  valid : Bool
  phys : BitVec 6
  deriving DecidableEq, Repr

/-- An unlisted entry of a context: identifier v names word v (R359). -/
def xlatDefault : Nat → XlatEntry := fun v => ⟨true, BitVec.ofNat 6 v⟩

/-- TALLY_FORCE_TARGET and TALLY_FORCE_DATA (R360). -/
structure ForceRegs where
  tally : BitVec 6
  core : BitVec 9
  full : Bool
  count : W16
  deriving DecidableEq, Repr

/-- An entry of the forced-write log (R363). -/
structure ForceEntry where
  step : W48
  source : BitVec 2
  tally : BitVec 6
  core : BitVec 9
  oldCount : W16
  oldFull : Bool
  newFull : Bool
  newCount : W16
  deriving DecidableEq, Repr

/-- A register pair whose low half an accessor read last, and the captured high half (R364, R484, R589). -/
structure Capture where
  who : Accessor
  key : Nat
  high : W32
  deriving DecidableEq, Repr

/-- The staged set of a tally context with its default entries. -/
def xlatSetDefault : Nat → Staged (Store XlatEntry) := fun _ => Staged.reset []

structure TallyBlock where
  /-- The eight contexts' tables (R354). -/
  xlat : Store (Staged (Store XlatEntry))
  force : Staged ForceRegs
  /-- TALLY_STATUS [23:0] without LOG_FULL, which the log gives (R361). -/
  status : BitVec 24
  /-- At most 32 entries, oldest first (R355, R363). -/
  log : List ForceEntry
  captures : List Capture
  deriving DecidableEq, Repr

def TallyBlock.reset : TallyBlock where
  xlat := []
  force := Staged.reset ⟨0, 0, false, 0⟩
  status := 0
  log := []
  captures := []

/-! ### Numeric block (R215–R220) -/

structure NumBlock where
  regs : Staged NumRegs
  /-- NUM_STATUS: bit 1 UNASSIGNED_ACCESS, bit 0 STAGE_COLLISION (R220). -/
  status : BitVec 2
  deriving DecidableEq, Repr

def NumBlock.reset : NumBlock := ⟨Staged.reset NumRegs.reset, 0⟩

end Sys2Proof.Machine
end

