-- ==== Sys2Proof/Machine/StoreState.lean ====
section
/-!
DEFINITION. The state of the store controller (spec/19).
-/
namespace Sys2Proof.Machine

/-- A record that is durable (R597). `seg` is the journal segment or archive sector that holds it, counted from the first one ever
written. -/
structure Rec where
  kind : Byte
  key : W32
  seq : Nat
  format : W16
  payload : List Byte
  seg : Nat
  deriving DecidableEq, Repr

/-- What the store controller does once a record is durable or has failed. -/
inductive AfterRecord where
  | nothing
  /-- COMMIT of the store's register set reads 0 (R617). -/
  | append
  deriving DecidableEq, Repr

/-- A record the controller has still to write, or writes (R599, R608). -/
structure RecWrite where
  kind : Byte
  key : W32
  format : W16
  payload : List Byte
  after : AfterRecord
  deriving DecidableEq, Repr

/-- STORE_OP, STORE_INDEX and STORE_LEN (R619). -/
structure StoreRegs where
  op : BitVec 4
  kind : Byte
  key : W16
  index : W32
  len : BitVec 13
  deriving DecidableEq, Repr

/-- STORE_RESULT with STORE_SEQ (R621). -/
structure StoreResult where
  found : Bool
  len : BitVec 13
  format : W16
  seq : W64
  deriving DecidableEq, Repr

/-- The values a WEAR payload holds (R607). -/
structure Wear where
  seconds : Nat
  cycles : Nat
  trips : Nat
  erases : Store Nat
  compactions : Nat
  spent : Nat
  wasted : Nat
  deriving DecidableEq, Repr

/-- A ring of segments or sectors: the segment written now, the bytes used in it, and the oldest one not freed (R595, R601, R606). -/
structure Ringed where
  head : Nat
  used : Nat
  tail : Nat
  deriving DecidableEq, Repr

structure StoreBlock where
  /-- READY, FAILED and SIGN_BLOCKED of R620. -/
  ready : Bool
  failed : Bool
  signBlocked : Bool
  /-- STORE_STATUS [5:0] (R620). -/
  flags : BitVec 6
  /-- A power-down has started: no new record is accepted (R614). -/
  stopped : Bool
  /-- Durable records, oldest first: the current one of each KIND and KEY, and every history record kept. -/
  records : List Rec
  archive : List Rec
  nextSeq : Nat
  journal : Ringed
  archived : Ringed
  /-- Archive entries of the hour in progress, the tick it began, and the entries beyond the limit (R606). -/
  archCount : Nat
  archSince : W64
  archOver : Nat
  /-- The record in progress, its SEQ and its failed attempts (R599). -/
  writing : Option (RecWrite × Nat × Nat)
  queue : List RecWrite
  regs : Staged StoreRegs
  result : StoreResult
  buf : Memory
  count : Store W32
  wear : Wear
  deriving DecidableEq, Repr

def StoreBlock.reset : StoreBlock where
  ready := false
  failed := false
  signBlocked := false
  flags := 0
  stopped := false
  records := []
  archive := []
  nextSeq := 1
  journal := ⟨0, 0, 0⟩
  archived := ⟨0, 0, 0⟩
  archCount := 0
  archSince := 0
  archOver := 0
  writing := none
  queue := []
  regs := Staged.reset ⟨0, 0, 0, 0, 0⟩
  result := ⟨false, 0, 0, 0⟩
  buf := []
  count := []
  wear := ⟨0, 0, 0, [], 0, 0, 0⟩

end Sys2Proof.Machine
end

