-- ==== Sys2Proof/Machine/BootState.lean ====
section
/-!
DEFINITION. The state of boot, attestation and firmware update (spec/20).
-/
namespace Sys2Proof.Machine

/-- A component that runs: what its image's header says (R623) and the digest it was verified by. -/
structure RunImage where
  slot : Nat
  version : W32
  secVersion : Nat
  tundish : W32
  /-- SETTINGS_FORMAT of groups 0, 1 and 2. -/
  settings : List W16
  compat : W32
  digest : List Byte
  deriving DecidableEq, Repr

/-- An UPDATE_WRITE that runs (R634). `retried` says that the sector in progress has failed once. -/
structure UpdateRun where
  half : HalfIx
  qp : Nat
  tag : W32
  unavailable : BitVec 4
  slot : Nat
  imageOff : Nat
  data : List Byte
  retried : Bool
  deriving DecidableEq, Repr

/-- An activation (R635, R636). `stage` is ACT_STAGE of R647: 1 queued, 2 port die, 3 to 6 a crucible, 7 confirming. -/
structure Activation where
  stage : Nat
  step : W48
  /-- Ports that were Up before step 1, as 16 × crucible + port. -/
  ports : List Nat
  deriving DecidableEq, Repr

/-- SEC_STATUS MODE (R647). -/
inductive BootMode where
  | stable
  | trial
  | recovery
  deriving DecidableEq, Repr

structure Boot where
  /-- OTP, bytes 0 to 0xDF (R596). -/
  otp : List Byte
  /-- Firmware slots A and B (R595): a byte beyond the list reads 0xFF. -/
  slotA : List Byte
  slotB : List Byte
  mode : BootMode
  /-- The update policy in force (R629). -/
  policy : Bool
  /-- LAST_REASON as loaded (R647). -/
  lastReason : W16
  /-- The port-die component that runs. -/
  image : Option RunImage
  /-- LAST_REASON has been committed for the trial that SLOT_STATE shows (log 36). The model's own. -/
  reasonKept : Bool
  /-- Always-on ticks left in the trial period (R635). -/
  trial : Option Nat
  activation : Option Activation
  update : Option UpdateRun
  /-- The UPDATE_WRITE and ACTIVATE ROM service of recovery mode is up (R633). -/
  romUp : Bool
  nextLeaf : Nat
  klistIndex : W16
  unassigned : Bool
  count : Store W32
  /-- ID_SERIAL and ID_ROM_VERSION have been loaded (R646). -/
  loaded : Bool
  deriving DecidableEq, Repr

end Sys2Proof.Machine
end

