-- ==== Sys2Proof/Machine/HangState.lean ====
section
/-!
DEFINITION. The state of a crucible's watchdog (spec/17).
-/
namespace Sys2Proof.Machine

/-- The four windows, in milliseconds (R558). -/
structure HangWin where
  core : W16
  xfer : W16
  port : W16
  mc : W16
  deriving DecidableEq, Repr

/-- A hang declared, its record being written (R546, R547): CAUSE 1 STALL, 2 FORCED, 3 BOOT_TIMEOUT. -/
structure HangRun where
  cause : BitVec 2
  ticks : W64
  units : List StallUnit
  /-- Resets within the 600 s before, this one included. -/
  resets : Nat
  deriving DecidableEq, Repr

structure HangBlock where
  win : Staged HangWin
  /-- HANG_STATUS [3] WIN_COLLISION, [2] WIN_REJECTED, [0] UNASSIGNED_ACCESS (R560). -/
  status : BitVec 4
  lastCause : BitVec 2
  lastComplete : Bool
  booting : Bool
  seq : W32
  /-- HANG_RESET_SEC_i, newest first (R561). -/
  resetSec : List W32
  /-- HANG_PROG_MC (R562). -/
  progMc : W32
  run : Option HangRun
  deriving DecidableEq, Repr

def HangBlock.reset : HangBlock where
  win := Staged.reset ⟨100, 100, 100, 100⟩
  status := 0
  lastCause := 0
  lastComplete := false
  booting := false
  seq := 0
  resetSec := [0xFFFFFFFF, 0xFFFFFFFF, 0xFFFFFFFF]
  progMc := 0
  run := none

end Sys2Proof.Machine
end

