-- ==== Sys2Proof/Machine/HbmState.lean ====
section
/-!
DEFINITION. The state of a crucible's HBM controllers and regulators (spec/09).
-/
namespace Sys2Proof.Machine

/-- SHARE and CEIL by partition (R327). -/
structure HbmRegs where
  share : Store Byte
  ceil : Store Byte
  deriving DecidableEq, Repr

def shareDefault : Nat → Byte := fun _ => 0
def ceilDefault : Nat → Byte := fun _ => 0xFF

/-- HBM_PMAP_BASE_i, LIMIT_i and CTRL_i (R328). -/
structure PmapEntry where
  base : BitVec 20
  limit : BitVec 20
  enable : Bool
  part : BitVec 4
  sources : BitVec 5
  deriving DecidableEq, Repr

def pmapDefault : Nat → PmapEntry := fun _ => ⟨0, 0, false, 0, 0⟩

structure PmapRegs where
  entries : Store PmapEntry
  split : BitVec 9
  deriving DecidableEq, Repr

/-- STATE and RATE of HBM_STACK_STATUS_s (R331). -/
structure StackStatus where
  state : BitVec 2
  rate : BitVec 2
  deriving DecidableEq, Repr

/-- A lane repair of a stack (R316). -/
structure LaneRepair where
  stack : Fin 2
  channel : BitVec 5
  half : BitVec 1
  lane : BitVec 6
  rate : BitVec 2
  step : W48
  deriving DecidableEq, Repr

/-- A correction remembered for the erasure rule of R317: pseudo-channel and symbol as 36 q + symbol, and its always-on tick. -/
structure Correction where
  place : Nat
  tick : W64
  deriving DecidableEq, Repr

/-- What an access granted by a regulator does: a burst is read; the read of a merge, whose data the write that follows uses; bytes are
written (R308). -/
inductive HbmAct where
  | read (errors : BurstErrors)
  | merge
  | write (at_ : Nat) (data : List Byte) (errors : BurstErrors)
  deriving DecidableEq, Repr

/-- An access and the offset it starts at (R308, R322). -/
structure HbmAccess where
  src : HbmSource
  off : Nat
  act : HbmAct
  deriving DecidableEq, Repr

structure Hbm where
  /-- 64 GiB; an unlisted byte reads 0, the fill at power-on (R313). -/
  mem : Memory
  /-- Poisoned 32-byte units, by offset / 32 (R650). -/
  poison : Store Bool
  /-- Lanes taken as erasures, by 36 q + symbol (R317). -/
  erased : Store Bool
  fixes : List Correction
  repairs : List LaneRepair
  reg : Staged HbmRegs
  pmap : Staged PmapRegs
  /-- Slots granted in the window in progress and in the last one, by partition (R322, R329). -/
  used : Store Nat
  usedLast : Store (BitVec 17)
  /-- Accesses held by their partition's ceiling, in the order of arrival (R322). -/
  waiting : List HbmAccess
  /-- The partition last granted at each pseudo-channel's scheduler (R322). -/
  lastGrant : Store (BitVec 4)
  /-- HBM_STATUS [5:0] (R330). -/
  status : BitVec 6
  stack0 : StackStatus
  stack1 : StackStatus
  scrubInterval : W16
  /-- Next local address of the scrubber, by pseudo-channel (R318). -/
  scrubAt : Store Nat
  ce0 : W32
  ce1 : W32
  ue0 : W32
  ue1 : W32
  ueAddr : BitVec 36
  deriving DecidableEq, Repr

def falseStore : Nat → Bool := fun _ => false
def zeroNat : Nat → Nat := fun _ => 0
/-- The round robin begins with partition 0 (log 64). -/
def lastGrantDefault : Nat → BitVec 4 := fun _ => 15
def zero17 : Nat → BitVec 17 := fun _ => 0

def Hbm.reset : Hbm where
  mem := []
  poison := []
  erased := []
  fixes := []
  repairs := []
  reg := Staged.reset ⟨[], []⟩
  pmap := Staged.reset ⟨[], 500⟩
  used := []
  usedLast := []
  waiting := []
  lastGrant := []
  status := 0
  stack0 := ⟨0, 0⟩
  stack1 := ⟨0, 0⟩
  scrubInterval := 0x1000
  scrubAt := []
  ce0 := 0
  ce1 := 0
  ue0 := 0
  ue1 := 0
  ueAddr := 0

end Sys2Proof.Machine
end

