-- ==== Sys2Proof/Machine/PortState.lean ====
section
/-!
DEFINITION. The state of a Tchilu port (spec/11).
-/
namespace Sys2Proof.Machine

/-- The states of R370, by code. -/
inductive PortMode where
  | disabled
  | detect
  | exchange
  | train
  | check
  | up
  | down
  | keepAlive
  deriving DecidableEq, Repr

/-- FAB_MODE_n and FAB_LANES_n (R389, R390). -/
structure PortSet where
  required : Byte
  offered : Byte
  fec : BitVec 2
  widths : BitVec 5
  rates : BitVec 3
  minLanes : BitVec 5
  exclude : BitVec 17
  deriving DecidableEq, Repr

/-- The reset values of R389 and R390: ports 0 to 12, and the bridges 13 to 15. -/
def PortSet.reset (n : Nat) : PortSet :=
  if n < 13 then ⟨0x1D, 0x0F, 1, 0b01111, 0b111, 1, 0⟩ else ⟨0x0D, 0x0F, 1, 0b11111, 0b111, 1, 0⟩

/-- The control flit of an odd codeword: the flits freed on each virtual channel, and a link message (R367, R401). -/
structure ControlFlit where
  credits : List (BitVec 12)
  msg : LinkMsg
  deriving DecidableEq, Repr

/-- A codeword in the replay buffer (R376): its number, the lane it was dealt to (R368), and its message: ACK, SEQ_LOW, the control flit
of an odd one, its packet flits (R366). -/
structure TxCodeword where
  number : Nat
  lane : Nat
  ack : BitVec 12
  seqLow : BitVec 4
  control : Option ControlFlit
  flits : List (BitVec 512)
  deriving DecidableEq, Repr

/-- A packet at a port that waits for credit, on a virtual channel (R401, R403); `resend` marks a resend of R412. -/
structure CreditWait where
  vc : Nat
  packet : Packet
  resend : Bool
  deriving DecidableEq, Repr

/-- A codeword asked for again: its number, how often it was found bad, and the lane of its last copy (R377, R380). -/
structure Missing where
  number : Nat
  times : Nat
  lane : Nat
  deriving DecidableEq, Repr

/-- A change of the active lanes from codeword `at_` on: lane `lane` leaves, or joins, in place of a marginal lane if one is named
(R382). -/
structure LaneChange where
  at_ : Nat
  lane : Nat
  join : Bool
  out : Option Nat
  deriving DecidableEq, Repr

/-- A spare on its way in (R382): the spare, the lane it replaces if that is only marginal, and whether LANE_SWAP has been sent. -/
structure Swap where
  spare : Nat
  marginal : Option Nat
  sent : Bool
  deriving DecidableEq, Repr

structure Port where
  mode : PortMode
  cause : BitVec 4
  rate : BitVec 2
  fec : BitVec 2
  width : BitVec 5
  features : Byte
  active : BitVec 17
  spare : BitVec 5
  enable : Bool
  set : Staged PortSet
  /-- The set read at the last entry into Detect (R370). -/
  inUse : PortSet
  /-- Lanes on which Detect found signal. -/
  signal : BitVec 17
  /-- Check has restarted once (R374). -/
  checkRestarted : Bool
  /-- FAB_EVENT_n (R394). -/
  event : Byte
  partner : W64
  /-- FAB_COUNT_n_k (R395). -/
  count : Store W32
  /-- The back-off, in milliseconds (R384). -/
  backoff : Nat
  /-- Port codeword numbers: the next to send, the next new one expected (R368, R375). -/
  txNext : Nat
  rxNext : Nat
  replay : List TxCodeword
  /-- Flits of the packet entering the link that are in no codeword yet. -/
  txFlits : List (BitVec 512)
  /-- Codewords resent: each counts in the dealing as one extra codeword (R377). -/
  extra : Nat
  /-- Link messages that wait for a control flit (R367). -/
  msgs : List LinkMsg
  /-- Lane changes whose switch point has not passed (R382). -/
  changes : List LaneChange
  /-- Codewords sent that the lanes' time has not yet made room for, and the time into the current codeword, in 1/17 of its length at 224
  Gbit/s (R365, R366). -/
  owed : Nat
  phase : Nat
  /-- The module is entering Banked: no packet is taken any more (R386). -/
  closing : Bool
  /-- The switch points of the KEEP_ALIVE sent and of the one received. -/
  keepSent : Option Nat
  keepHeard : Option Nat
  /-- Codewords asked for again, oldest first. -/
  bad : List Missing
  /-- Good codewords that wait for one before them, by number (R375). -/
  rxHeld : List (Nat × Codeword)
  /-- Bad codewords of the last millisecond: lane, and tick (R381). -/
  badTimes : List (Nat × W64)
  swap : Option Swap
  /-- Credit held, by virtual channel (R401). -/
  credit : Store Nat
  /-- Flits freed and not yet returned, by virtual channel. -/
  freed : Store Nat
  waits : List CreditWait
  /-- The virtual channel served last (R402). -/
  served : Nat
  /-- HANG_PROG_PORT_n (R562). -/
  prog : W32
  deriving DecidableEq, Repr

/-- A port at reset (R389–R395). STATE reads 0, Disabled, until power-up or the crucible's reset puts the port in Detect (R370). -/
def Port.reset (n : Nat) : Port where
  mode := .disabled
  cause := 0
  rate := 3
  fec := 3
  width := 0
  features := 0
  active := 0
  spare := 0x1F
  enable := true
  set := Staged.reset (PortSet.reset n)
  inUse := PortSet.reset n
  signal := 0
  checkRestarted := false
  event := 0
  partner := 0
  count := []
  backoff := 1
  txNext := 0
  rxNext := 0
  replay := []
  txFlits := []
  extra := 0
  msgs := []
  changes := []
  owed := 0
  phase := 0
  closing := false
  keepSent := none
  keepHeard := none
  bad := []
  rxHeld := []
  badTimes := []
  swap := none
  credit := []
  freed := []
  waits := []
  served := 0
  prog := 0

end Sys2Proof.Machine
end

