-- ==== Sys2Proof/Machine/HostState.lean ====
section
/-!
DEFINITION. The state of the host ports and the command engine (spec/13), and what the module sends.
-/
namespace Sys2Proof.Machine

/-- What a queue pair serves (R441, R456). -/
inductive QpKind where
  | command
  | data
  /-- Of the connection to a storage target: its admin queue (0) or one of its I/O queues (1 to 4). -/
  | storage (target queue : Nat)
  deriving DecidableEq, Repr

/-- A queue pair (R439–R441). Rates are in Mbit/s. -/
structure Qp where
  num : Nat
  kind : QpKind
  error : Bool
  rate : Nat
  /-- Ticks at which the rate was last halved (R439) and the last CNP was sent. -/
  cutAt : Option W64
  cnpAt : Option W64
  /-- Retries and RNR retries of the oldest unacknowledged operation, and the counts connection management settled; an RNR count of 7
  is unlimited (R440, R444). -/
  retries : Nat
  rnrRetries : Nat
  retryLimit : Nat
  rnrLimit : Nat
  /-- The path MTU that connection management settled (R440). -/
  mtu : Nat
  deriving DecidableEq, Repr

/-- An event (R450). -/
structure Event where
  code : W16
  seq : W32
  crucible : Byte
  step : W48
  body : List Byte
  deriving DecidableEq, Repr

/-! ### What a half sends -/

/-- How the module answers an RDMA operation (R442, R443, R454). -/
inductive RdmaReply where
  | ack
  | data (bytes : List Byte)
  | rnrNak
  | remoteAccessNak
  | remoteOpNak
  | invalidRequestNak
  deriving DecidableEq, Repr

/-- The steps of a connection to a storage target, and the admin commands they use (R441, R456, R457). -/
inductive AdminStep where
  /-- A connection request for queue `queue`, 0 the admin queue. -/
  | request (queue : Nat)
  /-- Fabrics Connect on that queue, with the host NQN; KATO is 0. -/
  | connect (queue : Nat) (hostNqn : List Byte)
  /-- Property Set of CC, and Property Get of CSTS. -/
  | enable
  | status
  /-- Identify with CNS 0x01, of the controller, and 0x00, of the namespace. -/
  | identify (cns : Byte)
  deriving DecidableEq, Repr

/-- A message that a half sends. -/
inductive EthMsg where
  /-- A response to a host command (R446). -/
  | response (qp : Nat) (opcode : W16) (status : W16) (tag : W32) (detail : W32) (unavailable : BitVec 4) (body : List Byte)
  | event (qp : Nat) (e : Event)
  | ringEntry (qp : Nat) (addr : Nat) (rkey : W32) (imm : W32) (data : List Byte)
  | rdmaReply (qp : Nat) (r : RdmaReply)
  /-- A connection management answer: REP with the new queue pair's number, or REJ. -/
  | cmRep (qpn : Nat)
  | cmRej
  | cnp (qp : Nat)
  | arpReply (addr : W32)
  | neighbourAdvert (addr : W128)
  | echoReply (data : List Byte)
  /-- An unacknowledged operation sent again (R440). -/
  | roceResend (qp : Nat)
  /-- A step of the connection to a storage target. -/
  | admin (target : Nat) (step : AdminStep)
  /-- NVMe command `num` on an I/O queue (R456): 0 Flush, 1 Write, 2 Read, of `blocks` blocks from `lba`. -/
  | nvme (target queue num : Nat) (op : Byte) (lba : Nat) (blocks : Nat)
  /-- Data that a target fetches for a Write. -/
  | nvmeData (target : Nat) (data : List Byte)
  deriving DecidableEq, Repr

/-- The kinds of traffic that R438 names. -/
inductive Traffic where
  | command
  | data
  | storage
  deriving DecidableEq, Repr

/-- The marks of a message's frames: the tag's VLAN identifier (R436), the priority and the DSCP, none for traffic R438 gives none, and
ECT(0) (R439). -/
structure SentMark where
  vid : Option (BitVec 12)
  pcp : Option (BitVec 3)
  dscp : Option (BitVec 6)
  ect0 : Bool
  deriving DecidableEq, Repr

/-- A message with its marks, and the number of its frames. -/
structure Outgoing where
  mark : SentMark
  frames : Nat
  msg : EthMsg
  deriving DecidableEq, Repr

/-- IP settings in force at a half (R437): each address if set, and the prefixes commands are accepted from. -/
structure NetSettings where
  ipv4 : Option W32
  ipv6 : Option W128
  /-- Family 4 or 6, prefix length, address bits. -/
  prefixes : List (Nat × Nat × W128)
  deriving DecidableEq, Repr

structure Half where
  /-- The half has not failed (R37). -/
  alive : Bool
  linkUp : Bool
  paused : Byte
  qps : List Qp
  /-- ETH_STATUS [1] CONFIG_REJECTED, [0] UNASSIGNED_ACCESS (R461). -/
  ethFlags : BitVec 2
  /-- ETH_VLAN: TAGGED and VID (R462). -/
  tagged : Bool
  vid : BitVec 12
  /-- ETH_TRAFFIC_CLASS: PFC_ENABLE and [8:0] (R462). -/
  pfcEnable : Byte
  pcps : BitVec 9
  ethCount : Store W32
  /-- CMD_STATUS [2] EVENTS_LOST, [0] UNASSIGNED_ACCESS (R463). -/
  cmdFlags : BitVec 3
  cmdCount : Store W32
  eventQp : Option Nat
  eventMask : W64
  /-- Events that wait for the queue pair, oldest first, at most 1,024 (R449). -/
  eventQueue : List Event
  /-- The event queue pair meets RNR NAKs, so events wait. -/
  eventBlocked : Bool
  /-- Events dropped and not yet reported (R449). -/
  lost : Nat
  net : NetSettings
  /-- Messages that wait for their priority, which the partner has paused, oldest first (R438). -/
  waits : List Outgoing
  deriving DecidableEq, Repr

def Half.reset : Half where
  alive := true
  linkUp := false
  paused := 0
  qps := []
  ethFlags := 0
  tagged := false
  vid := 0
  pfcEnable := 0x0C
  pcps := 0x09E
  ethCount := []
  cmdFlags := 0
  cmdCount := []
  eventQp := none
  eventMask := 0
  eventQueue := []
  eventBlocked := false
  lost := 0
  net := ⟨none, none, []⟩
  waits := []

/-- A window (R451). ACCESS bit 0 remote read, bit 1 remote write. -/
structure Window where
  id : W32
  rkey : W32
  cru : Cru
  access : BitVec 2
  off : Nat
  len : Nat
  ring : Option Nat
  deriving DecidableEq, Repr

/-- A ring (R452–R455). -/
structure Ring where
  num : Nat
  output : Bool
  half : HalfIx
  slots : Nat
  slotBytes : Nat
  perStep : Nat
  qpn : Nat
  remote : Nat
  rkey : W32
  /-- Steps that were running at the definition and are not checked yet, and the steps run after it that have been checked (R454). -/
  before : Nat
  stepsRun : Nat
  /-- FREED of an input ring, HOST_FREED of an output ring. -/
  freed : Nat
  /-- Input: sequences announced at or above FREED. Output: sequences of checked steps not yet sent, oldest first. -/
  seqs : List Nat
  /-- HBM offset of the slots in region 6 once a placement gives it (R452). -/
  base : Option Nat
  deriving DecidableEq, Repr

/-- A command that has not been answered yet. -/
inductive RunKind where
  /-- Crucibles whose commit point is awaited, those that rejected, and what the command sets (R446): EPOCH, and JOB_TAG. -/
  | jobSet (waiting : BitVec 4) (rejected : BitVec 4) (epoch : W16) (jobTag : Option W16)
  | graph
  deriving DecidableEq, Repr

structure Running where
  half : HalfIx
  qp : Nat
  opcode : W16
  tag : W32
  unavailable : BitVec 4
  kind : RunKind
  deriving DecidableEq, Repr

/-- A connected storage target (R457). -/
structure Target where
  num : Nat
  family : Byte
  port : W16
  addr : W128
  nsid : W32
  nqn : List Byte
  blocks : Nat
  deriving DecidableEq, Repr

/-- What a signal of the library's programs tells (R244, R245, R262, R421). `kernel` is 0 for the forward pass of attention, 1 for its
query kernel and 2 for its key kernel; `area` is 0 for the running sums that come from the rank before, 1 for the results of the own
shard, 2 for those of the twin's. -/
inductive Announce where
  | tile (batch : Nat) (back : Bool) (tensor tile : Nat)
  | block (batch op kernel block : Nat)
  | ringSlot (batch op kernel slot : Nat)
  | chunks (area : Nat) (chunks : List Nat)
  | chunkSlot (area slot : Nat)
  deriving DecidableEq, Repr

/-- Where a collective's write goes: to a rank, or by xcast.mod to the modules of a mask in a block of 64 (R423). -/
inductive CollDest where
  | rank (m : Nat)
  | cast (block mask : Nat)
  deriving DecidableEq, Repr

/-- Class codes of the requests and of the collective (R397). -/
def requestClass : Nat := 1
def collectiveClass : Nat := 3

/-- What the module has sent, or done at its boundary. -/
inductive Out where
  /-- A fabric packet leaves crucible `c` by port `n` on virtual channel `vc`. -/
  | packet (c : Cru) (n : PortIx) (vc : Nat) (p : Packet)
  /-- The data of an HBM read, and the mark that they are poisoned (R318). -/
  | hbmData (c : Cru) (src : HbmSource) (off : Nat) (data : List Byte) (poisoned : Bool)
  | exchangePage (c : Cru) (n : PortIx) (page : W64)
  /-- A link message goes into the control flits, with the codeword number of its switch point (R367). -/
  | linkMsg (c : Cru) (n : PortIx) (type : Byte) (lane : Byte) (switchPoint : BitVec 12)
  /-- A retry request, on a lane's reverse direction (R377). -/
  | retryRequest (c : Cru) (n : PortIx) (lane : Nat) (number : BitVec 12)
  /-- A codeword of the replay buffer is sent again, on a lane. -/
  | resentCodeword (c : Cru) (n : PortIx) (lane : Nat) (w : TxCodeword)
  | resumeSet (c : Cru) (n : PortIx)
  /-- A tile of an activation, or of its gradient, goes to a module of another stage in one transfer (R262). -/
  | stageTile (cls dest batch : Nat) (back : Bool) (tensor tile : Nat) (words : List W32)
  /-- A block of an attention operator goes by xcopy.2d into a ring slot of the same crucible of another rank (R244, R249). -/
  | ringBlock (cls dest : Nat) (c : Cru) (batch op kernel block slot : Nat) (data : List Byte)
  /-- Chunk `chunk` of a crucible's shard, in one write with AUX = `chunk`, into a slot of the receive area (R421–R423). -/
  | sumChunk (cls : Nat) (dest : CollDest) (c : Cru) (chunk slot : Nat) (data : List Byte)
  /-- After a fence, xtly.signal of a word of a program of crucible `c` of a module. -/
  | announce (dest : Nat) (c : Cru) (a : Announce)
  /-- A half sends a message. -/
  | eth (h : HalfIx) (mark : SentMark) (m : EthMsg)
  /-- Bytes answered on PMBus, and a NACK (R573). -/
  | pmbus (bytes : List Byte)
  | pmbusNack (code : Byte)
  deriving DecidableEq, Repr

end Sys2Proof.Machine
end

