-- ==== Sys2Proof/Machine/StepState.lean ====
section
/-!
DEFINITION. The state of training steps, placement, risers and takeover (spec/07, spec/08, spec/15).
-/
namespace Sys2Proof.Machine

/-- An entry of the health map (R285): STATE 0 absent, 1 active, 2 spare. -/
structure HealthEntry where
  module_ : Nat
  state : Byte
  twin : Nat
  deriving DecidableEq, Repr

structure HealthMap where
  gen : W32
  entries : List HealthEntry
  deriving DecidableEq, Repr

/-- A registered kernel (R298). -/
structure Kernel where
  code : W16
  image : List Byte
  backward : W16
  cores : Nat
  tallies : Nat
  scratch : Nat
  enqueues : Nat
  cycles : Nat
  hbmRead : Nat
  hbmWrite : Nat
  partition : Byte
  deriving DecidableEq, Repr

/-- A hint record. -/
structure Hint where
  kind : Nat
  binding : Nat
  target : Nat
  v0 : Nat
  v1 : Nat
  deriving DecidableEq, Repr

/-- A tally word that a placement's program uses: its CAPACITY, VALUE and agents are fixed with it (R346, R347). -/
structure TallyUse where
  cru : Nat
  core : Nat
  word : Nat
  capacity : Nat
  value : W32
  held : Nat
  /-- What signals the word: module and global logical core. -/
  agents : List (Nat × Nat)
  deriving DecidableEq, Repr

/-- What a module keeps of the placement it holds (R276, R289, R292, R301). -/
structure Placement where
  digest : List Byte
  /-- The body it was made from. -/
  body : List Byte
  healthGen : W32
  stages : Nat
  replicas : Nat
  group : Nat
  stage : Nat
  training : Bool
  /-- Groups of the own shard and of the twin's, held by crucibles 0 to 3 in turn (R289). -/
  ownGroups : List Nat
  twinGroups : List Nat
  /-- The active modules, the job's order A (R286). -/
  active : List Nat
  microBatches : Nat
  /-- The codes of user kernels that the job uses, those of backward kernels among them (R298). -/
  kernels : List W16
  /-- The first operator of each stage (R290). -/
  starts : List Nat
  /-- Side-by-side mode, and P (0 in alternating mode) (R259, R291). -/
  side : Bool
  cores : Nat
  /-- The hints in force (R297). -/
  hints : List Hint
  /-- The tally words of this module's programs (R347). -/
  tallies : List TallyUse
  /-- The code of the user kernels it loads (R298, R299). -/
  images : List (List Byte)
  /-- The active modules with their twins, and this module's position among them (R285, R286). -/
  pairs : List (Nat × Nat)
  pos : Nat
  /-- The sizes of the eight regions of each crucible (R292). -/
  sizes : List (List Nat)
  /-- U (R275). -/
  padTarget : Nat
  /-- The rings the body names, in rising number (R292). -/
  rings : List Nat
  deriving DecidableEq, Repr

/-- A SUBMIT_GRAPH that runs (R304). -/
structure GraphRun where
  half : HalfIx
  qp : Nat
  tag : W32
  body : List Byte
  reportCru : Cru
  reportOff : Nat
  /-- The active modules with their twins at submission (R285). -/
  act : List (Nat × Nat)
  /-- The cause and DETAIL found by the checks that read only the body (R284); 0 when they pass. -/
  status : Byte
  detail : W32
  deriving DecidableEq, Repr

/-- A queued STEP command (R448). -/
structure StepCmd where
  first : Nat
  count : Nat
  eta : W32
  deriving DecidableEq, Repr

/-- A pass of one micro-batch (R260). -/
structure Pass where
  back : Bool
  batch : Nat
  deriving DecidableEq, Repr

/-- A tensor that a stage holds of a micro-batch: its rows, each element as the FP32 word of its value, or, left by tiling B, its columns,
which its consumer reads with TRANSPOSE (R174, R263, R264). Where in regions 7 and 8 it stands is Tundish's own (log 131). -/
structure HeldTensor where
  batch : Nat
  tensor : Nat
  rows : List (List W32)
  transposed : Bool
  deriving DecidableEq, Repr

/-- Row statistics that a stage holds of a micro-batch: (m, l), or (μ, r), by head and row (R230, R232, R263). -/
structure HeldStats where
  batch : Nat
  op : Nat
  rows : List (List (W32 × W32))
  deriving DecidableEq, Repr

/-- A backward pass that has begun: its segments to come, the operators left of the one in hand, both in the order they are taken, the
recomputed outputs and statistics of that segment, and the gradients formed so far (R264). -/
structure BackRun where
  batch : Nat
  segs : List (List Nat)
  ops : List Nat
  held : List HeldTensor
  stats : List HeldStats
  grads : List HeldTensor
  deriving DecidableEq, Repr

/-- A chunk of a reduced gradient that a copy has received: of the own shard or of the twin's, its crucible and number, and its bytes in
the gradient format (R421, R423). -/
structure ReducedChunk where
  own : Bool
  cru : Nat
  chunk : Nat
  data : List Byte
  deriving DecidableEq, Repr

/-- STATE of RES_STEP_HI (R516). -/
inductive StepMode where
  | idle
  | running
  | replaying
  | held
  | fenced
  deriving DecidableEq, Repr

/-- The phase a step has reached on this module (R253). -/
inductive StepPhase where
  | waiting
  | compute
  /-- Phase 1 has ended; what is left of phase 2 goes on. -/
  | reduce
  | update
  | check
  /-- Phase 4 has ended: reported, waiting to be checked. -/
  | reported
  deriving DecidableEq, Repr

/-- A report or DRAINED received from a child (R497, R501). -/
structure ChildReport where
  from_ : Nat
  step : W48
  gen : W16
  covered : Nat
  deriving DecidableEq, Repr

/-- The sillage comparison of the oldest step (R480): whether its digest is formed and its records are awaited. -/
inductive SillageStage where
  | idle
  | comparing
  | done
  deriving DecidableEq, Repr

/-- A replay barrier in progress (R500): the step, its new GEN, HOLD, and whether step 7 has been reached. -/
structure Barrier where
  step : W48
  gen : W16
  hold : Bool
  /-- Phase 3 of the step had begun: Written units are copied back (R500 step 4). -/
  restore : Bool
  /-- Steps 2 to 6 are done on this module. -/
  drained : Bool
  /-- Entered by an epoch change (R508), so it ends in Held without DRAINED. -/
  epoch : Bool
  deriving DecidableEq, Repr

/-- A takeover in progress (R505). -/
structure Takeover where
  lost : Nat
  twin : Nat
  deriving DecidableEq, Repr

structure Steps where
  mode : StepMode
  /-- The oldest unchecked step and its GEN (R516), and the GEN of the step after it. -/
  oldest : W48
  gen : W16
  genNext : W16
  checked : W48
  checkedValid : Bool
  /-- `checked` is a step that has been checked (R521), whatever job set has been committed since. -/
  everChecked : Bool
  /-- STEP commands with an unchecked step, oldest first. -/
  queue : List StepCmd
  /-- The next step to start, and the steps queued up to but not including this one. -/
  next : Nat
  queuedEnd : Nat
  /-- No step has been queued or run since the job set was committed with ACTIVE 1 (R448). -/
  firstOpen : Bool
  /-- A FIRST that a restore fixes (R540). -/
  firstFixed : Option Nat
  /-- The phases of the oldest unchecked step and of the step after it (R253, R254). -/
  phase : StepPhase
  phaseNext : StepPhase
  /-- Weight tiles whose gradient is final in those two steps (R255). -/
  finalTiles : List Nat
  finalNext : List Nat
  /-- The passes that the step in its compute phase has still to end, in the order of R260, and what it holds. -/
  passes : List Pass
  held : List HeldTensor
  heldStats : List HeldStats
  /-- The backward pass that has begun and not ended. -/
  back : Option BackRun
  /-- Chunks of the own shard that this module has sent in that step, by crucible and number; chunks of reduced gradients received. -/
  sentChunks : List (Nat × Nat)
  reduced : List ReducedChunk
  /-- Sums of the finished blocks of split gradient chains, by own-shard parameter (R257). -/
  blockSums : Store W32
  /-- Numbers the runs of jobs, so that what arrives from outside is free in each. The model's own (log 131). -/
  runId : Nat
  /-- The step factors a, c, k, q1 and q2 of the update in progress (R271). -/
  factors : List W32
  /-- This module has reported those two steps faulty, under their current GEN (R495). -/
  faulty : Bool
  faultyNext : Bool
  /-- This module's own report of the oldest step is clean; its subtree's has gone up. -/
  ownClean : Bool
  sentClean : Bool
  sillage : SillageStage
  /-- The oldest step's sillage has failed, so that its replay compares again (R480). -/
  sillageAgain : Bool
  children : List ChildReport
  drained : List ChildReport
  /-- Faulty reports passed on, by step and GEN (R497). -/
  forwarded : List (W48 × W16)
  barrier : Option Barrier
  takeover : Option Takeover
  deriving DecidableEq, Repr

def Steps.reset : Steps where
  mode := .idle
  oldest := 0
  gen := 0
  genNext := 0
  checked := 0
  checkedValid := false
  everChecked := false
  queue := []
  next := 0
  queuedEnd := 0
  firstOpen := true
  firstFixed := none
  phase := .waiting
  phaseNext := .waiting
  finalTiles := []
  finalNext := []
  passes := []
  held := []
  heldStats := []
  back := none
  sentChunks := []
  reduced := []
  blockSums := []
  runId := 0
  factors := []
  faulty := false
  faultyNext := false
  ownClean := false
  sentClean := false
  sillage := .idle
  sillageAgain := false
  children := []
  drained := []
  forwarded := []
  barrier := none
  takeover := none

/-- The states of a tracked unit (R491). -/
inductive UnitState where
  | uncopied
  | copying
  | copied
  | written
  deriving DecidableEq, Repr

/-- A crucible's riser (R489–R493): its tracked units are numbered in the order of R478. An unlisted unit is Uncopied. -/
structure Riser where
  /-- Groups of the own and of the twin's shard on this crucible: the geometry of regions 2 and 3 (R289, R292). -/
  own : Nat
  twin : Nat
  armed : Bool
  step : W48
  units : Store UnitState
  /-- A release that waits for an ingot (R493). -/
  ingotHold : Bool
  stalls : W32
  replays : W32
  deriving DecidableEq, Repr

def unitDefault : Nat → UnitState := fun _ => .uncopied

def Riser.reset : Riser := ⟨0, 0, false, 0, [], false, 0, 0⟩

end Sys2Proof.Machine
end

