-- ==== Sys2Proof/Machine/IngotState.lean ====
section
/-!
DEFINITION. The state of an ingot or a restore in progress (spec/16).
-/
namespace Sys2Proof.Machine

/-- A lease, or a manifest slot named for a restore (R525, R535). -/
structure Lease where
  target : Nat
  blocks : Nat
  lba : Nat
  deriving DecidableEq, Repr

/-- An extent (R527, R530). -/
structure Extent where
  target : Nat
  cru : Cru
  kind : Byte
  blocks : Nat
  lba : Nat
  first : Nat
  count : Nat
  /-- Bytes of the extent, and its CRC once it has been read (R524). -/
  bytes : Nat
  crc : Option W64
  issued : Bool
  done : Bool
  /-- The extent's index within its ingot, which chooses the half (R458). -/
  index : Nat
  deriving DecidableEq, Repr

/-- The steps of R529. -/
inductive IngotStage where
  | waiting
  | extents
  | flush
  | manifest
  | manifestFlush
  deriving DecidableEq, Repr

/-- What an NVMe command in flight is for (R458, R529, R538). -/
inductive NvmeUse where
  | extent (i : Nat)
  | flush
  | manifest (i : Nat)
  | manifestFlush
  | readManifest (i : Nat)
  | readExtent (i : Nat)
  deriving DecidableEq, Repr

structure NvmeCmd where
  num : Nat
  half : HalfIx
  target : Nat
  /-- The I/O queue it was issued on. -/
  queue : Nat
  use : NvmeUse
  deriving DecidableEq, Repr

structure IngotRun where
  step : W48
  /-- The placement whose shard is written. -/
  place : Placement
  flags : W16
  seq : W64
  manifestTarget : Nat
  manifestLba : Nat
  manifestBlocks : Nat
  extents : List Extent
  stage : IngotStage
  cmds : List NvmeCmd
  /-- An NVMe failure has been met: target and status (R459, R532). -/
  failed : Option (Byte × W16)
  deriving DecidableEq, Repr

/-- A manifest as read (R530). -/
structure ManifestRead where
  slot : Nat
  bytes : List Byte
  deriving DecidableEq, Repr

structure RestoreRun where
  step : W48
  frozenOnly : Bool
  seq : W64
  /-- The graph body that fixes the new shape (R536, R537). -/
  body : List Byte
  slots : List Lease
  /-- Manifests read so far; the last one may be read in part. -/
  manifests : List ManifestRead
  /-- Extents to be read, each with the number of its manifest. -/
  extents : List (Nat × Extent)
  /-- Extents read so far, by number. -/
  data : List (Nat × List Byte)
  cmds : List NvmeCmd
  failed : Option (Byte × W16)
  deriving DecidableEq, Repr

end Sys2Proof.Machine
end

