-- ==== Sys2Proof/Machine/PowerState.lean ====
section
/-!
DEFINITION. The state of power, clocks and the sideband pins (spec/18).
-/
namespace Sys2Proof.Machine

/-- The states of R565, by code. -/
inductive PowerMode where
  | standby
  | poweringUp
  | on
  | enteringBanked
  | banked
  | waking
  | poweringDown
  deriving DecidableEq, Repr

/-- STATE of PWR_SEQ_STATUS (R565, R590). -/
def PowerMode.code : PowerMode → BitVec 3
  | .standby => 0
  | .poweringUp => 1
  | .on => 2
  | .enteringBanked => 3
  | .banked => 4
  | .waking => 5
  | .poweringDown => 6

/-- The port die's power sequencer and the pins (R565–R574, R585, R590–R593). -/
structure Power where
  mode : PowerMode
  /-- The rails are down and the input condition of R565 for standby has still to be met. -/
  off : Bool
  lastDown : BitVec 3
  slotId : BitVec 6
  /-- PWR_SEQ_STATUS [1] CONFIG_REJECTED, [0] UNASSIGNED_ACCESS (R590). -/
  flags : BitVec 2
  vin : W16
  iin : W16
  avg : BitVec 12
  sample : BitVec 12
  limit : BitVec 12
  /-- PWR_EVENT [5:0] (R593). -/
  event : BitVec 6
  tempPd : BitVec 10
  /-- Samples of the last 10 ms in µW, newest first, at most 1,000 (R572). -/
  samples : List Nat
  /-- The power level of R572 and the ticks of its last rise and fall. -/
  level : BitVec 3
  roseAt : Option W64
  fellAt : Option W64
  /-- Always-on ticks of the port die (R575). -/
  aon : W64
  /-- PWR_EN is high. -/
  pwrEn : Bool
  /-- A thermal trip holds the module in standby until PWR_EN has been low for 10 ms (R571). -/
  tripped : Bool
  /-- CML, VIN_UV and VOUT_OV of STATUS_WORD (R573, log 44). -/
  cml : Bool
  uv : Bool
  ov : Bool
  /-- The BANK command answered once Banked holds (R579): its half, queue pair and TAG. -/
  bankCmd : Option (HalfIx × Nat × W32)
  /-- A wake asked for while Banked was being entered (R582), and the WAKE commands answered at its end. -/
  wakeDue : Bool
  wakeCmds : List (HalfIx × Nat × W32)
  deriving DecidableEq, Repr

def Power.reset : Power where
  mode := .standby
  off := true
  lastDown := 0
  slotId := 0
  flags := 0
  vin := 0
  iin := 0
  avg := 0
  sample := 0
  limit := 2200
  event := 0
  tempPd := 0
  samples := []
  level := 0
  roseAt := none
  fellAt := none
  aon := 0
  pwrEn := false
  tripped := false
  cml := false
  uv := false
  ov := false
  bankCmd := none
  wakeDue := false
  wakeCmds := []

/-- A crucible's power and clock block (R587–R589). -/
structure PowerBlock where
  /-- PWR_STATUS [0] (R587). -/
  unassigned : Bool
  coreLock : Bool
  hbmLock : Bool
  serdesLock : Bool
  /-- The thermal level that the hot spot has raised, and whether a stack holds it at 4 (R571). -/
  dieLevel : BitVec 3
  hbmHot : Bool
  die : BitVec 10
  hbm0 : BitVec 10
  hbm1 : BitVec 10
  aon : W64
  throttleMs : W32
  /-- Ticks at a non-zero level not yet counted as a millisecond (R589). -/
  throttleTicks : Nat
  captures : List Capture
  deriving DecidableEq, Repr

def PowerBlock.reset : PowerBlock where
  unassigned := false
  coreLock := false
  hbmLock := false
  serdesLock := false
  dieLevel := 0
  hbmHot := false
  die := 0
  hbm0 := 0
  hbm1 := 0
  aon := 0
  throttleMs := 0
  throttleTicks := 0
  captures := []

end Sys2Proof.Machine
end

