-- ==== Sys2Proof/Machine/ResState.lean ====
section
/-!
DEFINITION. The state of a crucible's resilience block (spec/14, R482–R488).
-/
namespace Sys2Proof.Machine

/-- A fault record (R482). -/
structure FaultRec where
  step : W48
  type : BitVec 4
  unit : BitVec 4
  phys : BitVec 10
  logical : BitVec 9
  seq : W32
  deriving DecidableEq, Repr

/-- A nose round in progress on a crucible (R474–R477). -/
inductive NoseRound where
  | idle
  | running (seed : W64)
  /-- Implicated cores run the suite once more; the reference is known. -/
  | again (reference : W64) (cores : List Nat)
  deriving DecidableEq, Repr

structure ResBlock where
  noseInterval : BitVec 11
  sillageInterval : BitVec 11
  seed : Staged W64
  /-- RES_STATUS [5] RECORD_OVERRUN, [4] CONFIG_REJECTED, [3] NOSE_COLLISION, [0] UNASSIGNED_ACCESS; the other bits are read from
  the state they report (R486). -/
  status : BitVec 6
  noseRequested : Bool
  nose : NoseRound
  /-- At most 64 records, oldest first (R482). -/
  records : List FaultRec
  /-- RES_PHYS_TOTAL_p (R484). -/
  physTotal : Store W16
  digestOwn : List Byte
  digestTwin : List Byte
  sillageStep : W48
  sillageResult : BitVec 2
  captures : List Capture
  deriving DecidableEq, Repr

def zero16 : Nat → W16 := fun _ => 0

def ResBlock.reset : ResBlock where
  noseInterval := 100
  sillageInterval := 64
  seed := Staged.reset 0
  status := 0
  noseRequested := false
  nose := .idle
  records := []
  physTotal := []
  digestOwn := List.replicate 32 0
  digestTwin := List.replicate 32 0
  sillageStep := 0
  sillageResult := 0
  captures := []

/-- A record appended to the ring; a full ring drops it and sets RECORD_OVERRUN (R482). -/
def ResBlock.append (r : ResBlock) (x : FaultRec) : ResBlock :=
  if r.records.length < 64 then { r with records := r.records ++ [x] }
  else { r with status := r.status ||| 0x20 }

end Sys2Proof.Machine
end

