-- ==== Sys2Proof/Machine/XportState.lean ====
section
/-!
DEFINITION. The state of a crucible's transport layer (spec/12).
-/
namespace Sys2Proof.Machine

/-- FAB_MTABLE_i (R429). -/
structure ModEntry where
  valid : Bool
  rack : BitVec 10
  slot : BitVec 6
  deriving DecidableEq, Repr

def modDefault : Nat → ModEntry := fun _ => ⟨false, 0, 0⟩

/-- The job set (R429). -/
structure JobSet where
  table : Store ModEntry
  tag : W16
  epoch : W16
  active : Bool
  rack : BitVec 10
  slot : BitVec 6
  self : BitVec 12
  deriving DecidableEq, Repr

def JobSet.reset : JobSet := ⟨[], 0, 0, false, 0, 0, 0⟩

structure XrackRegs where
  rate : BitVec 12
  burst : W16
  deriving DecidableEq, Repr

/-- FAB_E2E (R432). -/
structure E2eRegs where
  retries : Byte
  window : BitVec 9
  timeout : Byte
  deriving DecidableEq, Repr

/-- A response kept for duplicates (R413). -/
structure Applied where
  psn : W32
  status : Byte
  core : BitVec 12
  deriving DecidableEq, Repr

/-- One connection's two ends (R409): NEXT_PSN as sender, EXPECTED and the recorded STATUSes as receiver. -/
structure Conn where
  nextPsn : W32
  expected : W32
  applied : List Applied
  deriving DecidableEq, Repr

def Conn.reset : Conn := ⟨0, 0, []⟩
def connDefault : Nat → Conn := fun _ => Conn.reset

/-- The transfer a packet belongs to: its core, and the step and sequence number of its instruction (R412). -/
structure Owner where
  core : Nat
  step : W48
  seq : W32
  deriving DecidableEq, Repr

/-- Where the data of a READ goes: a piece of its transfer's destination (R414). -/
inductive Landing where
  | piece (dst : Side)
  | none
  deriving DecidableEq, Repr

/-- A request packet of this crucible, waiting at injection or unresolved (R405, R410, R411). -/
structure Pkt where
  num : Nat
  owner : Option Owner
  kind : Byte
  col : Bool
  /-- Logical module it goes to; of a MODMASK packet, any module of the rack. -/
  dest : Nat
  destCru : Cru
  dstRack : BitVec 10
  dstSlot : BitVec 6
  aux : W32
  addr : W64
  coremask : Option W128
  /-- Slot mask of a MODMASK packet, and the selected modules that have not responded. -/
  modmask : Option W64
  awaited : List Nat
  landing : Landing
  payload : List Byte
  /-- Sent at least once. -/
  sent : Bool
  psn : W32
  unseq : Bool
  stream : BitVec 11
  port : PortIx
  /-- RETRIES when it was sent (R432), the expiries of TIMEOUT so far, and the modules whose resend waits at injection (R412). -/
  retries : Nat
  expiries : Nat
  due : List Nat
  resent : Bool
  quiet : Bool
  answered : Bool
  /-- Instruction index of its transfer, for a fault record (R105). -/
  pc : BitVec 13
  /-- The range it is cut from breaks R150, though the packet's own may not. -/
  badRange : Bool
  /-- Its transfer has failed, or its core has been unbound: its answer raises no fault. -/
  lost : Bool
  /-- A READ that takes room in the staging buffer, or a WRITE whose data waits there (R414). -/
  staged : Bool
  /-- Its place in the resend area (R411). -/
  slot : Nat
  /-- The connection resets of its crucible before its instruction issued (R430). -/
  gen : Nat
  deriving DecidableEq, Repr

/-- A response with no usable port, which waits (R405). -/
structure RspWait where
  num : Nat
  packet : Packet
  dest : Nat
  destCru : Cru
  deriving DecidableEq, Repr

/-- A UC packet with no usable port, and the tick since which it waits (R405, R407). -/
structure UcWait where
  packet : Packet
  dest : Nat
  destCru : Cru
  since : W64
  deriving DecidableEq, Repr

/-- An urgent message of this crucible's management core, waiting or not acknowledged (R425). -/
structure Urgent where
  num : Nat
  dest : Nat
  destCru : Cru
  dstLoc : W16
  type : Byte
  payload : List Byte
  psn : W16
  /-- Among the 64 that may be unacknowledged; the others wait. -/
  sent : Bool
  resends : Nat
  deriving DecidableEq, Repr

/-- The slot of a source module and a type (R425). -/
structure UrgentSlot where
  module_ : Nat
  type : Byte
  psn : W16
  payload : List Byte
  deriving DecidableEq, Repr

/-- A request that arrived at a port, and whether its access meets a parity error (R322, R468). -/
structure HeldRequest where
  cru : Cru
  port : PortIx
  packet : Packet
  mismatch : Bool
  deriving DecidableEq, Repr

structure Xport where
  job : Staged JobSet
  /-- Plane masks by logical module (R406). -/
  plane : Store (BitVec 52)
  xrack : Staged XrackRegs
  /-- Bytes in the token bucket (R418). -/
  bucket : Nat
  e2e : E2eRegs
  /-- FAB_XPORT_STATUS [7:0] (R434). -/
  status : Byte
  /-- FAB_XCOUNT_k (R435). -/
  count : Store W32
  /-- Connections by 4 × module + crucible of the far end (R409). -/
  conns : Store Conn
  mcPsn : W32
  nextNum : Nat
  pkts : List Pkt
  rsps : List RspWait
  ucWaits : List UcWait
  urgents : List Urgent
  slots : List UrgentSlot
  urgentPsn : W16
  /-- Requests whose HBM accesses a regulator holds, in the order of arrival (R322). -/
  held : List HeldRequest
  /-- Resets of connections so far, the last of all of them, and the last of each module's since (R430). -/
  gen : Nat
  genAll : Nat
  connGen : Store Nat
  /-- Source modules notified of a stale epoch, and the tick of the notice (R416). -/
  staleSent : List (Nat × W64)
  deriving DecidableEq, Repr

def planeDefault : Nat → BitVec 52 := fun _ => 0xFFFFFFFFFFFFF

/-- At reset. No rule gives the token bucket's level: the model's is full, BURST × 1 KiB (R418, log 163, DESIGN CHOICE). -/
def Xport.reset : Xport where
  job := Staged.reset JobSet.reset
  plane := []
  xrack := Staged.reset ⟨2600, 256⟩
  bucket := 262144
  e2e := ⟨6, 64, 20⟩
  status := 0
  count := []
  conns := []
  mcPsn := 0
  nextNum := 0
  pkts := []
  rsps := []
  ucWaits := []
  urgents := []
  slots := []
  urgentPsn := 0
  held := []
  gen := 0
  genAll := 0
  connGen := []
  staleSent := []

end Sys2Proof.Machine
end

