-- ==== Sys2Proof/Machine/State.lean ====
section
/-!
DEFINITION. The state of the module: four crucibles, the port die, the queue of waiting commands.
-/
namespace Sys2Proof.Machine

/-- The model stops with no fault of its own: what the spec calls a fault, a rejection or an error is state (R13, R105, R446). Nobody
raises one, so no claim can lean on it: safe. -/
inductive Fault where
  deriving DecidableEq, Repr

inductive Refusal where
  /-- Raised by an arm of `exec` whose command has no meaning yet, and by nothing else: safe. -/
  | notModelled (mnemonic : String)
  deriving DecidableEq, Repr

/-- Whether a crucible serves (R551, R556, R633). -/
inductive Service where
  | inService
  | resetting
  | outOfService
  /-- Held in its ROM by recovery mode. -/
  | rom
  deriving DecidableEq, Repr

structure Crucible where
  service : Service
  /-- A declared hang has frozen it (R545). -/
  frozen : Bool
  core : CoreArray
  tally : TallyBlock
  num : NumBlock
  res : ResBlock
  hbm : Hbm
  xport : Xport
  ports : Store Port
  /-- The port chosen last (R405). -/
  chooseLast : Nat
  /-- FAB_BLOCK_STATUS [0] (R395). -/
  fabUnassigned : Bool
  riser : Riser
  hang : HangBlock
  pwr : PowerBlock
  /-- Causes of R495 met on this crucible and not yet reported: the step concerned, or none for the step in progress. -/
  unclean : List (Option Nat)
  /-- Crucibles of this module that this one treats as resetting (R554). -/
  farResetting : List Nat
  /-- The component its ROM has verified and started, or none (R630). -/
  fw : Option RunImage
  /-- Identity registers are loaded (R646). -/
  loaded : Bool
  /-- The host has been told that it resets, and not yet that it is back (R551). -/
  told : Bool
  /-- PLACEMENT_DIGEST of the placement whose part its own instance of Tundish holds in region 1; empty when it holds none (R40,
  R302, R551). -/
  placed : List Byte
  /-- Persistent records that wait in its memory for the port die, oldest first (R38). -/
  recQueue : List RecWrite
  deriving DecidableEq, Repr

def portDefault : Nat → Port := fun n => Port.reset n

/-- A crucible at module power-on. It is in its ROM until it has booted (R566, R630, R631). -/
def Crucible.reset : Crucible where
  service := .resetting
  frozen := false
  core := CoreArray.reset
  tally := TallyBlock.reset
  num := NumBlock.reset
  res := ResBlock.reset
  hbm := Hbm.reset
  xport := Xport.reset
  ports := []
  chooseLast := 0
  fabUnassigned := false
  riser := Riser.reset
  hang := HangBlock.reset
  pwr := PowerBlock.reset
  unclean := []
  farResetting := []
  fw := none
  loaded := false
  told := false
  placed := []
  recQueue := []

/-- What the two halves' command engines share (R446, R449, R451–R457). -/
structure HostShare where
  eventSeq : W32
  /-- JOB_TAG and EPOCH last set by JOB_SET or SET_EPOCH (R446). -/
  jobTag : W16
  epoch : W16
  windows : List Window
  rings : List Ring
  targets : List Target
  running : List Running
  deriving DecidableEq, Repr

def HostShare.reset : HostShare := ⟨0, 0, 0, [], [], [], []⟩

/-- The placement engine's data (R285, R298, R301–R304). -/
structure Tundish where
  kernels : List Kernel
  health : Option HealthMap
  placement : Option Placement
  /-- What takes its place, none or another placement, once the steps below a number are checked (R303). -/
  next : Option (Option Placement × Nat)
  run : Option GraphRun
  /-- A restore has failed: no STEP is accepted until one succeeds or a placement is accepted (R540). -/
  shardsBad : Bool
  /-- A STEP has been accepted since the placement was (R536). -/
  stepTaken : Bool
  deriving DecidableEq, Repr

def Tundish.reset : Tundish := ⟨[], none, none, none, none, false, false⟩

structure State where
  cru : Quad Crucible
  half : Pair Half
  /-- The port die's always-on domain works (R37). -/
  alwaysOn : Bool
  host : HostShare
  tundish : Tundish
  steps : Steps
  ingot : Option IngotRun
  restore : Option RestoreRun
  power : Power
  store : StoreBlock
  boot : Boot
  /-- Commands held by the module: in Banked, or behind a command that runs on their queue pair (R444, R448). -/
  held : List Instr
  /-- What the module has sent, oldest first. The model's own. -/
  out : List Out
  /-- The index of the next free value (log 2). The model's own. -/
  freeCtr : Nat
  /-- The value the last register read returned (log 2). The model's own. -/
  lastRead : W32
  /-- The commands that wait, oldest first. -/
  pending : List Instr
  deriving DecidableEq, Repr

/-- Boot state at module power-on (R647–R649). -/
def Boot.reset : Boot where
  otp := Config.otp
  slotA := Config.factorySlot 0
  slotB := Config.factorySlot 1
  mode := .stable
  policy := false
  lastReason := 0
  image := none
  reasonKept := false
  trial := none
  activation := none
  update := none
  romUp := false
  nextLeaf := 0
  klistIndex := 0
  unassigned := false
  count := []
  loaded := false

/-- The module in standby with nothing done: a new module's store, every register at its reset value. -/
def State.reset : State where
  cru := Quad.all Crucible.reset
  half := ⟨Half.reset, Half.reset⟩
  alwaysOn := true
  host := HostShare.reset
  tundish := Tundish.reset
  steps := Steps.reset
  ingot := none
  restore := none
  power := Power.reset
  store := StoreBlock.reset
  boot := Boot.reset
  held := []
  out := []
  freeCtr := 0
  lastRead := 0
  pending := []

end Sys2Proof.Machine
end

