-- ==== Sys2Proof/Machine/Operands.lean ====
section
/-!
DEFINITION. Operand forms of the Sirba instructions: register reads and writes (R61–R63), immediates (R127), scratchpad addresses
(R66, R104, R128), tally fields (R122, R131, R351, R352), global addresses (R45, R67).
-/
namespace Sys2Proof.Machine

/-! ### Registers -/

/-- sI. s0 reads 0 (R62). -/
def PhysCore.sreg (p : PhysCore) (i : BitVec 5) : W64 := if i = 0 then 0 else Store.get zero64 p.s i.toNat

/-- Write sI. A write to s0 is discarded (R62). -/
def PhysCore.setS (p : PhysCore) (i : BitVec 5) (v : W64) : PhysCore :=
  if i = 0 then p else { p with s := Store.set zero64 p.s i.toNat v }

def PhysCore.areg (p : PhysCore) (i : BitVec 5) : W48 := Store.get zero48 p.a i.toNat
def PhysCore.setA (p : PhysCore) (i : BitVec 5) (v : W48) : PhysCore := { p with a := Store.set zero48 p.a i.toNat v }
def PhysCore.treg (p : PhysCore) (i : BitVec 5) : W128 := Store.get zero128 p.t i.toNat
def PhysCore.setT (p : PhysCore) (i : BitVec 5) (v : W128) : PhysCore := { p with t := Store.set zero128 p.t i.toNat v }

/-- Lane `l` of vector register `i`. -/
def PhysCore.lane (p : PhysCore) (i : BitVec 5) (l : Nat) : W32 := Store.get zero32 p.v (64 * i.toNat + l)

/-- Write the lanes of vector register `i`, from lane `l` on. -/
def PhysCore.setLanes (p : PhysCore) (i : BitVec 5) (l : Nat) : List W32 → PhysCore
  | [] => p
  | w :: ws =>
    PhysCore.setLanes { p with v := Store.set zero32 p.v (64 * i.toNat + l) w,
                               vRes := Store.set zero3 p.vRes (64 * i.toNat + l) (residue32 w) } i (l + 1) ws

/-- The 64 lanes of a vector register. -/
def PhysCore.vreg (p : PhysCore) (i : BitVec 5) : List W32 := (List.range 64).map (p.lane i)

/-- Word (r, c) of the accumulator buffer (R75). -/
def PhysCore.accWord (p : PhysCore) (r c : Nat) : W32 := Store.get zero32 p.acc (64 * r + c)

/-- Write accumulator word `i` with its check bits. -/
def PhysCore.putAcc (p : PhysCore) (i : Nat) (w : W32) (r : BitVec 3) : PhysCore :=
  { p with acc := Store.set zero32 p.acc i w, accRes := Store.set zero3 p.accRes i r }

/-- Write accumulator words from (r, c) on, FP32 or raw. -/
def PhysCore.setAcc (p : PhysCore) (r c : Nat) : List W32 → PhysCore
  | [] => p
  | w :: ws => PhysCore.setAcc (p.putAcc (64 * r + c) w (residue32 w)) r (c + 1) ws

/-- The check bits of `ws` as integers, beside words already written from (r, c) on (R465). -/
def PhysCore.markInt (p : PhysCore) (r c : Nat) : List W32 → PhysCore
  | [] => p
  | w :: ws => PhysCore.markInt { p with accRes := Store.set zero3 p.accRes (64 * r + c) (residueInt w) } r (c + 1) ws

/-- The first `n` words of a row agree with their check bits. -/
def PhysCore.accAgrees (p : PhysCore) (r n : Nat) : Bool :=
  (List.range n).all (fun c => residueAgrees (Store.get zero3 p.accRes (64 * r + c)) (p.accWord r c))

/-- The lanes of a vector register agree with their check bits. -/
def PhysCore.lanesAgree (p : PhysCore) (i : BitVec 5) : Bool :=
  (List.range 64).all (fun l => residueAgrees (Store.get zero3 p.vRes (64 * i.toNat + l)) (p.lane i l))

/-- The 64 words of an accumulator row. -/
def PhysCore.accRow (p : PhysCore) (r : Nat) : List W32 := (List.range 64).map (p.accWord r)

/-! ### Scratchpad bytes and their parity (R468) -/

/-- A byte with an odd number of ones: its parity bit. -/
def oddOnes (b : Byte) : Bool := (List.range 8).foldl (fun r i => r ^^ b.getLsbD i) false

def putParity (m : Store Bool) (a : Nat) : List Byte → Store Bool
  | [] => m
  | b :: bs => putParity (Store.set even m a (oddOnes b)) (a + 1) bs

/-- Write scratchpad bytes with their parity. -/
def PhysCore.writeScratch (p : PhysCore) (a : Nat) (bs : List Byte) : PhysCore :=
  { p with scratch := Memory.writeBytes p.scratch a bs, parity := putParity p.parity a bs }

/-- A read of `n` bytes at `a` finds no parity error. -/
def PhysCore.parityAgrees (p : PhysCore) (a n : Nat) : Bool :=
  (List.range n).all (fun i => Store.get even p.parity (a + i) == oddOnes (Memory.read p.scratch (a + i)))

/-! ### Tally words (R334) -/

def PhysCore.tallyWord (p : PhysCore) (i : Nat) : W64 := Store.get zero64 p.tally i
def PhysCore.setTally (p : PhysCore) (i : Nat) (w : W64) : PhysCore := { p with tally := Store.set zero64 p.tally i w }

def tallyFull (w : W64) : Bool := w.getLsbD 63
def tallyCap (w : W64) : Nat := (w.extractLsb' 48 8).toNat
def tallyCount (w : W64) : Nat := (w.extractLsb' 32 16).toNat

/-- `w` with COUNT `n`. -/
def tallyPut (w : W64) (n : Nat) : W64 :=
  (w &&& 0xFFFF0000FFFFFFFF#64) ||| ((BitVec.ofNat 16 n).setWidth 64 <<< 32)

/-- `w` with FULL 1 (R336). -/
def tallySetFull (w : W64) : W64 := w ||| 0x8000000000000000#64

/-- A signal finds the word at capacity (R337). -/
def atCapacity (w : W64) : Bool := decide (tallyCount w ≥ tallyCap w)

/-- The word tly.init leaves (R131). -/
def tallyInitWord (cap : Byte) (v : W32) : W64 := (cap.setWidth 64 <<< 48) ||| v.setWidth 64

/-! ### Fields -/

/-- A field that names an address register or a descriptor (R121). -/
def badReg16 (i : BitVec 5) : Bool := decide (i.toNat ≥ 16)

/-- sext(IMM) to 64 bits (R127). -/
def sextImm (imm : W32) : W64 := imm.signExtend 64

/-- aB + sext(IMM) modulo 2^48 (R128). -/
def scratchAddr (p : PhysCore) (rb : BitVec 5) (imm : W32) : Nat := (p.areg rb + imm.signExtend 48).toNat

/-- A scratchpad access of `size` bytes at `a` breaks R66 or its alignment (R104). -/
def badScratch (a size : Nat) : Bool := decide (a ≥ 0x100000) || decide (a % size ≠ 0)

/-- The physical word a tally identifier names on a logical core, under its context (R351). -/
def tallyTarget (tb : TallyBlock) (l : LogCore) (i : Nat) : Option Nat :=
  if i ≥ 48 then none
  else if l.ctxSel.getLsbD 3 then
    let x := (Store.get xlatSetDefault tb.xlat (l.ctxSel.extractLsb' 0 3).toNat).live
    let e := Store.get xlatDefault x i
    if e.valid then some e.phys.toNat else none
  else some i

/-- Bits [31:0] of a number, for DETAIL. -/
def detail32 (n : Nat) : W32 := BitVec.ofNat 32 n

/-! ### Global addresses (R45) -/

def gaModule (a : W64) : Nat := (a.extractLsb' 52 12).toNat
def gaCrucible (a : W64) : Cru := ⟨(a.extractLsb' 50 2).toNat, (a.extractLsb' 50 2).isLt⟩
def gaSpace (a : W64) : Nat := (a.extractLsb' 48 2).toNat
def gaOffset (a : W64) : Nat := (a.extractLsb' 0 48).toNat

/-- Segment and address register form a global address (R67). -/
def formAddr (seg : W64) (a : W48) : W64 := (seg &&& 0xFFFF000000000000#64) ||| a.setWidth 64

end Sys2Proof.Machine
end

