-- ==== Sys2Proof/Machine/Ops.lean ====
section
/-!
DEFINITION. The named operations over cores: reading and writing the core a logical index names (R26, R44), issue and its order of
faults (R81, R84, R124), taking a core fault (R105, R106), halting (R95, R96), the counters (R210–R212), the signature (R475) and
residue mismatches (R469, R470).
-/
namespace Sys2Proof.Machine

/-! ### Reaching a crucible and a core -/

def State.crucible (s : State) (c : Cru) : Crucible := s.cru.get c
def State.putCrucible (s : State) (c : Cru) (x : Crucible) : State := { s with cru := s.cru.set c x }
def State.atCrucible (s : State) (c : Cru) (f : Crucible → Crucible) : State := s.putCrucible c (f (s.crucible c))

/-- The module has sent something. -/
def State.emit (s : State) (os : List Out) : State := { s with out := s.out ++ os }

/-- The crucible runs: it is in service and no hang has frozen it (R545, R550). -/
def Crucible.live (x : Crucible) : Bool := x.service == .inService && !x.frozen

/-- The physical core the live remap table binds to logical core `l` (R98). -/
def Crucible.physIx (x : Crucible) (l : Nat) : Nat := (Store.get remapDefault x.core.remap.live l).toNat

def Crucible.log (x : Crucible) (l : Nat) : LogCore := Store.get logiDefault x.core.logi l
def Crucible.phys (x : Crucible) (l : Nat) : PhysCore := Store.get physDefault x.core.phys (x.physIx l)

def Crucible.putLog (x : Crucible) (l : Nat) (v : LogCore) : Crucible :=
  { x with core := { x.core with logi := Store.set logiDefault x.core.logi l v } }

def Crucible.putPhys (x : Crucible) (l : Nat) (v : PhysCore) : Crucible :=
  { x with core := { x.core with phys := Store.set physDefault x.core.phys (x.physIx l) v } }

def Crucible.modLog (x : Crucible) (l : Nat) (f : LogCore → LogCore) : Crucible := x.putLog l (f (x.log l))
def Crucible.modPhys (x : Crucible) (l : Nat) (f : PhysCore → PhysCore) : Crucible := x.putPhys l (f (x.phys l))

/-! ### Queues -/

def PhysCore.queuesEmpty (p : PhysCore) : Bool := p.tq.isEmpty && p.vq.isEmpty && p.xq.isEmpty

/-- Every operation left in the queues is complete, its signal held or to come. -/
def PhysCore.queuesDone (p : PhysCore) : Bool :=
  p.tq.all (fun e => e.phase == .complete || e.phase == .held) &&
  p.vq.all (fun e => e.phase == .complete || e.phase == .held) &&
  p.xq.all (fun e => e.phase == .complete || e.phase == .held)

/-- The queues without the operations that have not started (R105). An operation with no work is complete when it enters. -/
def PhysCore.dropUnstarted (p : PhysCore) : PhysCore :=
  { p with
    tq := p.tq.filter (fun e => e.phase != .queued)
    vq := p.vq.filter (fun e => e.phase != .queued)
    xq := p.xq.filter (fun e => e.phase != .queued) }

/-- The queues without held signals (R96). -/
def PhysCore.dropHeld (p : PhysCore) : PhysCore :=
  { p with
    tq := p.tq.filter (fun e => e.phase != .held)
    vq := p.vq.filter (fun e => e.phase != .held)
    xq := p.xq.filter (fun e => e.phase != .held) }

def PhysCore.anyHeld (p : PhysCore) : Bool :=
  p.tq.any (fun e => e.phase == .held) || p.vq.any (fun e => e.phase == .held) || p.xq.any (fun e => e.phase == .held)

/-- A Halting core whose queues are empty enters Halted (R95); a CLEAR_FAULT whose queues are empty clears the record (R107). -/
def Crucible.settle (x : Crucible) (l : Nat) : Crucible :=
  let g := x.log l
  if (x.phys l).queuesEmpty then
    match g.mode with
    | .halting => x.putLog l { g with mode := .halted, mgmtHalt := false }
    | .faulted => if g.clearReq then x.putLog l { g with mode := .halted, fault := FaultRecord.none, clearReq := false } else x
    | _ => x
  else x

/-! ### Taking a core fault (R105, R106, R495) -/

/-- A cause of R495 for a step, or for the step in progress. -/
def Crucible.markUnclean (x : Crucible) (step : Option Nat) : Crucible :=
  if step ∈ x.unclean then x else { x with unclean := x.unclean ++ [step] }

/-- SOURCE of R113. -/
def srcScalar : BitVec 3 := 0
def srcTensor : BitVec 3 := 1
def srcVector : BitVec 3 := 2
def srcXfer : BitVec 3 := 3
def srcRemote : BitVec 3 := 4

/-- The order of issue of an instruction of a core: its step, then its number within the step, which the sequence register's last value
still exceeds (R91, R92, R106). -/
def issueOrder (step : W48) (seq : Nat) : Nat := step.toNat * 2 ^ 33 + seq

/-- A second fault of a core that has just entered Faulted: raised before the record was written, or after, which the tick they share
leaves open (R106, log 53). The record is then that of the instruction issued first, with MULTIPLE. -/
def LogCore.meet (g : LogCore) (l : Nat) (f : FaultRecord) (order : Nat) (now : W64) : LogCore :=
  if g.faultAt = now ∧ !g.clearReq ∧ Config.faultsMeet l g.faultOrder order then
    if order < g.faultOrder then { g with fault := { f with multiple := true }, faultOrder := order }
    else { g with fault := { g.fault with multiple := true } }
  else g

/-- A fault of logical core `l`, by an instruction whose issue order is `order`: issue stops, unstarted operations are discarded, the
record is written, the core enters Faulted and sets its summary bit; its step will be reported faulty (R495). Of a core already
Faulted, see `LogCore.meet`; a Clearing core has no operation of its own (log 12). -/
def Crucible.raiseBy (x : Crucible) (l order : Nat) (cause : Byte) (source : BitVec 3) (pc : BitVec 13) (detail : W32) : Crucible :=
  let g := x.log l
  let f : FaultRecord := ⟨cause, source, false, pc, detail⟩
  match g.mode with
  | .clearing => x
  | .faulted => x.putLog l (g.meet l f order x.pwr.aon)
  | _ =>
    ((x.markUnclean (some (x.phys l).step.toNat)).modPhys l PhysCore.dropUnstarted).putLog l
      { g with mode := .faulted, waiting := none, mgmtHalt := false, runWaiting := none,
               fault := f, faultOrder := order, faultAt := x.pwr.aon, faultFlag := true, clearReq := false }

/-- A fault at issue: its instruction comes after every queued one. -/
def Crucible.raise (x : Crucible) (l : Nat) (cause : Byte) (source : BitVec 3) (pc : BitVec 13) (detail : W32) : Crucible :=
  x.raiseBy l (issueOrder (x.phys l).step (x.phys l).seq) cause source pc detail

/-! ### Halting (R95, R96, R134) -/

/-- A halt that the management core requests: issue stops; a waiting instruction does not execute. The spec leaves two meetings open
(log 112, DESIGN CHOICE): a core already Halting by its own halt takes the request, so that its held signals are dropped after 10 µs
(R96); a Halted core whose RUN waits for an instruction-store copy loses that RUN (R95, R118). -/
def Crucible.mgmtHalt (x : Crucible) (l : Nat) : Crucible :=
  let g := x.log l
  match g.mode with
  | .running => (x.putLog l { g with mode := .halting, waiting := none, mgmtHalt := true }).settle l
  | .halting => x.putLog l { g with mgmtHalt := true }
  | _ => if g.runWaiting.isSome then x.putLog l { g with runWaiting := none } else x

/-- The core's own halt instruction (R95): the program counter stays on it. -/
def Crucible.ownHalt (x : Crucible) (l : Nat) : Crucible :=
  (x.putLog l { x.log l with mode := .halting, waiting := none, mgmtHalt := false }).settle l

/-- A logical core bound to a physical core it did not hold: it enters Clearing, its record gone with the unbound core (R103,
R107). It takes the thresholds and enables that are live at that moment (R214). -/
def LogCore.rebound (g : LogCore) (thr : NumRegs) : LogCore :=
  { g with mode := .clearing, waiting := none, mgmtHalt := false, runWaiting := none, clearReq := false,
           fault := FaultRecord.none, faultOrder := 0, retireDue := none, reload := false, thr := thr }

/-- The transfers of a core that is bound anew are its old core's: what still comes for them raises nothing (R103). -/
def Crucible.losePkts (x : Crucible) (l : Nat) : Crucible :=
  let mine := fun (q : Pkt) => q.owner.any (fun o => o.core == l)
  { x with xport := { x.xport with
      pkts := (x.xport.pkts.filter (fun q => !mine q || q.sent)).map (fun q => if mine q then { q with lost := true } else q) } }

/-- Every logical core of the crucible halted by the management core. -/
def Crucible.haltAll (x : Crucible) : Crucible := (List.range 500).foldl Crucible.mgmtHalt x

/-! ### Issue (R81, R84, R124) -/

/-- What an instruction that passes its checks does. -/
inductive Effect where
  /-- It executes: the new core state, the program counter apart. -/
  | run (g : LogCore) (p : PhysCore)
  /-- It waits at issue. -/
  | wait (w : Waiting)
  /-- The core's own halt. -/
  | halt

/-- An instruction at issue: its fault conditions and its effect. `later` holds the conditions below PC_RANGE in the order of
R124. -/
structure Issue where
  illegal : Bool
  tally : Option W32
  next : Nat
  later : List (Option (Byte × W32))
  effect : Effect

/-- The first fault in the order of R124: cause and DETAIL. -/
def Issue.fault (i : Issue) (word : W64) : Option (Byte × W32) :=
  if i.illegal then some (0x01, word.setWidth 32)
  else match i.tally with
    | some v => some (0x07, v)
    | none => if i.next ≥ 8192 then some (0x02, detail32 i.next) else i.later.findSome? id

/-- The core issues: its crucible is live, it is Running and no instruction waits (R81, R84, R93). -/
def Crucible.canIssue (x : Crucible) (l : Nat) : Bool :=
  x.live && (x.log l).mode == .running && (x.log l).waiting == none

/-- An instruction has issued: the program counter moves and the progress counter advances (R542). -/
def Crucible.retire (x : Crucible) (l : Nat) (g : LogCore) (p : PhysCore) (next : Nat) : Crucible :=
  (x.putPhys l { p with pc := BitVec.ofNat 13 next }).putLog l { g with waiting := none, progCore := g.progCore + 1 }

/-- Issue of one instruction word on logical core `l`. A core that does not issue is unchanged (log 6). -/
def Crucible.issue (x : Crucible) (l : Nat) (word : W64) (f : LogCore → PhysCore → Issue) : Crucible :=
  if x.canIssue l then
    let g := x.log l
    let p := x.phys l
    let i := f g p
    match i.fault word with
    | some (cause, detail) => x.raise l cause srcScalar p.pc detail
    | none =>
      match i.effect with
      | .run g' p' => x.retire l g' p' i.next
      | .wait w => x.putLog l { g with waiting := some w }
      | .halt => x.ownHalt l
  else x

/-- The index of the next instruction in sequence (R69). -/
def PhysCore.seqNext (p : PhysCore) : Nat := p.pc.toNat + 1

/-- An instruction of one register result: no condition but ILLEGAL and the sequential step. -/
def simpleIssue (illegal : Bool) (g : LogCore) (p p' : PhysCore) : Issue :=
  ⟨illegal, none, p.seqNext, [], .run g p'⟩

def instrWord (op : Byte) (bits : BitVec 56) : W64 := op ++ bits

/-- The command of one instruction. -/
def State.issue (s : State) (k : CoreId) (op : Byte) (bits : BitVec 56) (f : LogCore → PhysCore → Issue) : State :=
  s.atCrucible k.cru (fun x => x.issue k.core.val (instrWord op bits) f)

/-! ### Counters of saturated and flushed elements (R210–R213) -/

/-- Does one addition cross its threshold (R212)? -/
def crosses (enabled : Bool) (thr old new : W32) : Bool := enabled && decide (old.toNat ≤ thr.toNat) && decide (thr.toNat < new.toNat)

/-- Add counts of one cycle for the operation with sequence number `seq`. -/
def LogCore.addCounts (g : LogCore) (step : W48) (seq : W32) (sat flush : Nat) : LogCore :=
  let sat' := satAdd g.sat sat
  let flush' := satAdd g.flush flush
  let cs := crosses (g.thr.enable.getLsbD 0) g.thr.sat g.sat sat'
  let cf := crosses (g.thr.enable.getLsbD 1) g.thr.flush g.flush flush'
  let g := { g with sat := sat', flush := flush' }
  if cs || cf then
    if g.numFlag then { g with event := { g.event with overrun := true } }
    else { g with numFlag := true,
                  event := { g.event with seq := seq, step := step, satCrossed := cs, flushCrossed := cf } }
  else g

def Crucible.addCounts (x : Crucible) (l : Nat) (seq : W32) (sat flush : Nat) : Crucible :=
  if sat = 0 ∧ flush = 0 then x else x.modLog l (fun g => g.addCounts (x.phys l).step seq sat flush)

/-! ### Scratchpad writes of the tensor and vector queues (R475) -/

/-- The signature after a write of `bs` at scratchpad offset `off`. -/
def LogCore.sign (g : LogCore) (seq : W32) (off : Nat) (bs : List Byte) : LogCore :=
  if g.ctxSel.getLsbD 3 then { g with sig := g.sig ^^^ crc64 (leBytes 4 seq.toNat ++ leBytes 4 off ++ bs) } else g

/-- A scratchpad write of the core's tensor or vector queue. -/
def Crucible.queueWrite (x : Crucible) (l : Nat) (seq : W32) (off : Nat) (bs : List Byte) : Crucible :=
  (x.modPhys l (fun p => p.writeScratch off bs)).modLog l (fun g => g.sign seq off bs)

/-! ### Residue mismatches (R469, R470) -/

/-- Count a mismatch of logical core `l` in unit `unit` and append its record: RESIDUE for the first of a step, `second` for the
second. -/
def Crucible.countMismatch (x : Crucible) (l : Nat) (unit second : BitVec 4) (seq : W32) : Crucible :=
  let g := x.log l
  let p := x.physIx l
  let first := decide (g.mismatches = 0)
  let r := ResBlock.append
    { x.res with physTotal := Store.set zero16 x.res.physTotal p (satAdd (Store.get zero16 x.res.physTotal p) 1) }
    ⟨(x.phys l).step, if first then 1 else second, unit, BitVec.ofNat 10 p, BitVec.ofNat 9 l, seq⟩
  { x.putLog l { g with mismatches := if g.mismatches.toNat < 2 then g.mismatches + 1 else g.mismatches } with res := r }

/-- A mismatch is the first of the step on the core, and is repeated transparently (R469). -/
def Crucible.firstMismatch (x : Crucible) (l : Nat) : Bool := (x.log l).mismatches == 0

/-- A second mismatch in a queue retires the core: RESIDUE_RETIRE, DETAIL the sequence number (R470). -/
def Crucible.retireFault (x : Crucible) (l : Nat) (unit : BitVec 4) (source : BitVec 3) (pc : BitVec 13) (seq : W32) : Crucible :=
  ((x.countMismatch l unit 2 seq).raiseBy l (issueOrder (x.phys l).step seq.toNat) 0x0E source pc seq).modLog l (fun g => { g with retireDue := some ⟨0x0E, source, false, pc, seq⟩ })

/-- A second mismatch in the scalar unit or the transfer engine raises no fault: the core is halted under R95 and waits for its
retirement (R470, R472). -/
def Crucible.requestRetire (x : Crucible) (l : Nat) (source : BitVec 3) (seq : W32) : Crucible :=
  let p := x.phys l
  (((x.mgmtHalt l).settle l).modLog l (fun g => { g with retireDue := some ⟨0x0E, source, false, p.pc, seq⟩ })).markUnclean
    (some p.step.toNat)

/-- The scalar unit's check before a register write fails in the instruction that `run` executes (R467, R468). The first mismatch of
the step is repeated and counted; at the second the instruction is not completed (R469, R470). An instruction that writes no register,
because it faults or its core does not issue, meets none. -/
def State.scalarMismatch (s : State) (k : CoreId) (run : State → State) : State :=
  let l := k.core.val
  let x := s.crucible k.cru
  if (((run s).crucible k.cru).log l).progCore = (x.log l).progCore then run s
  else
    let seq := BitVec.ofNat 32 (x.phys l).seq
    let y := x.countMismatch l 6 3 seq
    if x.firstMismatch l then run (s.putCrucible k.cru y) else s.putCrucible k.cru (y.requestRetire l srcScalar seq)

/-- A check that fails again when it is repeated, as a lasting parity error does: the core is retired (R468, R470). -/
def State.lastingMismatch (s : State) (k : CoreId) (run : State → State) : State :=
  let l := k.core.val
  let x := s.crucible k.cru
  if (((run s).crucible k.cru).log l).progCore = (x.log l).progCore then run s
  else
    let seq := BitVec.ofNat 32 (x.phys l).seq
    let y := x.countMismatch l 5 3 seq
    let y := if x.firstMismatch l then y.countMismatch l 5 3 seq else y
    s.putCrucible k.cru (y.requestRetire l srcScalar seq)

/-- A scalar instruction with or without a mismatch in its unit. -/
def State.scalarChecked (s : State) (mismatch : Bool) (k : CoreId) (run : State → State) : State :=
  if mismatch then s.scalarMismatch k run else run s

end Sys2Proof.Machine
end

