-- ==== Sys2Proof/Machine/EventOps.lean ====
section
/-!
DEFINITION. Events to the host (R449, R450, R464), and the module's counters of them.
-/
namespace Sys2Proof.Machine

def Half.cmdBump (h : Half) (k : Nat) : Half := { h with cmdCount := Store.modify zero32 h.cmdCount k (fun v => satAdd v 1) }
def Half.ethBump (h : Half) (k : Nat) : Half := { h with ethCount := Store.modify zero32 h.ethCount k (fun v => satAdd v 1) }

def Half.ethAdd (h : Half) (k n : Nat) : Half := { h with ethCount := Store.modify zero32 h.ethCount k (fun v => satAdd v n) }

def State.halfAt (s : State) (h : HalfIx) : Half := s.half.get h
def State.putHalf (s : State) (h : HalfIx) (v : Half) : State := { s with half := s.half.set h v }
def State.modHalf (s : State) (h : HalfIx) (f : Half → Half) : State := s.putHalf h (f (s.halfAt h))

/-- The port die runs: its always-on domain works, and it is neither off nor on its way up or down (R37, R565). -/
def State.portDieUp (s : State) : Bool :=
  s.alwaysOn &&
    (s.power.mode == .on || s.power.mode == .enteringBanked || s.power.mode == .banked || s.power.mode == .waking)

/-- The command engine of a half works: its half has not failed, and firmware or the recovery ROM runs (R37, R629, R633). -/
def State.engineUp (s : State) (h : HalfIx) : Bool :=
  s.portDieUp && (s.halfAt h).alive && (s.boot.image.isSome || s.boot.romUp)

/-- The accessor works. -/
def State.speaks (s : State) : Accessor → Bool
  | .mgmt => true
  | .half0 => s.engineUp 0
  | .half1 => s.engineUp 1

/-- The management core of the crucible runs firmware: in service, or on the way back from a reset (R551). -/
def Crucible.awake (x : Crucible) : Bool := x.live || (x.service == .resetting && !x.frozen && x.fw.isSome)

/-- An access to crucible c's control space takes effect: its own management core runs, or, for the port die, the crucible serves
(R52, R59, R553). -/
def State.reach (s : State) (a : Accessor) (c : Cru) : Bool :=
  if a = .mgmt then (s.crucible c).awake else (s.crucible c).live && s.speaks a

/-! ### Frames sent (R436, R438, R439, R462) -/

/-- Frames of a message of `n` bytes at a path MTU (log 29). -/
def frames (mtu n : Nat) : Nat := max 1 ((n + mtu - 1) / mtu)

def Half.qp (h : Half) (n : Nat) : Option Qp := h.qps.find? (fun q => q.num == n)

/-- The path MTU of a queue pair, and of a half's queue pairs to a target. -/
def Half.mtu (h : Half) (n : Nat) : Nat := (h.qp n).elim 4096 Qp.mtu
def Half.targetMtu (h : Half) (t queue : Nat) : Nat := (h.qps.find? (fun q => q.kind == .storage t queue)).elim 4096 Qp.mtu

/-- The traffic that a queue pair carries. -/
def QpKind.traffic : QpKind → Traffic
  | .command => .command
  | .data => .data
  | .storage .. => .storage

/-- The kind of traffic a message is; connection management, congestion notifications and the protocols below IP are none of the three. -/
def Half.trafficOf (h : Half) : EthMsg → Option Traffic
  | .response .. | .event .. => some .command
  | .ringEntry .. => some .data
  | .rdmaReply _ (.data _) => some .data
  | .rdmaReply q _ | .roceResend q => (h.qp q).map (fun q => q.kind.traffic)
  | .admin _ (.request _) => none
  | .admin .. | .nvme .. | .nvmeData .. => some .storage
  | .cmRep _ | .cmRej | .cnp _ | .arpReply _ | .neighbourAdvert _ | .echoReply _ => none

/-- The message goes in RoCE v2 packets. -/
def EthMsg.roce : EthMsg → Bool
  | .arpReply _ | .neighbourAdvert _ | .echoReply _ => false
  | _ => true

/-- Frames that a message takes. -/
def Half.framesOf (h : Half) : EthMsg → Nat
  | .response q _ _ _ _ _ body => frames (h.mtu q) (32 + body.length)
  | .event q e => frames (h.mtu q) (32 + e.body.length)
  | .ringEntry q _ _ _ bs | .rdmaReply q (.data bs) => frames (h.mtu q) bs.length
  | .nvmeData t bs => frames (h.targetMtu t 1) bs.length
  | _ => 1

/-- COMMAND_PCP, DATA_PCP or STORAGE_PCP. -/
def Half.pcpOf (h : Half) : Traffic → BitVec 3
  | .command => h.pcps.extractLsb' 0 3
  | .data => h.pcps.extractLsb' 3 3
  | .storage => h.pcps.extractLsb' 6 3

/-- The VLAN identifier that frames carry, in both directions; none where they are untagged. -/
def Half.vlan (h : Half) : Option (BitVec 12) := if h.tagged then some h.vid else none

/-- The marks of a message's frames. -/
def Half.markOf (h : Half) (m : EthMsg) : SentMark :=
  let p := (h.trafficOf m).map h.pcpOf
  ⟨h.vlan, p, p.map (fun p => p ++ (0 : BitVec 3)), m.roce⟩

/-- The partner has paused the priority, which is enabled. -/
def Half.holdsBack (h : Half) (k : SentMark) : Bool :=
  match k.pcp with
  | some p => h.paused.getLsbD p.toNat && h.pfcEnable.getLsbD p.toNat
  | none => false

/-- A message leaves, or waits while its priority is paused. -/
def Half.send (h : Half) (ix : HalfIx) (m : EthMsg) : Half × List Out :=
  let k := h.markOf m
  if h.holdsBack k then ({ h with waits := h.waits ++ [⟨k, h.framesOf m, m⟩] }, [])
  else (h.ethAdd 1 (h.framesOf m), [.eth ix k m])

/-- Messages whose priority is no longer paused leave. -/
def Half.release (h : Half) (ix : HalfIx) : Half × List Out :=
  let go := h.waits.filter (fun o => !h.holdsBack o.mark)
  ({ h with waits := h.waits.filter (fun o => h.holdsBack o.mark) }.ethAdd 1 ((go.map Outgoing.frames).sum),
   go.map (fun o => .eth ix o.mark o.msg))

/-- One message leaves by half h. -/
def State.sendEth (s : State) (h : HalfIx) (m : EthMsg) : State :=
  let (v, os) := (s.halfAt h).send h m
  (s.putHalf h v).emit os

/-- What is no longer paused leaves. -/
def State.releaseHalf (s : State) (h : HalfIx) : State :=
  let (v, os) := (s.halfAt h).release h
  (s.putHalf h v).emit os

/-- The queue pair exists, and is not in the error state. -/
def State.qpWorks (s : State) (h : HalfIx) (n : Nat) : Bool :=
  match (s.halfAt h).qp n with
  | some q => !q.error
  | none => false

/-! ### Events -/

/-- One event at one half: sent, queued while the queue pair meets RNR NAKs, or dropped and counted. -/
def Half.post (h : Half) (ix : HalfIx) (e : Event) : Half × List Out :=
  match h.eventQp with
  | none => (h, [])
  | some q =>
    if h.alive && h.eventMask.getLsbD (e.code.toNat - 0xC000) then
      if h.eventBlocked then
        if h.eventQueue.length < 1024 then ({ h with eventQueue := h.eventQueue ++ [e] }, [])
        else ({ h with lost := h.lost + 1, cmdFlags := setFlag h.cmdFlags 2 }.cmdBump 3, [])
      else (h.cmdBump 2).send ix (.event q e)
    else (h, [])

/-- An event goes to both halves under one EVENT_SEQ. -/
def State.event (s : State) (code : W16) (cru : Byte) (step : W48) (body : List Byte) : State :=
  let e : Event := ⟨code, s.host.eventSeq, cru, step, body⟩
  let (h0, o0) := s.half.h0.post 0 e
  let (h1, o1) := s.half.h1.post 1 e
  { s with half := ⟨h0, h1⟩, host := { s.host with eventSeq := s.host.eventSeq + 1 }, out := s.out ++ o0 ++ o1 }

/-- CRUCIBLE of an event of the port die. -/
def portDieSource : Byte := 0xFF

/-- An event whose STEP is the oldest unchecked step. -/
def State.notify (s : State) (code : W16) (cru : Byte) (body : List Byte) : State := s.event code cru s.steps.oldest body

def State.cruEvent (s : State) (code : W16) (c : Cru) (body : List Byte) : State := s.notify code (BitVec.ofNat 8 c.val) body

/-- STEP_STATUS (R512). -/
def State.stepStatus (s : State) (result : Byte) (step : W48) : State := s.event 0xC004 portDieSource step [result]

/-- CRUCIBLE_STATE: 0 in service, 1 resetting, 2 out of service. -/
def State.crucibleEvent (s : State) (c : Cru) (state : Byte) : State := s.cruEvent 0xC006 c [state]

/-- LINK (R450): port, kind, lane, CAUSE. -/
def State.linkEvent (s : State) (c : Cru) (n : PortIx) (kind : Byte) (lane : Nat) (cause : Byte) : State :=
  s.cruEvent 0xC002 c [BitVec.ofNat 8 n.val, kind, BitVec.ofNat 8 lane, cause]

/-- The body of CORE_FAULT: logical and physical core, CAUSE, SOURCE, PC, DETAIL, SPARE. -/
def coreFaultBody (l p : Nat) (f : FaultRecord) (spare : Nat) : List Byte :=
  leBytes 2 l ++ leBytes 2 p ++ [f.cause, f.source.setWidth 8] ++ leBytes 2 f.pc.toNat ++ leBytes 4 f.detail.toNat ++ leBytes 2 spare

/-- Free values, taken one after another (log 2). -/
def State.fresh (s : State) : Nat × State := (s.freeCtr, { s with freeCtr := s.freeCtr + 1 })

end Sys2Proof.Machine
end

