-- ==== Sys2Proof/Machine/HbmOps.lean ====
section
/-!
DEFINITION. The operations over a crucible's HBM: the interleave hash (R310), partitions and slots (R308, R320–R322), error logging
(R317, R318, R650), the riser gate (R489–R492), reading and writing bytes.
-/
namespace Sys2Proof.Machine

/-! ### The interleave hash (R310) -/

/-- Pseudo-channel q of an HBM offset. -/
def hbmChannel (a : BitVec 36) : BitVec 6 :=
  a.extractLsb' 8 6 ^^^ a.extractLsb' 14 6 ^^^ a.extractLsb' 20 6 ^^^ a.extractLsb' 26 6 ^^^ (a.extractLsb' 32 4).setWidth 6

/-- The byte address within the pseudo-channel. -/
def hbmLocal (a : BitVec 36) : BitVec 30 := a.extractLsb' 14 22 ++ a.extractLsb' 0 8

/-- Where a local address lies in its pseudo-channel (R310). -/
structure HbmPlace where
  row : BitVec 15
  sid : BitVec 1
  bank : BitVec 2
  group : BitVec 2
  byte : BitVec 10
  deriving DecidableEq, Repr

def hbmPlace (loc : BitVec 30) : HbmPlace :=
  ⟨loc.extractLsb' 15 15, loc.extractLsb' 14 1, loc.extractLsb' 12 2, loc.extractLsb' 10 2, loc.extractLsb' 0 10⟩

/-- The offset of a local address of pseudo-channel q: A[13:8] is recovered from the other terms. -/
def hbmOffset (q : BitVec 6) (loc : BitVec 30) : BitVec 36 :=
  let hi := loc.extractLsb' 8 22
  let mid := q ^^^ hi.extractLsb' 0 6 ^^^ hi.extractLsb' 6 6 ^^^ hi.extractLsb' 12 6 ^^^ (hi.extractLsb' 18 4).setWidth 6
  hi ++ mid ++ loc.extractLsb' 0 8

/-- The stack of an offset within its crucible: q[5] (R307). -/
def hbmStack (a : Nat) : Bool := (hbmChannel (BitVec.ofNat 36 a)).getLsbD 5

/-! ### Regulators (R308, R320–R322) -/

/-- The bit of a source in a source mask, and its default partition. -/
def sourceBit (split : Nat) : HbmSource → Nat
  | .core l => if l.val < split then 0 else 1
  | .mgmt => 2
  | .portDie => 3
  | .fabric => 4

def sourceDefault : Nat → Nat
  | 0 => 7
  | 1 => 8
  | 2 => 0
  | 3 => 1
  | _ => 9

def PmapEntry.hits (e : PmapEntry) (page bit : Nat) : Bool :=
  e.enable && decide (e.base.toNat ≤ page) && decide (page ≤ e.limit.toNat) && e.sources.getLsbD bit

/-- The partition of an access at offset `a` (R320): the first entry that matches, else the requester's tag (R295), else the source's
default. -/
def Hbm.partitionAs (h : Hbm) (src : HbmSource) (tag : Option Nat) (a : Nat) : Nat :=
  let bit := sourceBit h.pmap.live.split.toNat src
  match (List.range 16).find? (fun i => (Store.get pmapDefault h.pmap.live.entries i).hits (a / 65536) bit) with
  | some i => (Store.get pmapDefault h.pmap.live.entries i).part.toNat
  | none => tag.getD (sourceDefault bit)

def Hbm.partition (h : Hbm) (src : HbmSource) (a : Nat) : Nat := h.partitionAs src none a

/-- One unit of share or ceiling, in slots: of the slower stack's rate (R314, R321). -/
def Hbm.unit (h : Hbm) : Nat :=
  match max h.stack0.rate.toNat h.stack1.rate.toNat with
  | 0 => 150
  | 1 => 125
  | _ => 100

/-- The accesses of a range, by the offset they start at: 64-byte ones, and at most one of 32 bytes at each end (R308). `n` counts
32-byte units from unit `u`. -/
def accessUnits (u : Nat) : Nat → List Nat
  | 0 => []
  | 1 => [u * 32]
  | n + 2 => if u % 2 = 1 then u * 32 :: accessUnits (u + 1) (n + 1) else u * 32 :: accessUnits (u + 2) n

/-- 32-byte units a range touches. -/
def unitCount (a n : Nat) : Nat := if n = 0 then 0 else (a + n - 1) / 32 + 1 - a / 32

/-- The accesses a read of the range makes. -/
def readAccesses (a n : Nat) : List Nat := accessUnits (a / 32) (unitCount a n)

/-- The accesses a write makes: a partly covered unit counts as two. -/
def writeAccesses (a n : Nat) : List Nat :=
  readAccesses a n ++ (if n > 0 ∧ a % 32 ≠ 0 then [a / 32 * 32] else []) ++
    (if n > 0 ∧ (a + n) % 32 ≠ 0 ∧ (a % 32 = 0 ∨ (a + n) / 32 ≠ a / 32) then [(a + n) / 32 * 32] else [])

/-- Count the slots of accesses (R322). -/
def Hbm.grantAs (h : Hbm) (src : HbmSource) (tag : Option Nat) (accesses : List Nat) : Hbm :=
  accesses.foldl (fun h a => { h with used := Store.modify zeroNat h.used (h.partitionAs src tag a) (fun n => n + 1) }) h

def HbmRegs.shareOf (r : HbmRegs) (p : Nat) : Nat := (Store.get shareDefault r.share p).toNat
def HbmRegs.ceilOf (r : HbmRegs) (p : Nat) : Nat := (Store.get ceilDefault r.ceil p).toNat

/-- The class of partition p by its used count: 0 is A, 1 is B, 2 is held until the next window (R322). -/
def Hbm.classOf (h : Hbm) (used : Store Nat) (p : Nat) : Nat :=
  let n := Store.get zeroNat used p
  if h.reg.live.ceilOf p * h.unit ≤ n then 2 else if n < h.reg.live.shareOf p * h.unit then 0 else 1

/-- The partition of an access is held. -/
def Hbm.isHeldAs (h : Hbm) (src : HbmSource) (tag : Option Nat) (a : Nat) : Bool := h.classOf h.used (h.partitionAs src tag a) == 2

def Hbm.isHeld (h : Hbm) (src : HbmSource) (a : Nat) : Bool := h.isHeldAs src none a

/-! ### Errors (R317, R318, R330, R333) -/

/-- A correction in a stack. -/
def Hbm.countCe (h : Hbm) (stack : Bool) : Hbm :=
  if stack then { h with ce1 := satAdd h.ce1 1 } else { h with ce0 := satAdd h.ce0 1 }

/-- An uncorrectable unit met by a read: counted, and logged unless an entry is pending. -/
def Hbm.countUe (h : Hbm) (unit : Nat) : Hbm :=
  let h := if hbmStack (unit * 32) then { h with ue1 := satAdd h.ue1 1 } else { h with ue0 := satAdd h.ue0 1 }
  if h.status.getLsbD 5 then h else { h with status := setFlag h.status 5, ueAddr := BitVec.ofNat 36 (unit * 32) }

def Hbm.poisoned (h : Hbm) (unit : Nat) : Bool := Store.get falseStore h.poison unit

/-- The poisoned units a range touches. -/
def Hbm.poisonIn (h : Hbm) (a n : Nat) : List Nat :=
  (List.range (unitCount a n)).filterMap (fun i => if h.poisoned (a / 32 + i) then some (a / 32 + i) else none)

/-- The step an access from a source belongs to: a core's step register, else the step in progress. -/
def Crucible.sourceStep (x : Crucible) : HbmSource → Option Nat
  | .core l => some (x.phys l.val).step.toNat
  | _ => none

/-- A read of `n` bytes: the bytes, and the counts and logs of every poisoned unit met. -/
def Crucible.hbmReadAs (x : Crucible) (src : HbmSource) (tag : Option Nat) (a n : Nat) (step : Option Nat) : List Byte × Crucible :=
  let bad := x.hbm.poisonIn a n
  let h := bad.foldl Hbm.countUe (x.hbm.grantAs src tag (readAccesses a n))
  let x' := { x with hbm := h }
  (Memory.readBytes x.hbm.mem a n, if bad.isEmpty then x' else x'.markUnclean step)

def Crucible.hbmRead (x : Crucible) (src : HbmSource) (a n : Nat) (step : Option Nat) : List Byte × Crucible := x.hbmReadAs src none a n step

/-! ### Tracked units (R289, R292, R478, R489) -/

def pageSize : Nat := 65536
def region2 : Nat := 0x40000000

/-- Start of region 3. -/
def Riser.region3 (r : Riser) : Nat := region2 + 2 * (r.own + r.twin) * pageSize

/-- 64 KiB pieces of a scale area of `g` groups. -/
def scalePieces (g : Nat) : Nat := (g * 1024 + pageSize - 1) / pageSize

/-- Where a tracked unit stands: its offset, its riser's offset and its length. -/
structure UnitPlace where
  off : Nat
  riser : Nat
  len : Nat
  deriving DecidableEq, Repr

/-- Tracked unit `u`, in the order of R478: own pages, own scales, twin pages, twin scales. -/
def Riser.place (r : Riser) (u : Nat) : Option UnitPlace :=
  let a := r.own
  let b := r.twin
  let sa := scalePieces a
  let sb := scalePieces b
  let r3 := r.region3
  if u < a then some ⟨region2 + u * pageSize, region2 + (a + b + u) * pageSize, pageSize⟩
  else if u < a + sa then
    let o := (u - a) * pageSize
    some ⟨r3 + o, r3 + (a + b) * 1024 + o, min pageSize (a * 1024 - o)⟩
  else if u < a + sa + b then
    let i := u - a - sa
    some ⟨region2 + (a + i) * pageSize, region2 + (2 * a + b + i) * pageSize, pageSize⟩
  else if u < a + sa + b + sb then
    let o := (u - a - sa - b) * pageSize
    some ⟨r3 + a * 1024 + o, r3 + (2 * a + b) * 1024 + o, min pageSize (b * 1024 - o)⟩
  else none

def Riser.unitTotal (r : Riser) : Nat := r.own + scalePieces r.own + r.twin + scalePieces r.twin

/-- The tracked unit that holds offset `a`. -/
def Riser.unitAt (r : Riser) (a : Nat) : Option Nat :=
  let n := r.own + r.twin
  let r3 := r.region3
  if a < region2 then none
  else if a < region2 + n * pageSize then
    let p := (a - region2) / pageSize
    some (if p < r.own then p else p + scalePieces r.own)
  else if a < r3 then none
  else if a < r3 + r.own * 1024 then some (r.own + (a - r3) / pageSize)
  else if a < r3 + n * 1024 then some (r.own + scalePieces r.own + r.twin + (a - r3 - r.own * 1024) / pageSize)
  else none

/-- A range touches a riser unit (R492). -/
def Riser.touchesRiser (r : Riser) (a n : Nat) : Bool :=
  let m := r.own + r.twin
  let r3 := r.region3
  decide (n > 0) &&
    ((decide (a < r3) && decide (region2 + m * pageSize < a + n)) ||
     (decide (a < r3 + 2 * m * 1024) && decide (r3 + m * 1024 < a + n)))

def Riser.unitState (r : Riser) (u : Nat) : UnitState := Store.get unitDefault r.units u

/-! ### Writing (R308, R650) -/

/-- The units a range covers in part. -/
def partUnits (a n : Nat) : List Nat :=
  if n = 0 then []
  else (if a % 32 ≠ 0 ∨ a + n < (a / 32 + 1) * 32 then [a / 32] else []) ++
    (if (a + n) % 32 ≠ 0 ∧ (a + n) / 32 ≠ a / 32 then [(a + n) / 32] else [])

/-- The units a range covers whole. -/
def wholeUnits (a n : Nat) : List Nat :=
  (List.range (unitCount a n)).filterMap (fun i =>
    let u := a / 32 + i
    if a ≤ u * 32 ∧ u * 32 + 32 ≤ a + n then some u else none)

/-- Bytes enter the array: the units covered whole become sound, one covered in part keeps its poison. -/
def Hbm.put (h : Hbm) (a : Nat) (bs : List Byte) : Hbm :=
  { h with mem := Memory.writeBytes h.mem a bs, poison := (wholeUnits a bs.length).foldl (fun m u => Store.erase m u) h.poison }

/-- Bytes written into the array, with the counts of the poisoned units that the reads of the merges meet. -/
def Crucible.hbmStoreAs (x : Crucible) (src : HbmSource) (tag : Option Nat) (a : Nat) (bs : List Byte) (step : Option Nat) : Crucible :=
  let n := bs.length
  let bad := (partUnits a n).filter x.hbm.poisoned
  let h := bad.foldl Hbm.countUe (x.hbm.grantAs src tag (writeAccesses a n))
  let x := { x with hbm := h.put a bs }
  if bad.isEmpty then x else x.markUnclean step

def Crucible.hbmStore (x : Crucible) (src : HbmSource) (a : Nat) (bs : List Byte) (step : Option Nat) : Crucible :=
  x.hbmStoreAs src none a bs step

/-- The riser engine copies `n` bytes: it reads and writes as any access does, passes the map as the management core and bears the tag
of riser copies (R295, R318, R320, R650). -/
def Crucible.engineCopy (x : Crucible) (src dst n : Nat) : Crucible :=
  let (bs, x) := x.hbmReadAs .mgmt (some 3) src n none
  x.hbmStoreAs .mgmt (some 3) dst bs none

/-- Copy unit `u` to its riser. -/
def Crucible.copyUnit (x : Crucible) (u : Nat) : Crucible :=
  match x.riser.place u with
  | none => x
  | some p => x.engineCopy p.off p.riser p.len

/-- The gate of R491 for a write at offset `a`: an unit not yet copied is copied first and the wait counted; it becomes Written. -/
def Crucible.gate (x : Crucible) (a : Nat) : Crucible :=
  if x.riser.armed then
    match x.riser.unitAt a with
    | none => x
    | some u =>
      let written := { x.riser with units := Store.set unitDefault x.riser.units u .written }
      match x.riser.unitState u with
      | .uncopied | .copying =>
        let x := x.copyUnit u
        { x with riser := { written with stalls := satAdd written.stalls 1 } }
      | .copied | .written => { x with riser := written }
  else x

/-- Gates for a range, by its 1 KiB granules: units begin and end on them. -/
def Crucible.gates (x : Crucible) (a n : Nat) : Crucible :=
  if n = 0 then x
  else (List.range ((a + n - 1) / 1024 + 1 - a / 1024)).foldl (fun x i => x.gate ((a / 1024 + i) * 1024)) x

/-- A write from an agent: through the riser gate, then into the array. -/
def Crucible.hbmWriteAs (x : Crucible) (src : HbmSource) (tag : Option Nat) (a : Nat) (bs : List Byte) (step : Option Nat) : Crucible :=
  (x.gates a bs.length).hbmStoreAs src tag a bs step

def Crucible.hbmWrite (x : Crucible) (src : HbmSource) (a : Nat) (bs : List Byte) (step : Option Nat) : Crucible :=
  x.hbmWriteAs src none a bs step

end Sys2Proof.Machine
end

