-- ==== Sys2Proof/Machine/PortOps.lean ====
section
/-!
DEFINITION. What a port does with a packet (R366–R368, R376, R396, R397, R400–R403), and the choice of a port (R369, R405, R407).
-/
namespace Sys2Proof

open Machine

/-! ### The bytes of a packet (R396, R397) -/

def Packet.ext (p : Packet) : List Byte :=
  (if p.modmask then leBytes 8 p.mask.toNat else []) ++ (if p.coremask then leBytes 16 p.mask.toNat else [])

def flagBit (b : Bool) (i : Nat) : Nat := if b then 2 ^ i else 0

def Packet.header (p : Packet) : List Byte :=
  [p.kind, BitVec.ofNat 8 (p.cls.toNat + flagBit p.escape 2 + flagBit p.modmask 3 + flagBit p.coremask 4 + flagBit p.unseq 5)] ++
    leBytes 2 p.epoch.toNat ++ leBytes 2 p.jobTag.toNat ++ leBytes 2 p.dstLoc.toNat ++ leBytes 2 p.srcLoc.toNat ++
    leBytes 2 (p.src.toNat + p.srcCru.toNat * 4096) ++ leBytes 2 p.len.toNat ++ leBytes 2 p.stream.toNat ++
    leBytes 4 p.psn.toNat ++ leBytes 4 p.aux.toNat ++ leBytes 8 p.addr.toNat

def Packet.bytes (p : Packet) : List Byte := p.header ++ p.ext ++ p.payload

/-- Flits it occupies (R396). -/
def Packet.flitCount (p : Packet) : Nat := (p.bytes.length + 63) / 64

def flitsOf (bs : List Byte) : Nat → List (BitVec 512)
  | 0 => []
  | n + 1 => BitVec.ofNat 512 (leNat (bs.take 64)) :: flitsOf (bs.drop 64) n

def Packet.flits (p : Packet) : List (BitVec 512) := flitsOf p.bytes p.flitCount

end Sys2Proof

namespace Sys2Proof.Machine

/-! ### Reaching a port -/

def Crucible.port (x : Crucible) (n : Nat) : Port := Store.get portDefault x.ports n
def Crucible.putPort (x : Crucible) (n : Nat) (p : Port) : Crucible := { x with ports := Store.set portDefault x.ports n p }
def Crucible.modPort (x : Crucible) (n : Nat) (f : Port → Port) : Crucible := x.putPort n (f (x.port n))

/-- FAB_COUNT_n_k (R395). -/
def Port.bump (p : Port) (k : Nat) : Port := { p with count := Store.modify zero32 p.count k (fun v => satAdd v 1) }

/-- Physical lanes of port n (R369). -/
def laneTotal (n : Nat) : Nat := if n < 13 then 9 else 17

/-- The lanes of a mask, in increasing order. -/
def lanesOf (m : BitVec 17) : List Nat := (List.range 17).filter (fun l => m.getLsbD l)

def laneBit (l : Nat) : BitVec 17 := (1 : BitVec 17) <<< l

/-- The active lanes after a change. -/
def LaneChange.apply (g : LaneChange) (a : BitVec 17) : BitVec 17 :=
  if g.join then
    match g.out with
    | some o => (a ||| laneBit g.lane) &&& ~~~laneBit o
    | none => a ||| laneBit g.lane
  else a &&& ~~~laneBit g.lane

/-- The active lanes for codeword n: changes take effect from their switch points on (R382). -/
def Port.activeAt (p : Port) (n : Nat) : BitVec 17 := p.changes.foldl (fun a g => if g.at_ ≤ n then g.apply a else a) p.active

/-- The lane codeword n is dealt to (R368, R377). -/
def Port.laneOf (p : Port) (n : Nat) : Nat :=
  let ls := lanesOf (p.activeAt n)
  if ls.length = 0 then 0 else ls.getD ((n + p.extra) % ls.length) 0

/-- Every codeword before this number has been received, correctable. -/
def Port.received (p : Port) : Nat := (p.bad.head?.map Missing.number).getD p.rxNext

/-- The codeword number nearest after `n` that a 12-bit number names; one in the half behind it has passed. -/
def numberAt (n : Nat) (v : BitVec 12) : Nat :=
  let d := (v - BitVec.ofNat 12 n).toNat
  if d < 2048 then n + d else n

/-- The port that the bridge between crucibles c and d is at c (R369). -/
def bridgePort (c d : Cru) : Nat := 13 + (d.val + 3 - c.val) % 4

/-! ### Sending (R368, R376, R401, R402) -/

def replayDepth : Nat := 256

/-- Packet flits of a codeword: an odd one carries a control flit (R367). -/
def flitRoom (n : Nat) : Nat := if n % 2 = 1 then 9 else 10

/-- The control flit of codeword n: every credit freed since the last one, and the next link message. -/
def Port.controlFlit (p : Port) (n : Nat) : Option ControlFlit :=
  if n % 2 = 1 then
    some ⟨(List.range 7).map (fun v => BitVec.ofNat 12 (Store.get zeroNat p.freed v)), p.msgs.headD ⟨0, 0, 0⟩⟩
  else none

/-- A control flit returns credit or carries a message. -/
def ControlFlit.says (f : ControlFlit) : Bool := f.credits.any (· ≠ 0) || f.msg.type != 0

/-- The next codeword, with packet flits `fs`. ACK names the last codeword received in order; before the first it covers none (R366). One
that carries anything enters the replay buffer. With a full buffer it is an idle codeword, carries nothing, and is not held (R376). -/
def Port.deal (p : Port) (fs : List (BitVec 512)) : Port :=
  let n := p.txNext
  let flit := if p.replay.length < replayDepth then p.controlFlit n else none
  let w : TxCodeword := ⟨n, p.laneOf n, BitVec.ofNat 12 (p.received + 4095), BitVec.ofNat 4 n, flit, fs⟩
  { p with txNext := n + 1, owed := p.owed + 1,
           freed := if flit.isSome then [] else p.freed, msgs := if flit.isSome then p.msgs.tail else p.msgs,
           replay := if !fs.isEmpty || flit.any ControlFlit.says then p.replay ++ [w] else p.replay }.bump 0

/-- Flits of the packet that is entering go into codewords as long as the replay buffer has room. -/
def Port.fill : Nat → Port → Port
  | 0, p => p
  | fuel + 1, p =>
    if p.txFlits.isEmpty || decide (replayDepth ≤ p.replay.length) then p
    else
      let room := flitRoom p.txNext
      Port.fill fuel ({ p with txFlits := p.txFlits.drop room }.deal (p.txFlits.take room))

def Port.creditOf (p : Port) (vc : Nat) : Nat := Store.get zeroNat p.credit vc

/-- A packet may enter the link: the one before has entered, credit is there for the whole packet, and the replay buffer has room (R376,
R401). A port on its way to Keep-alive takes none (R386). -/
def Port.canSend (p : Port) (vc : Nat) (q : Packet) : Bool :=
  p.mode == .up && !p.closing && p.txFlits.isEmpty && decide (q.flitCount ≤ p.creditOf vc) && decide (p.replay.length < replayDepth)

/-- The packet enters the link. -/
def Port.send (p : Port) (vc : Nat) (q : Packet) : Port :=
  let p := { p with credit := Store.set zeroNat p.credit vc (p.creditOf vc - q.flitCount), prog := p.prog + 1,
                    served := if vc = 0 then p.served else vc, txFlits := q.flits }
  p.fill q.flitCount

/-- Flits queued at the port on a virtual channel. -/
def Port.queued (p : Port) (vc : Nat) : Nat := ((p.waits.filter (fun w => w.vc == vc)).map (fun w => w.packet.flitCount)).sum

/-- The next packet that can leave: VC 0 first, the others in turn after the one served last (R402). -/
def Port.nextWait (p : Port) : Option CreditWait :=
  (0 :: (List.range 6).map (fun i => (p.served + i) % 6 + 1)).findSome? (fun vc =>
    match p.waits.find? (fun w => w.vc == vc) with
    | some w => if p.canSend vc w.packet then some w else none
    | none => none)

/-- Waiting packets leave as far as credit and the replay buffer allow. -/
def Port.drain (p : Port) (c : Cru) (n : PortIx) : Nat → Port × List Out
  | 0 => (p, [])
  | fuel + 1 =>
    match p.nextWait with
    | none => (p, [])
    | some w =>
      let (p, os) := ({ p with waits := p.waits.erase w }.send w.vc w.packet).drain c n fuel
      (p, .packet c n w.vc w.packet :: os)

/-- The packets that can leave port n do; resends that leave are counted (R435). -/
def Crucible.drainPort (x : Crucible) (c : Cru) (n : PortIx) : Crucible × List Out :=
  let p := x.port n.val
  let (q, os) := p.drain c n p.waits.length
  let left := p.waits.countP CreditWait.resend - q.waits.countP CreditWait.resend
  let y := x.putPort n.val q
  ({ y with xport := { y.xport with count := (List.range left).foldl (fun m _ => Store.modify zero32 m 0 (fun v => satAdd v 1)) y.xport.count } }, os)

/-- A packet comes to a port on a virtual channel. -/
def Crucible.enterWait (x : Crucible) (c : Cru) (n : PortIx) (w : CreditWait) : Crucible × List Out :=
  (x.modPort n.val (fun p => { p with waits := p.waits ++ [w] })).drainPort c n

def Crucible.enterPort (x : Crucible) (c : Cru) (n : PortIx) (vc : Nat) (q : Packet) : Crucible × List Out :=
  x.enterWait c n ⟨vc, q, false⟩

/-! ### The stream of codewords (R365, R366, R376, R401) -/

/-- How far a lane gets in a tick of 40 ns, in 1/17 of a codeword at 224 Gbit/s: 28/17 of a codeword there (R365). -/
def Port.speed (p : Port) : Nat := if p.rate = 0 then 28 else if p.rate = 1 then 14 else 7

def Port.idleRun : Nat → Port → Port
  | 0, p => p
  | n + 1, p => Port.idleRun n (p.deal [])

/-- A tick of an Up port: what its lanes have time for beyond the codewords already sent goes out as codewords without packet flits. -/
def Port.stream (p : Port) : Port :=
  if p.mode = .up then
    let t := p.phase + p.speed
    let room := t / 17 * (lanesOf p.active).length
    { Port.idleRun (room - p.owed) p with owed := p.owed - room, phase := t % 17 }
  else p

/-! ### The choice of a port (R405, R407, R412) -/

/-- Port i of crucible c is usable for every module listed. R405 says what usable for one module is; for a MODMASK packet the model asks it
of every module selected (log 162, DESIGN CHOICE). -/
def Crucible.usable (x : Crucible) (c : Cru) (ms : List Nat) (i : Nat) : Bool :=
  (x.port i).mode == .up && ms.all (fun m => (Store.get planeDefault x.xport.plane m).getLsbD (13 * c.val + i))

/-- The ports 0 to 12, in increasing order after the one chosen last. -/
def Crucible.portOrder (x : Crucible) : List Nat := (List.range 13).map (fun i => (x.chooseLast + 1 + i) % 13)

/-- The first port of a list with the fewest queued flits. -/
def Crucible.fewest (x : Crucible) (vc : Nat) : List Nat → Option Nat
  | [] => none
  | i :: rest =>
    match x.fewest vc rest with
    | none => some i
    | some j => if (x.port i).queued vc ≤ (x.port j).queued vc then some i else some j

/-- The port for a packet to the modules listed: a bridge inside the module; another port than `avoid` if one is usable. -/
def Crucible.choosePort (x : Crucible) (c : Cru) (ms : List Nat) (d : Cru) (vc : Nat) (avoid : Option Nat) : Option PortIx :=
  if ms = [x.xport.job.live.self.toNat] then
    let b := bridgePort c d
    if d ≠ c ∧ (x.port b).mode = .up then some (Fin.ofNat 16 b) else none
  else
    let us := x.portOrder.filter (x.usable c ms)
    let pick := match x.fewest vc (us.filter (fun i => some i != avoid)) with
      | some i => some i
      | none => x.fewest vc us
    pick.map (Fin.ofNat 16)

/-- The port of an urgent message (R407). -/
def Crucible.urgentPort (x : Crucible) (c : Cru) (m : Nat) (d : Cru) : Option PortIx :=
  if m = x.xport.job.live.self.toNat then
    let b := bridgePort c d
    if d ≠ c ∧ (x.port b).mode = .up then some (Fin.ofNat 16 b) else none
  else ((List.range 13).find? (x.usable c [m])).map (Fin.ofNat 16)

end Sys2Proof.Machine
end

