-- ==== Sys2Proof/Machine/Signals.lean ====
section
/-!
DEFINITION. Signals at a tally word: completion signals, the order in which held ones and a blocked wait come (R89, R90, R123, R132,
R166, R336–R339).
-/
namespace Sys2Proof.Machine

/-- One signal into word `w`. -/
def PhysCore.tallyInc (p : PhysCore) (w : Nat) : PhysCore := p.setTally w (tallyPut (p.tallyWord w) (tallyCount (p.tallyWord w) + 1))

/-- One signal out of word `w`. -/
def PhysCore.tallyDec (p : PhysCore) (w : Nat) : PhysCore := p.setTally w (tallyPut (p.tallyWord w) (tallyCount (p.tallyWord w) - 1))

/-! ### One signal -/

/-- What a completion signal does at its word: applied, or held with FULL set (R123, R336). -/
def signalWord (p : PhysCore) (t : Option Nat) : PhysCore × Bool :=
  match t with
  | none => (p, true)
  | some w =>
    let v := p.tallyWord w
    if atCapacity v then (p.setTally w (tallySetFull v), false)
    else (p.setTally w (tallyPut v (tallyCount v + 1)), true)

/-- A completed operation counts for the watchdog in Halting, and a transfer always (R542). -/
def countCompletion (g : LogCore) (xfer : Bool) : LogCore :=
  let g := if g.mode == .halting then { g with progCore := g.progCore + 1 } else g
  if xfer then { g with progXfer := g.progXfer + 1 } else g

/-- The signal of a tensor entry: only the oldest entry signals (R166). -/
def Crucible.signalTensor (x : Crucible) (l i : Nat) (from_ : Phase) : Crucible :=
  let p := x.phys l
  match p.tq with
  | [] => x
  | e :: rest =>
    if i = 0 && e.phase == from_ then
      match signalWord p e.tally with
      | (p', true) => ((x.putPhys l { p' with tq := rest }).modLog l (fun g => countCompletion g false)).settle l
      | (p', false) => x.putPhys l { p' with tq := { e with phase := .held } :: rest }
    else x

def Crucible.signalVector (x : Crucible) (l i : Nat) (from_ : Phase) : Crucible :=
  let p := x.phys l
  match p.vq[i]? with
  | none => x
  | some e =>
    if e.phase == from_ then
      match signalWord p e.tally with
      | (p', true) => ((x.putPhys l { p' with vq := listDrop p.vq i }).modLog l (fun g => countCompletion g false)).settle l
      | (p', false) => x.putPhys l { p' with vq := listSet p.vq i { e with phase := .held } }
    else x

def Crucible.signalXfer (x : Crucible) (l i : Nat) (from_ : Phase) : Crucible :=
  let p := x.phys l
  match p.xq[i]? with
  | none => x
  | some e =>
    if e.phase == from_ then
      match signalWord p e.tally with
      | (p', true) => ((x.putPhys l { p' with xq := listDrop p.xq i }).modLog l (fun g => countCompletion g true)).settle l
      | (p', false) => x.putPhys l { p' with xq := listSet p.xq i { e with phase := .held } }
    else x

def Crucible.signal (x : Crucible) (l : Nat) (q : QueueKind) (i : Nat) (from_ : Phase) : Crucible :=
  if x.live then
    match q with
    | .tensor => x.signalTensor l i from_
    | .vector => x.signalVector l i from_
    | .transfer => x.signalXfer l i from_
  else x

/-! ### The order at one word (R132, R339) -/

/-- A blocked tly.wait finds COUNT at 1 or above (R339). -/
def Crucible.waitTakesSignal (x : Crucible) (l : Nat) : Crucible :=
  let g := x.log l
  let p := x.phys l
  if x.live && g.mode == .running then
    match g.waiting with
    | some (.tally w) => if tallyCount (p.tallyWord w) = 0 then x else x.retire l g (p.tallyDec w) p.seqNext
    | _ => x
  else x

/-- The held signal whose turn it is at word `w`: tensor, vector, transfer, and within a queue in the order of issue. -/
def PhysCore.firstHeld (p : PhysCore) (w : Nat) : Option (QueueKind × Nat) :=
  if (p.tq.head?.any (fun e => e.phase == .held && e.tally == some w)) then some (.tensor, 0)
  else match p.vq.findIdx? (fun e => e.phase == .held && e.tally == some w) with
    | some i => some (.vector, i)
    | none => (p.xq.findIdx? (fun e => e.phase == .held && e.tally == some w)).map (fun i => (.transfer, i))

/-- Held signals are applied for as long as the word is below capacity. -/
def Crucible.applyHeld (l w : Nat) : Nat → Crucible → Crucible
  | 0, x => x
  | n + 1, x =>
    match (x.phys l).firstHeld w with
    | none => x
    | some (q, i) => if atCapacity ((x.phys l).tallyWord w) then x else Crucible.applyHeld l w n (x.signal l q i .held)

/-- A wait blocked at word `w` takes a signal. -/
def Crucible.takeWait (x : Crucible) (l w : Nat) : Crucible :=
  if (x.log l).waiting == some (.tally w) then x.waitTakesSignal l else x

/-- What the cycles since the word last changed have done there: a blocked wait has taken a signal and held signals have been applied.
Two commands that act on one word lie at least a cycle apart (log 151). -/
def Crucible.settleWord (x : Crucible) (l w : Nat) : Crucible :=
  let n := (x.phys l).vq.length + (x.phys l).xq.length + 1
  Crucible.applyHeld l w n ((Crucible.applyHeld l w n (x.takeWait l w)).takeWait l w)

/-- Entry `i` of a queue has the next turn at its word. -/
def Crucible.isNext (x : Crucible) (l : Nat) (q : QueueKind) (i : Nat) : Bool :=
  let p := x.phys l
  let word := match q with
    | .tensor => p.tq[i]?.bind TensorEntry.tally
    | .vector => p.vq[i]?.bind VectorEntry.tally
    | .transfer => p.xq[i]?.bind XferEntry.tally
  match word with
  | none => true
  | some w => p.firstHeld w == some (q, i)

/-- A complete operation signals, after the signals that were held at its word. -/
def Crucible.completionSignal (x : Crucible) (l : Nat) (q : QueueKind) (i : Nat) : Crucible :=
  let p := x.phys l
  let settled := fun (w : Option Nat) => match w with
    | none => x
    | some w => if x.live then x.settleWord l w else x
  match q with
  | .tensor => x.signal l q i .complete
  | .vector => match p.vq[i]? with
    | none => x
    | some e =>
      let y := settled e.tally
      y.signal l q ((y.phys l).vq.findIdx (fun f => f.seq == e.seq)) .complete
  | .transfer => match p.xq[i]? with
    | none => x
    | some e =>
      let y := settled e.tally
      y.signal l q ((y.phys l).xq.findIdx (fun f => f.seq == e.seq)) .complete

end Sys2Proof.Machine
end

