-- ==== Sys2Proof/Machine/Mesh.lean ====
section
/-!
DEFINITION. Reads and writes inside one crucible: HBM space and core windows (R46–R50, R97, R150, R341, R492).
-/
namespace Sys2Proof.Machine

/-! ### Regions (R46–R48, R150) -/

/-- Where a range lies: HBM, a core's scratchpad, or its accumulator words. -/
inductive Region where
  | hbm (off : Nat)
  | scratch (core off : Nat)
  | acc (core word : Nat)
  deriving DecidableEq, Repr

def windowSize : Nat := 0x400000
def hbmSize : Nat := 2 ^ 36

/-- The region that holds the whole of `n` bytes at `off` of a space, or none (R150). An accumulator range starts on and covers
multiples of 4 bytes. -/
def regionOf (space off n : Nat) : Option Region :=
  if space = 0 then if off + n ≤ hbmSize then some (.hbm off) else none
  else if space = 1 then
    let l := off / windowSize
    let w := off % windowSize
    if l ≥ 500 then none
    else if w + n ≤ 0x100000 then some (.scratch l w)
    else if 0x100000 ≤ w ∧ w + n ≤ 0x120000 ∧ w % 4 = 0 ∧ n % 4 = 0 then some (.acc l ((w - 0x100000) / 4))
    else none
  else none

/-- The core and tally word an 8-byte aligned tally offset names (R47, R154). -/
def tallyPlace (off : Nat) : Option (Nat × Nat) :=
  let l := off / windowSize
  let w := off % windowSize
  if l < 500 ∧ 0x200000 ≤ w ∧ w < 0x200180 ∧ w % 8 = 0 then some (l, (w - 0x200000) / 8) else none

/-! ### Bytes -/

/-- `n` accumulator words as bytes. -/
def PhysCore.accBytes (p : PhysCore) (w : Nat) : Nat → List Byte
  | 0 => []
  | n + 1 => leBytes 4 (Store.get zero32 p.acc w).toNat ++ p.accBytes (w + 1) n

/-- Write bytes as accumulator words from word `w`. -/
def PhysCore.setAccBytes (p : PhysCore) (w : Nat) : List Byte → PhysCore
  | b0 :: b1 :: b2 :: b3 :: bs =>
    let v := BitVec.ofNat 32 (leNat [b0, b1, b2, b3])
    PhysCore.setAccBytes (p.putAcc w v (residue32 v)) (w + 1) bs
  | _ => p

/-- What a request answers (R398). -/
inductive Answer where
  | applied
  | refused
  /-- The core is Faulted or Clearing; its logical index. -/
  | targetFault (core : Nat)
  | badAddress
  deriving DecidableEq, Repr

/-- A request to a logical core is refused while it is Faulted or Clearing (R97). -/
def Crucible.refuses (x : Crucible) (l : Nat) : Bool := (x.log l).mode == .faulted || (x.log l).mode == .clearing

/-- Read `n` bytes of a region. `own` is the core whose own window needs no check. -/
def Crucible.readRegion (x : Crucible) (src : HbmSource) (own : Option Nat) (r : Region) (n : Nat) (step : Option Nat) :
    Answer × List Byte × Crucible :=
  match r with
  | .hbm off =>
    let (bs, x) := x.hbmRead src off n step
    (.applied, bs, x)
  | .scratch l w => if own ≠ some l ∧ x.refuses l then (.targetFault l, [], x) else (.applied, Memory.readBytes (x.phys l).scratch w n, x)
  | .acc l w => if own ≠ some l ∧ x.refuses l then (.targetFault l, [], x) else (.applied, (x.phys l).accBytes w (n / 4), x)

/-- Write bytes to a region. A riser unit is refused (R492). -/
def Crucible.writeRegion (x : Crucible) (src : HbmSource) (own : Option Nat) (r : Region) (bs : List Byte) (step : Option Nat) :
    Answer × Crucible :=
  match r with
  | .hbm off => if x.riser.touchesRiser off bs.length then (.badAddress, x) else (.applied, x.hbmWrite src off bs step)
  | .scratch l w =>
    if own ≠ some l ∧ x.refuses l then (.targetFault l, x)
    else (.applied, x.modPhys l (fun p => p.writeScratch w bs))
  | .acc l w =>
    if own ≠ some l ∧ x.refuses l then (.targetFault l, x) else (.applied, x.modPhys l (fun p => p.setAccBytes w bs))

/-! ### Remote tally operations (R338, R341) -/

/-- A remote signal, after what its word's own core has done there: below capacity COUNT + 1; at capacity refused, only FULL := 1. -/
def Crucible.remoteSignal (x : Crucible) (own : Option Nat) (l w : Nat) : Answer × Crucible :=
  if own ≠ some l ∧ x.refuses l then (.targetFault l, x)
  else
    let x := x.settleWord l w
    let v := (x.phys l).tallyWord w
    if atCapacity v then (.refused, x.modPhys l (fun p => p.setTally w (tallySetFull v)))
    else (.applied, x.modPhys l (fun p => p.setTally w (tallyPut v (tallyCount v + 1))))

/-- A remote take: COUNT − 1, or refused at 0 with the word unchanged. -/
def Crucible.remoteTake (x : Crucible) (own : Option Nat) (l w : Nat) : Answer × Crucible :=
  if own ≠ some l ∧ x.refuses l then (.targetFault l, x)
  else
    let x := x.settleWord l w
    let v := (x.phys l).tallyWord w
    if tallyCount v = 0 then (.refused, x) else (.applied, x.modPhys l (fun p => p.setTally w (tallyPut v (tallyCount v - 1))))

/-! ### Writes to the cores of selected groups (R152, R419) -/

/-- Logical cores of crucible `c` that a 128-bit group mask selects. -/
def groupCores (mask : W128) (c : Nat) : List Nat :=
  (List.range 500).filter (fun l => mask.getLsbD (32 * c + l / 16))

/-- Write the same window bytes to each listed core that can take them; the lowest core that cannot. -/
def Crucible.writeCores (x : Crucible) (own : Option Nat) (w : Nat) (bs : List Byte) : List Nat → Option Nat × Crucible
  | [] => (none, x)
  | l :: ls =>
    match regionOf 1 (l * windowSize + w) bs.length with
    | none => x.writeCores own w bs ls
    | some r =>
      match x.writeRegion .fabric own r bs none with
      | (.targetFault k, x) =>
        let (_, x) := x.writeCores own w bs ls
        (some k, x)
      | (_, x) => x.writeCores own w bs ls

end Sys2Proof.Machine
end

