-- ==== Sys2Proof/Machine/Float.lean ====
section
/-!
DEFINITION. The element formats, exact values, rounding, conversion and arithmetic of spec/05 (R180–R209).
-/
namespace Sys2Proof.Machine

/-! ### Formats (R180) -/

/-- A float format: widths of exponent and fraction, bias, and its codes for infinities and NaN. -/
structure FloatFmt where
  eb : Nat
  mb : Nat
  bias : Nat
  /-- The format has infinities and NaNs at the all-ones exponent. -/
  ieee : Bool
  /-- The format has one NaN magnitude, all ones (FP8 E4M3). -/
  oneNan : Bool
  deriving DecidableEq, Repr

def fmtFp32 : FloatFmt := ⟨8, 23, 127, true, false⟩
def fmtBf16 : FloatFmt := ⟨8, 7, 127, true, false⟩
def fmtFp16 : FloatFmt := ⟨5, 10, 15, true, false⟩
def fmtE4m3 : FloatFmt := ⟨4, 3, 7, false, true⟩
def fmtE5m2 : FloatFmt := ⟨5, 2, 15, true, false⟩
def fmtE2m1 : FloatFmt := ⟨2, 1, 1, false, false⟩

/-- The value of a float code (R181): NaN, a signed infinity, or (−1)^neg × m × 2^e. -/
inductive FpVal where
  | nan
  | inf (neg : Bool)
  | fin (neg : Bool) (m : Nat) (e : Int)
  deriving DecidableEq, Repr

/-- The value of code `w` in format `f` (R180, R181). -/
def fpDecode (f : FloatFmt) (w : Nat) : FpVal :=
  let frac := w % 2 ^ f.mb
  let ex := w / 2 ^ f.mb % 2 ^ f.eb
  let neg := w / 2 ^ (f.mb + f.eb) % 2 == 1
  if f.ieee && ex == 2 ^ f.eb - 1 then (if frac = 0 then .inf neg else .nan)
  else if f.oneNan && ex == 2 ^ f.eb - 1 && frac == 2 ^ f.mb - 1 then .nan
  else if ex = 0 then .fin neg frac (1 - (f.bias : Int) - f.mb)
  else .fin neg (2 ^ f.mb + frac) ((ex : Int) - f.bias - f.mb)

def signBit (f : FloatFmt) (neg : Bool) : Nat := if neg then 2 ^ (f.eb + f.mb) else 0

/-- The canonical NaN (R182). E2M1 has none. -/
def fpNan (f : FloatFmt) : Nat :=
  if f.oneNan then 2 ^ (f.eb + f.mb) - 1 else (2 ^ f.eb - 1) * 2 ^ f.mb + 2 ^ (f.mb - 1)

def fpInf (f : FloatFmt) (neg : Bool) : Nat := signBit f neg + (2 ^ f.eb - 1) * 2 ^ f.mb

/-- The magnitude code of the largest finite value (R182). -/
def fpMaxCode (f : FloatFmt) : Nat :=
  if f.ieee then (2 ^ f.eb - 1) * 2 ^ f.mb - 1
  else if f.oneNan then 2 ^ (f.eb + f.mb) - 2
  else 2 ^ (f.eb + f.mb) - 1

/-! ### Rounding -/

/-- `n` times 2^k for k ≥ 0. -/
def shiftUp (n : Nat) (k : Int) : Nat := n * 2 ^ k.toNat

/-- The quotient of m × 2^e by the quantum 2^q, and the remainder and size of the step it leaves: floor, remainder, step. -/
def quantise (m : Nat) (e q : Int) : Nat × Nat × Nat :=
  if q ≤ e then (shiftUp m (e - q), 0, 1)
  else let step := 2 ^ (q - e).toNat
       (m / step, m % step, step)

/-- Round to nearest, ties to even. -/
def roundRne (x : Nat × Nat × Nat) : Nat :=
  if x.2.1 * 2 > x.2.2 || (x.2.1 * 2 == x.2.2 && x.1 % 2 == 1) then x.1 + 1 else x.1

/-- Stochastic rounding (R205): away from zero when rand < floor(fraction × 2^32). -/
def roundSr (rand : Nat) (x : Nat × Nat × Nat) : Nat :=
  if x.2.1 = 0 then x.1
  else if rand < x.2.1 * 2 ^ 32 / x.2.2 then x.1 + 1 else x.1

/-- The quantum of the grid of R199 at m × 2^e, m not 0: the normal spacing, and below the smallest normal the subnormal one. -/
def fpQuantum (f : FloatFmt) (m : Nat) (e : Int) : Int :=
  max ((Nat.log2 m : Int) + e) (1 - (f.bias : Int)) - f.mb

/-- The code of n × 2^q, a grid value with n ≤ 2^(mb+1), as a magnitude code without upper bound. -/
def fpCode (f : FloatFmt) (n : Nat) (q : Int) : Nat :=
  let n' := if n = 2 ^ (f.mb + 1) then 2 ^ f.mb else n
  let q' := if n = 2 ^ (f.mb + 1) then q + 1 else q
  if n' < 2 ^ f.mb then n'
  else (q' + f.mb + f.bias).toNat * 2 ^ f.mb + (n' - 2 ^ f.mb)

/-- Round m × 2^e to FP32 by round to nearest even; too large becomes an infinity (R187). -/
def fp32Round (neg : Bool) (m : Nat) (e : Int) : W32 :=
  if m = 0 then BitVec.ofNat 32 (signBit fmtFp32 neg)
  else
    let q := fpQuantum fmtFp32 m e
    let c := fpCode fmtFp32 (roundRne (quantise m e q)) q
    BitVec.ofNat 32 (if c > fpMaxCode fmtFp32 then fpInf fmtFp32 neg else signBit fmtFp32 neg + c)

def fp32Nan : W32 := 0x7FC00000
def fp32 (w : W32) : FpVal := fpDecode fmtFp32 w.toNat

/-- A value as an FP32 word, rounded to nearest even. -/
def fp32Of : FpVal → W32
  | .nan => fp32Nan
  | .inf neg => BitVec.ofNat 32 (fpInf fmtFp32 neg)
  | .fin neg m e => fp32Round neg m e

/-! ### Exact arithmetic on values -/

/-- The exact product (R191): IEEE rules for special values. -/
def fpMul : FpVal → FpVal → FpVal
  | .nan, _ => .nan
  | _, .nan => .nan
  | .inf a, .inf b => .inf (a != b)
  | .inf a, .fin b m _ => if m = 0 then .nan else .inf (a != b)
  | .fin a m _, .inf b => if m = 0 then .nan else .inf (a != b)
  | .fin a m e, .fin b n d => .fin (a != b) (m * n) (e + d)

def signedInt (neg : Bool) (m : Nat) : Int := if neg then -(m : Int) else m

/-- The exact sum. Two zeros keep a common sign; any other zero sum is +0 (round to nearest even). -/
def fpAdd : FpVal → FpVal → FpVal
  | .nan, _ => .nan
  | _, .nan => .nan
  | .inf a, .inf b => if a = b then .inf a else .nan
  | .inf a, .fin _ _ _ => .inf a
  | .fin _ _ _, .inf b => .inf b
  | .fin a m e, .fin b n d =>
    if m = 0 && n = 0 then .fin (a && b) 0 0
    else
      let lo := min e d
      let t := signedInt a (shiftUp m (e - lo)) + signedInt b (shiftUp n (d - lo))
      .fin (decide (t < 0)) t.natAbs lo

def fpNeg : FpVal → FpVal
  | .nan => .nan
  | .inf a => .inf (!a)
  | .fin a m e => .fin (!a) m e

/-- The FP32 lane operations of R145 and R187. -/
def fp32Add (a b : W32) : W32 := fp32Of (fpAdd (fp32 a) (fp32 b))
def fp32Sub (a b : W32) : W32 := fp32Of (fpAdd (fp32 a) (fpNeg (fp32 b)))
def fp32Mul (a b : W32) : W32 := fp32Of (fpMul (fp32 a) (fp32 b))
/-- vfma rounds once (R145). -/
def fp32Fma (a b c : W32) : W32 := fp32Of (fpAdd (fpMul (fp32 a) (fp32 b)) (fp32 c))
def fp32Abs (a : W32) : W32 := a &&& 0x7FFFFFFF
def fp32Neg (a : W32) : W32 := a ^^^ 0x80000000

def isNan (w : W32) : Bool := fp32 w == .nan

/-- A word with any NaN made canonical (R185). -/
def fp32Canon (w : W32) : W32 := if isNan w then fp32Nan else w

/-- The integer significand of a float code: the fraction with its hidden bit, 0 for an infinity or a NaN (R465). -/
def significandOf (f : FloatFmt) (w : Nat) : Int :=
  let m := w % 2 ^ f.mb
  match fpDecode f w with
  | .nan | .inf _ => 0
  | _ => if w / 2 ^ f.mb % 2 ^ f.eb = 0 then (m : Int) else ((2 ^ f.mb + m : Nat) : Int)

/-- The order of R188 as a number: −0 just below +0. -/
def orderKey (w : W32) : Int :=
  if w.toNat ≥ 2 ^ 31 then -((w.toNat - 2 ^ 31 : Nat) : Int) - 1 else w.toNat

/-- The larger of two (R188). -/
def fp32Max (a b : W32) : W32 :=
  if isNan a || isNan b then fp32Nan else if orderKey a < orderKey b then b else a

/-- The smaller of two (R188). -/
def fp32Min (a b : W32) : W32 :=
  if isNan a || isNan b then fp32Nan else if orderKey b < orderKey a then b else a

/-! ### Conversion to a narrower format (R199–R202) -/

/-- A destination of a conversion. -/
inductive Dest where
  | flt (f : FloatFmt)
  | int (bits : Nat)
  deriving DecidableEq, Repr

/-- A converted element and what it adds to the saturated and the flushed counter. -/
structure Conv where
  code : Nat
  sat : Nat
  flush : Nat
  deriving DecidableEq, Repr

/-- The integer limit of a sign, in two's complement. -/
def intLimit (bits : Nat) (neg : Bool) : Nat := if neg then 2 ^ (bits - 1) else 2 ^ (bits - 1) - 1

def intCode (bits : Nat) (neg : Bool) (n : Nat) : Nat := if neg then (2 ^ bits - n) % 2 ^ bits else n

/-- Conversion of a value (R199); `rand` is used under stochastic rounding (R205). The largest finite value of an integer destination is
the limit of the source's sign: 128 below zero in INT8 (log 118, DEDUCED). -/
def convert (d : Dest) (rand : Option Nat) (v : FpVal) : Conv :=
  match d, v with
  | .flt f, .nan => ⟨fpNan f, 0, 0⟩
  | .int _, .nan => ⟨0, 0, 1⟩
  | .flt f, .inf neg => if f.ieee then ⟨fpInf f neg, 0, 0⟩ else ⟨signBit f neg + fpMaxCode f, 1, 0⟩
  | .int b, .inf neg => ⟨intLimit b neg, 1, 0⟩
  | .flt f, .fin neg m e =>
    if m = 0 then ⟨signBit f neg, 0, 0⟩
    else
      let q := fpQuantum f m e
      let x := quantise m e q
      let above := decide (fpCode f x.1 q > fpMaxCode f) || (fpCode f x.1 q == fpMaxCode f && x.2.1 != 0)
      let n := match rand with
        | some r => if above then roundRne x else roundSr r x
        | none => roundRne x
      let c := fpCode f n q
      if c > fpMaxCode f then ⟨signBit f neg + fpMaxCode f, 1, 0⟩
      else if c = 0 then ⟨signBit f neg, 0, 1⟩
      else ⟨signBit f neg + c, 0, 0⟩
  | .int b, .fin neg m e =>
    if m = 0 then ⟨0, 0, 0⟩
    else
      let x := quantise m e 0
      let lim := if neg then 2 ^ (b - 1) else 2 ^ (b - 1) - 1
      let above := decide (x.1 > lim) || (x.1 == lim && x.2.1 != 0)
      let n := match rand with
        | some r => if above then roundRne x else roundSr r x
        | none => roundRne x
      if n > lim then ⟨intLimit b neg, 1, 0⟩
      else if n = 0 then ⟨0, 0, 1⟩
      else ⟨intCode b neg n, 0, 0⟩

/-- The value of a two's complement integer. -/
def intVal (bits w : Nat) : FpVal :=
  if w % 2 ^ bits ≥ 2 ^ (bits - 1) then .fin true (2 ^ bits - w % 2 ^ bits) 0 else .fin false (w % 2 ^ bits) 0

/-- The value times 2^k, exactly. -/
def fpScale (k : Int) : FpVal → FpVal
  | .fin neg m e => .fin neg m (e + k)
  | v => v

/-- The mixing function of R206. -/
def srMix (z : W64) : W64 :=
  let z := (z ^^^ (z >>> 30)) * 0xBF58476D1CE4E5B9#64
  let z := (z ^^^ (z >>> 27)) * 0x94D049BB133111EB#64
  z ^^^ (z >>> 31)

/-- rand of R206, from the global core index, the step, the sequence number and the element index. -/
def srRand (g : Nat) (step : W48) (seq : W32) (e : Nat) : Nat :=
  let k0 : W64 := step.setWidth 64 + (BitVec.ofNat 64 g <<< 48)
  let k1 : W64 := seq.setWidth 64 + (BitVec.ofNat 64 e <<< 32)
  let x := srMix (k0 ^^^ (k1 * 0x9E3779B97F4A7C15#64))
  let x := srMix (x + k0)
  (x >>> 32).toNat

/-! ### Block scales (R201, R202) -/

/-- Compare m × 2^e with n × 2^d: is the first at most the second. -/
def dyadicLe (m : Nat) (e : Int) (n : Nat) (d : Int) : Bool :=
  let lo := min e d
  decide (shiftUp m (e - lo) ≤ shiftUp n (d - lo))

/-- The largest finite magnitude of a destination, as m × 2^e (R201: 127 for INT8). -/
def destMax : Dest → Nat × Int
  | .int b => (2 ^ (b - 1) - 1, 0)
  | .flt f => match fpDecode f (fpMaxCode f) with
    | .fin _ m e => (m, e)
    | _ => (0, 0)

/-- The smallest s from `s` on, within `fuel` steps, with a ≤ maxF × 2^s. -/
def scaleSearch (mx : Nat × Int) (m : Nat) (e : Int) (s : Int) : Nat → Int
  | 0 => s
  | fuel + 1 => if dyadicLe m e mx.1 (mx.2 + s) then s else scaleSearch mx m e (s + 1) fuel

/-- The E8M0 code of a block of FP32 words (R201). -/
def blockScale (d : Dest) (ws : List W32) : Byte :=
  if ws.any (fun w => match fp32 w with | .fin _ _ _ => false | _ => true) then 0xFF
  else
    let a := ws.foldl (fun (b : Nat) (w : W32) => max b (w.toNat % 2 ^ 31)) 0
    if a = 0 then 0x00
    else match fpDecode fmtFp32 a with
      | .fin _ m e => BitVec.ofInt 8 (127 + scaleSearch (destMax d) m e (-127) 254)
      | _ => 0xFF

/-- A BSCALED conversion of a value under block code `c` (R202). Under 0xFF an INT32 destination is treated as INT8 (log 119,
DEDUCED). -/
def convertScaled (d : Dest) (rand : Option Nat) (c : Byte) (v : FpVal) : Conv :=
  if c = 0xFF then (match d with | .flt f => ⟨fpNan f, 0, 0⟩ | .int _ => ⟨0, 0, 1⟩)
  else convert d rand (fpScale (127 - (c.toNat : Int)) v)

/-! ### The four function instructions (R189, R190) -/

/-- One ulp of a finite FP32 word, as a power of two. -/
def ulpExp (w : W32) : Int :=
  let ex : Nat := w.toNat / 2 ^ 23 % 256
  (if ex = 0 then 1 else (ex : Int)) - 127 - 23

/-- The floor of the square root of `n`, found one bit at a time from bit `k - 1` down. -/
def sqrtBits (n : Nat) (r : Nat) : Nat → Nat
  | 0 => r
  | k + 1 => let t := r + 2 ^ k
             if t * t ≤ n then sqrtBits n t k else sqrtBits n r k

def isqrt (n : Nat) : Nat := sqrtBits n 0 (Nat.log2 n / 2 + 1)

/-- Use a candidate where it is allowed, else the default. -/
def pickAllowed (cand : W32) (ok : Bool) (dflt : W32) : W32 := if ok then cand else dflt

/-- |y − 1/x| ≤ 1 ulp of y, for x = m × 2^e with sign `neg`. -/
def rcpAllowed (neg : Bool) (m : Nat) (e : Int) (y : W32) : Bool :=
  match fp32 y with
  | .fin s n d =>
    -- the sign of the result is that of x; |n m 2^(d+e) − 1| against m × 2^(u+e)
    decide (s = neg) &&
      (match fpAdd (.fin false (n * m) (d + e)) (.fin true 1 0) with
       | .fin _ t k => dyadicLe t k m (ulpExp y + e)
       | _ => false)
  | _ => false

/-- 1/x rounded to nearest (a sticky bit below 300 bits of quotient). -/
def rcpNearest (neg : Bool) (m : Nat) (e : Int) : W32 :=
  let one : Nat := 2 ^ 300
  let t : Nat := 2 * (one / m) + (if one % m = 0 then 0 else 1)
  fp32Round neg t (-301 - e)

/-- vrcp.f32 (R189). -/
def fp32Rcp (x : W32) : W32 :=
  match fp32 x with
  | .nan => fp32Nan
  | .inf neg => BitVec.ofNat 32 (signBit fmtFp32 neg)
  | .fin neg m e =>
    if m = 0 then BitVec.ofNat 32 (fpInf fmtFp32 neg)
    else
      let y := Config.rcpCandidate x
      pickAllowed y (rcpAllowed neg m e y) (rcpNearest neg m e)

/-- y's distance to 1/√(m × 2^e) is at most one ulp: (y − u)² x ≤ 1 ≤ (y + u)² x. -/
def rsqrtAllowed (m : Nat) (e : Int) (y : W32) : Bool :=
  match fp32 y with
  | .fin false n d =>
    -- n counts ulps of y, since d is the exponent of its last place
    dyadicLe ((n - 1) * (n - 1) * m) (2 * d + e) 1 0 && dyadicLe 1 0 ((n + 1) * (n + 1) * m) (2 * d + e)
  | _ => false

/-- 1/√(m × 2^e), rounded to nearest from 160 or more bits. -/
def rsqrtNearest (m : Nat) (e : Int) : W32 :=
  -- make the exponent even, then 1/√m' = √(2^400 / m') / 2^200
  let m' := if e % 2 = 0 then m else 2 * m
  let e' := if e % 2 = 0 then e else e - 1
  let r := isqrt (2 ^ 400 / m')
  fp32Round false (2 * r + 1) (-201 - e' / 2)

/-- vrsqrt.f32 (R189). -/
def fp32Rsqrt (x : W32) : W32 :=
  match fp32 x with
  | .nan => fp32Nan
  | .inf neg => if neg then fp32Nan else 0
  | .fin neg m e =>
    if m = 0 then BitVec.ofNat 32 (fpInf fmtFp32 neg)
    else if neg then fp32Nan
    else
      let y := Config.rsqrtCandidate x
      pickAllowed y (rsqrtAllowed m e y) (rsqrtNearest m e)

/-- 2^(f / 2^k) in units of 2^-120, with `root` = 2^(2^-1) in those units: the product of the roots of f's bits from the top. -/
def exp2Frac (f : Nat) (root acc : Nat) : Nat → Nat
  | 0 => acc
  | k + 1 =>
    let acc' := if f / 2 ^ k % 2 = 1 then acc * root / 2 ^ 120 else acc
    exp2Frac f (isqrt (root * 2 ^ 120)) acc' k

/-- 2^x for x = ±m × 2^e, as n × 2^d, to a relative error below 2^-63; a result below 2^-300 is taken as 2^-300 (log 20). -/
def exp2Approx (neg : Bool) (m : Nat) (e : Int) : Nat × Int :=
  let scaled : Int := signedInt neg (if e ≥ -64 then shiftUp m (e + 64) else m / 2 ^ (-64 - e).toNat)
  let i := scaled / 2 ^ 64
  let f := (scaled % 2 ^ 64).toNat
  if i < -300 then (1, -300)
  else (exp2Frac f (isqrt (2 * 2 ^ 240)) (2 ^ 120) 64, i - 120)

/-- |y − n × 2^d| ≤ k × 2^u. -/
def withinOf (y : W32) (neg : Bool) (n : Nat) (d : Int) (k : Nat) (u : Int) : Bool :=
  match fp32 y with
  | .fin s m e =>
    match fpAdd (.fin s m e) (.fin (!neg) n d) with
    | .fin _ t c => dyadicLe t c k u
    | _ => false
  | _ => false

/-- vexp2.f32 (R189). -/
def fp32Exp2 (x : W32) : W32 :=
  match fp32 x with
  | .nan => fp32Nan
  | .inf neg => if neg then 0 else BitVec.ofNat 32 (fpInf fmtFp32 false)
  | .fin neg m e =>
    if m = 0 then 0x3F800000
    else if !neg && dyadicLe 128 0 m e then BitVec.ofNat 32 (fpInf fmtFp32 false)
    else
      let a := exp2Approx neg m e
      let y := Config.exp2Candidate x
      pickAllowed y (withinOf y false a.1 a.2 2 (ulpExp y)) (fp32Round false a.1 a.2)

/-- The binary digits of log2 of z (in units of 2^-120, from 1 to 2), `k` of them. -/
def log2Digits (z acc : Nat) : Nat → Nat
  | 0 => acc
  | k + 1 =>
    let w := z * z / 2 ^ 120
    if w ≥ 2 ^ 121 then log2Digits (w / 2) (2 * acc + 1) k else log2Digits w (2 * acc) k

/-- log2 of m × 2^e as (negative, n, exponent), to about 90 bits after the point. -/
def log2Approx (m : Nat) (e : Int) : Bool × Nat × Int :=
  let l := Nat.log2 m
  let z := if l ≤ 120 then m * 2 ^ (120 - l) else m / 2 ^ (l - 120)
  let t : Int := ((l : Int) + e) * 2 ^ 90 + log2Digits z 0 90
  (decide (t < 0), t.natAbs, -90)

/-- vlog2.f32 (R189). From 0.5 to 2 the absolute bound of 2^-22 holds in place of the bound in ulps, not beside it (log 20, DESIGN CHOICE). -/
def fp32Log2 (x : W32) : W32 :=
  match fp32 x with
  | .nan => fp32Nan
  | .inf neg => if neg then fp32Nan else BitVec.ofNat 32 (fpInf fmtFp32 false)
  | .fin neg m e =>
    if m = 0 then BitVec.ofNat 32 (fpInf fmtFp32 true)
    else if neg then fp32Nan
    else if x = 0x3F800000 then 0
    else
      let a := log2Approx m e
      let y := Config.log2Candidate x
      let near := dyadicLe 1 (-1) m e && dyadicLe m e 2 0
      pickAllowed y (if near then withinOf y a.1 a.2.1 a.2.2 1 (-22) else withinOf y a.1 a.2.1 a.2.2 2 (ulpExp y))
        (fp32Round a.1 a.2.1 a.2.2)

/-! ### The products of the array (R191, R193) -/

/-- hi(v): the low 12 bits of the 24-bit significand cleared (R193). -/
def hiPart (m : Nat) : Nat := m / 4096 * 4096

/-- The three-pass FP32 product (R193). -/
def fp32Product (x w : FpVal) : FpVal :=
  match x, w with
  | .fin a m e, .fin b n d =>
    let t := hiPart m * hiPart n + hiPart m * (n - hiPart n) + (m - hiPart m) * hiPart n
    .fin (a != b) t (e + d)
  | _, _ => fpMul x w

end Sys2Proof.Machine
end

