-- ==== Sys2Proof/Machine/Descriptor.lean ====
section
/-!
DEFINITION. Tensor descriptors (R77–R80), their tiles in the scratchpad (R138, R161, R183), and the descriptor instructions (R130):
opcodes 0x40 to 0x44.
-/
namespace Sys2Proof.Machine

/-! ### Fields (R77) -/

def descBase (d : W128) : Nat := (d.extractLsb' 0 20).toNat
def descFormat (d : W128) : BitVec 4 := d.extractLsb' 20 4
def descTranspose (d : W128) : Bool := d.getLsbD 24
def descRows (d : W128) : Nat := (d.extractLsb' 32 16).toNat
def descCols (d : W128) : Nat := (d.extractLsb' 48 16).toNat
def descStride (d : W128) : Nat := (d.extractLsb' 64 20).toNat
def descAuxBase (d : W128) : Nat := (d.extractLsb' 96 20).toNat
def descAuxMode (d : W128) : BitVec 2 := d.extractLsb' 116 2

/-- A reserved field is not 0. -/
def descReserved (d : W128) : Bool :=
  decide (d.extractLsb' 25 7 ≠ 0) || decide (d.extractLsb' 84 12 ≠ 0) || decide (d.extractLsb' 118 10 ≠ 0)

/-- Element size in bits of a FORMAT code (R78). -/
def formatBits (f : BitVec 4) : Nat :=
  match f.toNat with
  | 3 => 4
  | 4 => 4
  | 5 => 16
  | 6 => 16
  | 7 => 32
  | 8 => 32
  | _ => 8

def is4Bit (f : BitVec 4) : Bool := f == 3 || f == 4

/-- Bytes of `cols` elements of a row. -/
def rowBytes (f : BitVec 4) (cols : Nat) : Nat := (cols * formatBits f + 7) / 8

/-- One past the tile's last byte (R79). -/
def descEnd (d : W128) : Nat := descBase d + (descRows d - 1) * descStride d + rowBytes (descFormat d) (descCols d)

def descEmpty (d : W128) : Bool := descRows d == 0 || descCols d == 0

/-- The conditions of R79, the instruction's own limits apart. An empty tile passes them all (log 117). -/
def badDesc (d : W128) : Bool :=
  !descEmpty d &&
    (descReserved d || decide ((descFormat d).toNat ≥ 10)
      || decide (descBase d % max 1 (formatBits (descFormat d) / 8) ≠ 0)
      || (is4Bit (descFormat d) && decide (descCols d % 2 ≠ 0))
      || (decide (descAuxMode d ≠ 0) && !is4Bit (descFormat d))
      || decide (descEnd d > 0x100000))

/-- Logical rows and columns (R138). -/
def logicalRows (d : W128) : Nat := if descTranspose d then descCols d else descRows d
def logicalCols (d : W128) : Nat := if descTranspose d then descRows d else descCols d

/-! ### Elements -/

/-- The code of stored element (r, c) (R77, R183). -/
def tileStored (m : Memory) (d : W128) (r c : Nat) : Nat :=
  let row := descBase d + r * descStride d
  if is4Bit (descFormat d) then
    (Memory.read m (row + c / 2)).toNat / (if c % 2 = 0 then 1 else 16) % 16
  else leNat (Memory.readBytes m (row + c * (formatBits (descFormat d) / 8)) (formatBits (descFormat d) / 8))

/-- The code of logical element (i, j). -/
def tileAt (m : Memory) (d : W128) (i j : Nat) : Nat :=
  if descTranspose d then tileStored m d j i else tileStored m d i j

/-- The value of a code of a FORMAT (R181). -/
def formatVal (f : BitVec 4) (code : Nat) : FpVal :=
  match f.toNat with
  | 0 => intVal 8 code
  | 1 => fpDecode fmtE4m3 code
  | 2 => fpDecode fmtE5m2 code
  | 3 => intVal 4 code
  | 4 => fpDecode fmtE2m1 code
  | 5 => fpDecode fmtBf16 code
  | 6 => fpDecode fmtFp16 code
  | 7 => fpDecode fmtFp32 code
  | _ => intVal 32 code

/-- The destination a FORMAT names (R142). -/
def formatDest (f : BitVec 4) : Dest :=
  match f.toNat with
  | 0 => .int 8
  | 1 => .flt fmtE4m3
  | 2 => .flt fmtE5m2
  | 5 => .flt fmtBf16
  | 6 => .flt fmtFp16
  | 7 => .flt fmtFp32
  | _ => .int 32

/-! ### The instructions -/

/-- tset: both halves from scalar registers. -/
def execTset (k : CoreId) (f : FmtD) (mismatch : Bool) (s : State) : Host.Outcome State Fault Refusal :=
  .next (s.scalarChecked mismatch k fun s => s.issue k 0x40 f.bits fun g p =>
    simpleIssue (decide (f.resv ≠ 0) || badReg16 f.td) g p (p.setT f.td (p.sreg f.rb ++ p.sreg f.ra)))

/-- tbase: BASE := aA[19:0]; aA of 0x100000 or above is SCRATCH_ADDRESS. -/
def execTbase (k : CoreId) (f : FmtD) (mismatch : Bool) (s : State) : Host.Outcome State Fault Refusal :=
  .next (s.scalarChecked mismatch k fun s => s.issue k 0x41 f.bits fun g p =>
    let a := p.areg f.ra
    ⟨decide (f.resv ≠ 0) || decide (f.rb ≠ 0) || badReg16 f.td || badReg16 f.ra, none, p.seqNext,
     [if a.toNat ≥ 0x100000 then some (0x03, a.setWidth 32) else none],
     .run g (p.setT f.td ((p.treg f.td).extractLsb' 20 108 ++ a.extractLsb' 0 20))⟩)

/-- trows: ROWS := sA[15:0]; sA of 65,536 or above is COUNT_LIMIT. -/
def execTrows (k : CoreId) (f : FmtD) (mismatch : Bool) (s : State) : Host.Outcome State Fault Refusal :=
  .next (s.scalarChecked mismatch k fun s => s.issue k 0x42 f.bits fun g p =>
    let v := p.sreg f.ra
    let d := p.treg f.td
    ⟨decide (f.resv ≠ 0) || decide (f.rb ≠ 0) || badReg16 f.td, none, p.seqNext,
     [if v.toNat ≥ 65536 then some (0x06, v.setWidth 32) else none],
     .run g (p.setT f.td (d.extractLsb' 48 80 ++ v.extractLsb' 0 16 ++ d.extractLsb' 0 32))⟩)

/-- tget.lo: sA := descriptor bits [63:0]. -/
def execTgetLo (k : CoreId) (f : FmtD) (mismatch : Bool) (s : State) : Host.Outcome State Fault Refusal :=
  .next (s.scalarChecked mismatch k fun s => s.issue k 0x43 f.bits fun g p =>
    simpleIssue (decide (f.resv ≠ 0) || decide (f.rb ≠ 0) || badReg16 f.td) g p
      (p.setS f.ra ((p.treg f.td).extractLsb' 0 64)))

/-- tget.hi: sA := descriptor bits [127:64]. -/
def execTgetHi (k : CoreId) (f : FmtD) (mismatch : Bool) (s : State) : Host.Outcome State Fault Refusal :=
  .next (s.scalarChecked mismatch k fun s => s.issue k 0x44 f.bits fun g p =>
    simpleIssue (decide (f.resv ≠ 0) || decide (f.rb ≠ 0) || badReg16 f.td) g p
      (p.setS f.ra ((p.treg f.td).extractLsb' 64 64)))

end Sys2Proof.Machine
end

