-- ==== Sys2Proof/Machine/Queue.lean ====
section
/-!
DEFINITION. Entering the queues (R80, R83, R84, R92, R122) and leaving them: completion signals (R89, R90, R123, R166, R336, R339).
-/
namespace Sys2Proof.Machine

/-! ### The TALLY field of a queued instruction (R122, R352) -/

/-- TALLY_INDEX, with the field value (R104). -/
def tallyFieldFault (tb : TallyBlock) (g : LogCore) (t : BitVec 6) : Option W32 :=
  if t.toNat = 63 then none
  else match tallyTarget tb g t.toNat with
    | some _ => none
    | none => some (t.setWidth 32)

/-- The completion tally's physical word. -/
def tallyFieldWord (tb : TallyBlock) (g : LogCore) (t : BitVec 6) : Option Nat :=
  if t.toNat = 63 then none else tallyTarget tb g t.toNat

/-- The count limit of R92: the last condition of R124. -/
def seqLimit (p : PhysCore) : Option (Byte × W32) := if p.seq ≥ 2 ^ 32 then some (0x06, detail32 p.seq) else none

/-! ### Entering -/

/-- The shape a tld.w entry leaves for the tmacs after it (R138, R140). -/
def loadShapeOf (e : TensorEntry) : LoadShape :=
  ⟨e.loadId, logicalRows e.desc, logicalCols e.desc, descFormat e.desc, descAuxMode e.desc⟩

/-- An empty tld.w leaves an empty set in standby as it enters (R162); a set that a waiting tmac is still to activate stays, since no
tmac ever activates an empty one (log 114). -/
def PhysCore.emptyStandby (p : PhysCore) (e : TensorEntry) : PhysCore :=
  if p.standbyFull && p.tq.any (fun b => b.loadId == p.standby.id && b.phase == .queued) then p
  else
    let sh := loadShapeOf e
    { p with standby := ⟨sh.id, sh.k, sh.n, sh.format, sh.aux, [], []⟩, standbyFull := true }

/-- A tensor instruction enters its queue. -/
def PhysCore.pushTensor (p : PhysCore) (e : TensorEntry) : PhysCore :=
  let p := if e.op = .load && e.phase == .complete then p.emptyStandby e else p
  { p with tq := p.tq ++ [e], seq := p.seq + 1, lastLoad := if e.op = .load then loadShapeOf e else p.lastLoad }

def PhysCore.pushVector (p : PhysCore) (e : VectorEntry) : PhysCore := { p with vq := p.vq ++ [e], seq := p.seq + 1 }
def PhysCore.pushXfer (p : PhysCore) (e : XferEntry) : PhysCore := { p with xq := p.xq ++ [e], seq := p.seq + 1 }

/-- The queue depths of R83. -/
def tensorDepth : Nat := 16
def vectorDepth : Nat := 16
def xferDepth : Nat := 64

/-- Enter the queue, or wait at issue while it is full (R84). -/
def enterTensor (g : LogCore) (p : PhysCore) (e : TensorEntry) : Effect :=
  if p.tq.length < tensorDepth then .run g (p.pushTensor e) else .wait (.tensor e)

def enterVector (g : LogCore) (p : PhysCore) (e : VectorEntry) : Effect :=
  if p.vq.length < vectorDepth then .run g (p.pushVector e) else .wait (.vector e)

def enterXfer (g : LogCore) (p : PhysCore) (e : XferEntry) : Effect :=
  if p.xq.length < xferDepth then .run g (p.pushXfer e) else .wait (.xfer e)

/-- QUEUE_SPACE_ISSUE: an entry has freed and the waiting instruction issues (R84). -/
def Crucible.queueSpaceIssue (x : Crucible) (l : Nat) : Crucible :=
  let g := x.log l
  let p := x.phys l
  if x.live && g.mode == .running then
    match g.waiting with
    | some (.tensor e) => if p.tq.length < tensorDepth then x.retire l g (p.pushTensor e) p.seqNext else x
    | some (.vector e) => if p.vq.length < vectorDepth then x.retire l g (p.pushVector e) p.seqNext else x
    | some (.xfer e) => if p.xq.length < xferDepth then x.retire l g (p.pushXfer e) p.seqNext else x
    | _ => x
  else x

def execQueueSpaceIssue (k : CoreId) (s : State) : Host.Outcome State Fault Refusal :=
  .next (s.atCrucible k.cru (fun x => x.queueSpaceIssue k.core.val))

/-! ### Signals -/

/-- COMPLETION_SIGNAL (R89): a complete operation signals its tally once and frees its entry, or holds its signal (R123). -/
def execCompletionSignal (k : CoreId) (q : QueueKind) (i : Nat) (s : State) : Host.Outcome State Fault Refusal :=
  .next (s.atCrucible k.cru (fun x => x.completionSignal k.core.val q i))

/-- HELD_SIGNAL_APPLIED (R123, R339): the held signal whose turn it is at its word finds it below capacity. At capacity it stays held. -/
def execHeldSignalApplied (k : CoreId) (q : QueueKind) (i : Nat) (s : State) : Host.Outcome State Fault Refusal :=
  .next (s.atCrucible k.cru (fun x => if x.isNext k.core.val q i then x.signal k.core.val q i .held else x))

/-- HELD_SIGNAL_DROP (R96, R107): 10 µs after a management halt, or a CLEAR_FAULT, the signals still held are dropped. -/
def Crucible.heldSignalDrop (x : Crucible) (l : Nat) : Crucible :=
  let g := x.log l
  let p := x.phys l
  if x.live && ((g.mode == .halting && g.mgmtHalt) || (g.mode == .faulted && g.clearReq && p.queuesDone)) && p.anyHeld then
    ((x.putPhys l p.dropHeld).putLog l { g with dropped := true }).settle l
  else x

/-- Outside a replay barrier the step is then reported faulty (R495). -/
def execHeldSignalDrop (k : CoreId) (s : State) : Host.Outcome State Fault Refusal :=
  .next (s.atCrucible k.cru (fun x =>
    let y := x.heldSignalDrop k.core.val
    if s.steps.barrier = none ∧ y ≠ x then y.markUnclean (some (x.phys k.core.val).step.toNat) else y))

end Sys2Proof.Machine
end

