-- ==== Sys2Proof/Machine/TransferOps.lean ====
section
/-!
DEFINITION. The transfer engine (R86, R89, R148–R154, R397–R399, R404, R414, R419, R420): where a side of a transfer lies, what is checked
at issue, how a transfer is cut into packets, and what its failure raises.
-/
namespace Sys2Proof.Machine

/-! ### Where a side lies -/

/-- A side `n` bytes further on. -/
def Side.plus (d : Side) (n : Nat) : Side :=
  match d with
  | .own off => .own (off + BitVec.ofNat 22 n)
  | .global a => .global (formAddr a (BitVec.ofNat 48 (gaOffset a + n)))

/-- Space and offset of a side within the issuing crucible, or none (R53, R148, R404). -/
def Crucible.localPlace (x : Crucible) (k : CoreId) : Side → Option (Nat × Nat)
  | .own off => some (1, k.core.val * windowSize + off.toNat)
  | .global a => if gaModule a = x.xport.job.live.self.toNat ∧ gaCrucible a = k.cru then some (gaSpace a, gaOffset a) else none

/-- Bits [31:0] of a side's address, for DETAIL: core `l` names its own window by its place in core-memory space (log 50). -/
def Side.detail (l : Nat) : Side → W32
  | .own off => BitVec.ofNat 32 (l * windowSize + off.toNat)
  | .global a => a.setWidth 32

/-- Logical module `m` may be addressed by a packet: ACTIVE and a VALID entry (R404). -/
def JobSet.reaches (j : JobSet) (m : Nat) : Bool := j.active && (Store.get modDefault j.table m).valid

/-! ### Checks at issue (R150, R152–R154, R404, R492) -/

/-- `n` bytes at offset `by_` from a side may be read or written; a local side stays in the own window (R50, R148). A range elsewhere
is judged where it lies. -/
def Crucible.sideOk (x : Crucible) (k : CoreId) (d : Side) (by_ n : Nat) (write : Bool) : Bool :=
  let inWindow := match d with
    | .own off => decide (off.toNat + by_ + n ≤ windowSize)
    | .global _ => true
  match x.localPlace k d with
  | some (sp, off) =>
    match regionOf sp (off + by_) n with
    | none => false
    | some (.hbm o) => !(write && x.riser.touchesRiser o n)
    | some _ => inWindow
  | none =>
    match d with
    | .own _ => false
    | .global a => decide (gaSpace a < 2) && decide (gaOffset a + by_ + n ≤ 2 ^ 48) && x.xport.job.live.reaches (gaModule a)

/-- The tally word a signal or take names may be reached. -/
def Crucible.tallySideOk (x : Crucible) (k : CoreId) (d : Side) : Bool :=
  match x.localPlace k d with
  | some (sp, off) => decide (sp = 1) && (tallyPlace off).isSome
  | none =>
    match d with
    | .own _ => false
    | .global a => decide (gaSpace a < 2) && x.xport.job.live.reaches (gaModule a)

/-- The destination of an xcast.core (R152): core memory, a window offset alone, and a module that can be reached. -/
def Crucible.coreCastOk (x : Crucible) (k : CoreId) (a : W64) (mask : W128) (n : Nat) : Bool :=
  let j := x.xport.job.live
  decide (gaSpace a = 1) && decide (gaOffset a < windowSize) &&
    (if gaModule a = j.self.toNat then
       (regionOf 1 (gaOffset a) n).isSome &&
         (j.active || (List.range 128).all (fun g => !mask.getLsbD g || g / 32 == k.cru.val))
     else j.reaches (gaModule a))

/-- Modules an xcast.mod selects (R153). -/
def castModules (a : W64) (mask : W128) : List Nat :=
  (List.range 64).filterMap (fun i => if mask.getLsbD i then some (gaModule a / 64 * 64 + i) else none)

/-- The same address in module `m`. -/
def withModule (a : W64) (m : Nat) : W64 := (BitVec.ofNat 12 m) ++ a.extractLsb' 0 52

/-- Offsets of row r of a transfer in its source and its destination (R149). -/
def XferEntry.srcRow (e : XferEntry) (r : Nat) : Nat := r * e.srcStride
def XferEntry.dstRow (e : XferEntry) (r : Nat) : Nat := r * e.dstStride

/-- The transfer has work to do (R125, R152, R153). -/
def XferEntry.hasWork (e : XferEntry) : Bool :=
  match e.op with
  | .signal | .take => true
  | .copy | .copy2d => decide (e.rows ≠ 0) && decide (e.len ≠ 0)
  | .castCore | .castMod => decide (e.len ≠ 0) && decide (e.mask ≠ 0)

/-- Addresses of the ranges of the transfer that break a rule, as far as the sender can tell (R150). -/
def Crucible.badRanges (x : Crucible) (k : CoreId) (e : XferEntry) : List W32 :=
  let src := fun (o : Nat) => if x.sideOk k e.src o e.len false then [] else [e.src.detail k.core.val + BitVec.ofNat 32 o]
  let dst := e.dst.detail k.core.val
  let keep := fun (ok : Bool) => if ok then [] else [dst]
  if !e.hasWork then []
  else match e.op with
    | .signal | .take => keep (x.tallySideOk k e.dst)
    | .copy | .copy2d =>
      ((List.range e.rows).map (fun r =>
        src (e.srcRow r) ++ (if x.sideOk k e.dst (e.dstRow r) e.len true then [] else [dst + BitVec.ofNat 32 (e.dstRow r)]))).flatten
    | .castCore =>
      src 0 ++ keep (match e.dst with
        | .own _ => false
        | .global a => x.coreCastOk k a e.mask e.len)
    | .castMod =>
      src 0 ++ keep (match e.dst with
        | .own _ => false
        | .global a => (castModules a e.mask).all (fun m => x.sideOk k (.global (withModule a m)) 0 e.len true))

/-- TRANSFER_ADDRESS. With several ranges that fail, which of them DETAIL names is not stated: a free choice (log 50). -/
def Crucible.addrFault (x : Crucible) (k : CoreId) (e : XferEntry) : Option (Byte × W32) :=
  match x.badRanges k e with
  | [] => none
  | [d] => some (0x0A, d)
  | d :: ds => some (0x0A, (d :: ds).getD (Config.badRange e.word e.seq (d :: ds) % (ds.length + 1)) d)

/-- `n` bytes at offset `by_` from a side that lies elsewhere break R150: they lie in no one region, or in part of an accumulator
word. -/
def Crucible.farBad (x : Crucible) (k : CoreId) (d : Side) (by_ n : Nat) : Bool :=
  match x.localPlace k d, d with
  | none, .global a => (regionOf (gaSpace a) (gaOffset a + by_) n).isNone
  | _, _ => false

/-- Some source range of the transfer that lies elsewhere breaks R150. The first answer to a packet that reads it raises the fault. -/
def Crucible.srcBadFar (x : Crucible) (k : CoreId) (e : XferEntry) : Bool :=
  e.hasWork &&
    (match e.op with
     | .signal | .take => false
     | _ => (List.range e.rows).any (fun r => x.farBad k e.src (e.srcRow r) e.len))

/-- Some destination range that lies elsewhere breaks R150; an xcast.mod has one in every module it selects (R153). The first answer
to a packet that writes it raises the fault. -/
def Crucible.dstBadFar (x : Crucible) (k : CoreId) (e : XferEntry) : Bool :=
  e.hasWork &&
    (match e.op, e.dst with
     | .copy, _ | .copy2d, _ => (List.range e.rows).any (fun r => x.farBad k e.dst (e.dstRow r) e.len)
     | .castMod, .global a => (castModules a e.mask).any (fun m => x.farBad k (.global (withModule a m)) 0 e.len)
     | .castCore, _ => x.farBad k e.dst 0 e.len
     | _, _ => false)

/-! ### Finding a transfer -/

def XferEntry.isOwned (e : XferEntry) (p : PhysCore) (o : Owner) : Bool := p.step == o.step && e.seq == o.seq

/-- The transfer a packet belongs to, unless it has failed or has left its queue. -/
def Crucible.findXfer (x : Crucible) (o : Owner) : Option XferEntry :=
  let p := x.phys o.core
  p.xq.find? (fun e => e.isOwned p o)

def Crucible.modXfer (x : Crucible) (o : Owner) (f : XferEntry → XferEntry) : Crucible :=
  x.modPhys o.core (fun p => { p with xq := p.xq.map (fun e => if e.isOwned p o then f e else e) })

/-- A transfer whose packets are all injected and whose reads and tally answers have arrived is complete (R89, R154). -/
def Crucible.finishXfer (x : Crucible) (o : Owner) : Crucible :=
  x.modXfer o (fun e => if e.phase == .running && decide (e.toInject = 0 ∧ e.toArrive = 0) then { e with phase := .complete } else e)

/-- What makes a transfer fail: cause, source unit and DETAIL (R104, R398). -/
structure XferFault where
  cause : Byte
  source : BitVec 3
  detail : W32
  deriving DecidableEq, Repr

/-- A transfer fails: it leaves its queue if it is still there, cuts no further packet and never signals (R90, R430). A WRITE whose
packets are all injected may have signalled and left; its core faults all the same (R97, R104, R412). `pc` is the index of its
instruction. -/
def Crucible.faultXfer (x : Crucible) (o : Owner) (pc : BitVec 13) (f : XferFault) : Crucible :=
  let x := x.modPhys o.core (fun p => { p with xq := p.xq.filter (fun e => !e.isOwned p o) })
  let pkts := x.xport.pkts.filter (fun q => q.owner != some o || q.sent)
  let x := { x with xport := { x.xport with pkts := pkts.map (fun (q : Pkt) => if q.owner = some o then { q with lost := true } else q) } }
  (x.raiseBy o.core (issueOrder o.step o.seq.toNat) f.cause f.source pc f.detail).settle o.core

def failTarget (c : Cru) (l : Nat) : XferFault := ⟨0x0B, srcRemote, detail32 (c.val * 500 + l)⟩
def failTally (w : Nat) : XferFault := ⟨0x0D, srcRemote, detail32 w⟩
def failAddress (a : W32) : XferFault := ⟨0x0A, srcRemote, a⟩
def failTimeout (m : Nat) : XferFault := ⟨0x0C, srcXfer, detail32 m⟩

/-- The failure an answer of this crucible stands for. -/
def Answer.fail (k : CoreId) (d : Side) (w : Nat) : Answer → Option XferFault
  | .applied => none
  | .refused => some (failTally w)
  | .targetFault l => some (failTarget k.cru l)
  | .badAddress => some (failAddress (d.detail k.core.val))

/-! ### Cutting into packets (R399) -/

/-- The pieces of `n` bytes at offset `off` that do not cross a 4,096-byte boundary, as (distance from the start, length). -/
def cutPieces (off n : Nat) : Nat → Nat → List (Nat × Nat)
  | _, 0 => []
  | done, fuel + 1 =>
    if done ≥ n then []
    else
      let m := min (n - done) (4096 - (off + done) % 4096)
      (done, m) :: cutPieces off n (done + m) fuel

def pieces (off n : Nat) : List (Nat × Nat) := cutPieces off n 0 (n / 4096 + 2)

/-- A request as the transfer engine makes it, before it has a number, a stream or a PSN. -/
def Pkt.request (o : Owner) (kind : Byte) (col : Bool) (m : Nat) (c : Cru) (loc : ModEntry) (aux : W32) (addr : W64)
    (landing : Landing) (payload : List Byte) : Pkt where
  num := 0
  owner := some o
  kind := kind
  col := col
  dest := m
  destCru := c
  dstRack := loc.rack
  dstSlot := loc.slot
  aux := aux
  addr := addr
  coremask := none
  modmask := none
  awaited := [m]
  landing := landing
  payload := payload
  sent := false
  psn := 0
  unseq := false
  stream := 0
  port := 0
  retries := 0
  expiries := 0
  due := []
  resent := false
  quiet := false
  answered := false
  pc := 0
  badRange := false
  lost := false
  staged := false
  slot := 0
  gen := 0

/-- A packet of a transfer goes to injection: it takes a number, and the transfer waits for it. A read or a tally operation waits for
its answer as well. -/
def Crucible.pushPkt (x : Crucible) (o : Owner) (q : Pkt) : Crucible :=
  let n := x.xport.nextNum
  let e := x.findXfer o
  let q := { q with num := n, pc := (e.map XferEntry.pc).getD 0, badRange := e.any (fun e => if q.kind = 0x02 then e.badSrc else e.badDst),
                    gen := (e.map XferEntry.gen).getD x.xport.gen }
  let x := { x with xport := { x.xport with nextNum := n + 1, pkts := x.xport.pkts ++ [q] } }
  x.modXfer o (fun e => { e with toInject := e.toInject + 1, toArrive := if q.kind = 0x01 then e.toArrive else e.toArrive + 1,
                                 cut := if q.kind = 0x01 then e.cut + 1 else e.cut })

def Crucible.modEntry (x : Crucible) (m : Nat) : ModEntry := Store.get modDefault x.xport.job.live.table m

/-- AUX of the next WRITE of a transfer: in the collective class the chunk index, which counts the transfer's WRITEs from 0 in increasing
address order, else 0 (R398, R399, R421, log 22). -/
def Crucible.writeAux (x : Crucible) (o : Owner) (col : Bool) : W32 :=
  if col then detail32 ((x.findXfer o).map XferEntry.cut |>.getD 0) else 0

/-- One WRITE to a global address; `f` adds a mask. -/
def Crucible.pushWrite (x : Crucible) (o : Owner) (col : Bool) (a : W64) (c : Cru) (f : Pkt → Pkt) (bs : List Byte) : Crucible :=
  x.pushPkt o (f (Pkt.request o 0x01 col (gaModule a) c (x.modEntry (gaModule a)) (x.writeAux o col) a .none bs))

/-- The WRITEs of `bs` to a global address. -/
def Crucible.pushWrites (x : Crucible) (o : Owner) (col : Bool) (a : W64) (c : Cru) (f : Pkt → Pkt) (bs : List Byte) : Crucible :=
  (pieces (gaOffset a) bs.length).foldl (fun x (d, m) =>
    x.pushWrite o col (formAddr a (BitVec.ofNat 48 (gaOffset a + d))) c f ((bs.drop d).take m)) x

/-! ### Data reaching its destination -/

/-- The group mask restricted to crucible `c`. -/
def maskOf (mask : W128) (c : Nat) : W128 := mask &&& (0xFFFFFFFF#128 <<< (32 * c))

/-- The other crucibles that hold a selected group. -/
def otherCrucibles (mask : W128) (c : Cru) : List Cru :=
  [0, 1, 2, 3].filter (fun d => d != c && maskOf mask d.val != 0)

/-- Racks other than by the own module, each with its slot mask and its selected modules, in rising order (R420). -/
def castRacks (j : JobSet) (ms : List Nat) : List (BitVec 10 × W64 × List Nat) :=
  let there := ms.filter (fun m => m ≠ j.self.toNat)
  let racks := (there.map (fun m => (Store.get modDefault j.table m).rack)).eraseDups
  racks.map (fun r =>
    let of_ := there.filter (fun m => (Store.get modDefault j.table m).rack == r)
    (r, of_.foldl (fun v m => v ||| ((1 : W64) <<< (Store.get modDefault j.table m).slot.toNat)) 0, of_))

/-- Bytes of a transfer go to a destination: at once inside the issuing crucible, else as packets. -/
def Crucible.deliver (x : Crucible) (k : CoreId) (o : Owner) (e : XferEntry) (d : Side) (bs : List Byte) :
    Option XferFault × Crucible :=
  match e.op, d with
  | .castCore, .global a =>
    let w := gaOffset a
    if gaModule a = x.xport.job.live.self.toNat then
      let (bad, x) := x.writeCores (some k.core.val) w bs (groupCores e.mask k.cru.val)
      let x := (otherCrucibles e.mask k.cru).foldl (fun x c =>
        x.pushWrites o e.col a c (fun q => { q with coremask := some (maskOf e.mask c.val) }) bs) x
      (bad.map (failTarget k.cru), x)
    else (none, x.pushWrites o e.col a k.cru (fun q => { q with coremask := some e.mask }) bs)
  | .castMod, .global a =>
    let j := x.xport.job.live
    let ms := castModules a e.mask
    let (bad, x) :=
      if j.self.toNat ∈ ms then
        let own := withModule a j.self.toNat
        match x.localPlace k (.global own) with
        | some (sp, off) =>
          match regionOf sp off bs.length with
          | none => (some (failAddress (d.detail k.core.val)), x)
          | some r =>
            let (ans, x) := x.writeRegion (.core k.core) (some k.core.val) r bs (some o.step.toNat)
            (ans.fail k d 0, x)
        | none => (none, x.pushWrites o e.col own (gaCrucible a) id bs)
      else (none, x)
    (bad, (castRacks j ms).foldl (fun x (r, slots, of_) =>
      x.pushWrites o e.col a (gaCrucible a)
        (fun q => { q with dest := of_.headD 0, modmask := some slots, awaited := of_, dstRack := r, dstSlot := 0 }) bs) x)
  | _, _ =>
    match x.localPlace k d with
    | some (sp, off) =>
      match regionOf sp off bs.length with
      | none => (some (failAddress (d.detail k.core.val)), x)
      | some r =>
        let (ans, x) := x.writeRegion (.core k.core) (some k.core.val) r bs (some o.step.toNat)
        (ans.fail k d 0, x)
    | none =>
      match d with
      | .own _ => (none, x)
      | .global a => (none, x.pushWrites o e.col a (gaCrucible a) id bs)

/-- The bytes of row `r` as they are to be written at a destination in this crucible: of those that the row before it has written too,
each may keep that row's value (R151, log 113). -/
def Crucible.mixRow (x : Crucible) (k : CoreId) (o : Owner) (e : XferEntry) (r : Nat) (dst : Side) (bs : List Byte) : List Byte :=
  if r = 0 ∨ e.dstStride ≥ bs.length then bs
  else match x.localPlace k dst with
    | none => bs
    | some (sp, off) =>
      match regionOf sp off bs.length with
      | none => bs
      | some reg =>
        let (_, old, _) := x.readRegion (.core k.core) (some k.core.val) reg bs.length none
        (List.range bs.length).map (fun i =>
          if i + e.dstStride < bs.length ∧ Config.rowKept o.core o.step.toNat o.seq.toNat r i then old.getD i 0 else bs.getD i 0)

/-- The destination lies in the sending crucible, so that data read elsewhere needs no staging (R414). -/
def Crucible.landsHere (x : Crucible) (k : CoreId) (e : XferEntry) (d : Side) : Bool :=
  (e.op == .copy || e.op == .copy2d) && (x.localPlace k d).isSome

/-- One row of a transfer: read here and passed on, or asked for. -/
def Crucible.moveRow (x : Crucible) (k : CoreId) (o : Owner) (e : XferEntry) (r : Nat) : Option XferFault × Crucible :=
  let src := e.src.plus (e.srcRow r)
  let dst := e.dst.plus (e.dstRow r)
  match x.localPlace k src with
  | some (sp, off) =>
    match regionOf sp off e.len with
    | none => (some (failAddress (src.detail k.core.val)), x)
    | some reg =>
      match x.readRegion (.core k.core) (some k.core.val) reg e.len (some o.step.toNat) with
      | (.applied, bs, x) => x.deliver k o e dst (x.mixRow k o e r dst bs)
      | (ans, _, x) => (ans.fail k src 0, x)
  | none =>
    match src with
    | .own _ => (none, x)
    | .global a =>
      (none, (pieces (gaOffset a) e.len).foldl (fun x (d, m) =>
        let a' := formAddr a (BitVec.ofNat 48 (gaOffset a + d))
        x.pushPkt o { Pkt.request o 0x02 e.col (gaModule a) (gaCrucible a) (x.modEntry (gaModule a)) (detail32 m) a'
            (.piece (dst.plus d)) [] with staged := !x.landsHere k e dst }) x)

/-! ### Data read elsewhere (R150, R414, log 111) -/

def Side.place : Side → Nat
  | .own off => off.toNat
  | .global a => gaOffset a

/-- A side at another offset. -/
def Side.moved (d : Side) (n : Nat) : Side :=
  match d with
  | .own _ => .own (BitVec.ofNat 22 n)
  | .global a => .global (formAddr a (BitVec.ofNat 48 n))

/-- The side names accumulator words. -/
def Side.inAcc (d : Side) : Bool :=
  let core := match d with
    | .own _ => true
    | .global a => gaSpace a == 1
  core && decide (0x100000 ≤ d.place % windowSize)

/-- A run of bytes joined to the runs it touches. -/
def joinRun (runs : List (Nat × List Byte)) (r : Nat × List Byte) : Nat × List Byte :=
  let r := match runs.find? (fun q => q.1 + q.2.length == r.1) with
    | some q => (q.1, q.2 ++ r.2)
    | none => r
  match runs.find? (fun q => q.1 == r.1 + r.2.length) with
  | some q => (r.1, r.2 ++ q.2)
  | none => r

/-- The whole words of a run, and the bytes before and after them. -/
def wholeWords (r : Nat × List Byte) : (Nat × List Byte) × List (Nat × List Byte) :=
  let a := (r.1 + 3) / 4 * 4
  let b := (r.1 + r.2.length) / 4 * 4
  if a < b then
    ((a, (r.2.drop (a - r.1)).take (b - a)),
     [(r.1, r.2.take (a - r.1)), (b, r.2.drop (b - r.1))].filter (fun q => !q.2.isEmpty))
  else ((a, []), [r])

/-- Bytes read for a landing: what can be written now, and what the transfer then holds back. A range of accumulator words is whole, but
the reads of it end at 4,096-byte boundaries of its source: a word that a boundary divides waits for its other bytes. -/
def XferEntry.landed (e : XferEntry) (d : Side) (bs : List Byte) : (Side × List Byte) × List (Nat × List Byte) :=
  if d.inAcc then
    let run := joinRun e.staged (d.place, bs)
    let others := e.staged.filter (fun q => !(decide (run.1 ≤ q.1) && decide (q.1 < run.1 + run.2.length)))
    let (whole, rest) := wholeWords run
    ((d.moved whole.1, whole.2), others ++ rest)
  else ((d, bs), e.staged)

/-- The rows from row r on, until one fails. -/
def Crucible.moveRows (x : Crucible) (k : CoreId) (o : Owner) (e : XferEntry) (r : Nat) : Nat → Option XferFault × Crucible
  | 0 => (none, x)
  | n + 1 =>
    match x.moveRow k o e r with
    | (some f, x) => (some f, x)
    | (none, x) => x.moveRows k o e (r + 1) n

/-- A remote tally operation (R154, R341). -/
def Crucible.moveTally (x : Crucible) (k : CoreId) (o : Owner) (e : XferEntry) : Option XferFault × Crucible :=
  match x.localPlace k e.dst with
  | some (_, off) =>
    match tallyPlace off with
    | none => (some (failAddress (e.dst.detail k.core.val)), x)
    | some (l, w) =>
      let (ans, x) := if e.op = .signal then x.remoteSignal (some k.core.val) l w else x.remoteTake (some k.core.val) l w
      (ans.fail k e.dst w, x)
  | none =>
    match e.dst with
    | .own _ => (none, x)
    | .global a =>
      (none, x.pushPkt o (Pkt.request o (if e.op = .signal then 0x03 else 0x04) false (gaModule a) (gaCrucible a)
        (x.modEntry (gaModule a)) 0 a .none []))

/-- The HBM offsets of this crucible that a transfer reads and writes first. -/
def Crucible.xferHeld (x : Crucible) (k : CoreId) (e : XferEntry) : Bool :=
  [e.src, e.dst].any (fun d =>
    match x.localPlace k d with
    | some (0, off) => x.hbm.isHeld (.core k.core) off
    | _ => false)

/-- The oldest transfer that has not started. -/
def nextXfer : List XferEntry → Option XferEntry
  | [] => none
  | e :: rest => if e.phase == .queued then some e else nextXfer rest

/-- The transfer starts (R86): a local move is done at once, the rest is cut into packets. -/
def Crucible.runXfer (x : Crucible) (k : CoreId) (e : XferEntry) : Crucible :=
  let o : Owner := ⟨k.core.val, (x.phys k.core.val).step, e.seq⟩
  let src := x.srcBadFar k e
  let dst := x.dstBadFar k e
  let x := x.modXfer o (fun e => { e with phase := .running, badSrc := src, badDst := dst })
  let (bad, x) :=
    match e.op with
    | .signal | .take => x.moveTally k o e
    | .copy | .copy2d => x.moveRows k o e 0 e.rows
    | .castCore | .castMod => x.moveRows k o e 0 1
  match bad with
  | some f => x.faultXfer o e.pc f
  | none => x.finishXfer o

/-- A second mismatch in the transfer engine: the operation ends, the core is halted, a RETIRE_REQUEST is recorded (R470). -/
def Crucible.retireXfer (x : Crucible) (l : Nat) (u : BitVec 4) (e : XferEntry) : Crucible :=
  let x := x.countMismatch l u 3 e.seq
  let x := x.modPhys l (fun p => { p with xq := p.xq.filter (fun f => f.seq != e.seq) })
  x.requestRetire l srcXfer e.seq

/-- The scratchpad bytes here that the transfer reads hold no parity error: the engine carries their parity (R467, R468). -/
def Crucible.sourceAgrees (x : Crucible) (k : CoreId) (e : XferEntry) : Bool :=
  match e.op with
  | .signal | .take => true
  | _ => (List.range e.rows).all (fun r =>
      match x.localPlace k (e.src.plus (e.srcRow r)) with
      | none => true
      | some (sp, off) =>
        match regionOf sp off e.len with
        | some (.scratch l w) => (x.phys l).parityAgrees w e.len
        | _ => true)

def Crucible.startXfer (x : Crucible) (k : CoreId) (mismatch : Option (BitVec 4)) : Crucible :=
  match nextXfer (x.phys k.core.val).xq with
  | none => x
  | some e =>
    if x.live && !x.xferHeld k e then
      match if x.sourceAgrees k e then mismatch else some 5 with
      | some u => if x.firstMismatch k.core.val then x.countMismatch k.core.val u 1 e.seq else x.retireXfer k.core.val u e
      | none => x.runXfer k e
    else x

end Sys2Proof.Machine
end

