-- ==== Sys2Proof/Machine/FabricOps.lean ====
section
/-!
DEFINITION. The transport layer of a crucible: injection (R405, R409–R412, R418), arrival and its checks (R413, R415, R416, R419, R420),
responses (R398, R404), urgent messages (R425).
-/
namespace Sys2Proof.Machine


/-- A packet comes to a port, and leaves when it can. -/
def State.enterWait (s : State) (c : Cru) (n : PortIx) (w : CreditWait) : State :=
  let (x, os) := (s.crucible c).enterWait c n w
  (s.putCrucible c x).emit os

def State.enterPort (s : State) (c : Cru) (n : PortIx) (vc : Nat) (q : Packet) : State :=
  s.enterWait c n ⟨vc, q, false⟩

/-- FAB_XCOUNT_k (R435). -/
def Xport.bump (t : Xport) (k : Nat) : Xport := { t with count := Store.modify zero32 t.count k (fun v => satAdd v 1) }

def Crucible.onXport (x : Crucible) (f : Xport → Xport) : Crucible := { x with xport := f x.xport }

/-- Change the packet numbered `i`. -/
def Crucible.modPkt (x : Crucible) (i : Nat) (f : Pkt → Pkt) : Crucible :=
  x.onXport (fun t => { t with pkts := t.pkts.map (fun q => if q.num = i then f q else q) })

def Crucible.dropPkt (x : Crucible) (i : Nat) : Crucible :=
  x.onXport (fun t => { t with pkts := t.pkts.filter (fun q => q.num ≠ i) })

def Crucible.findPkt (x : Crucible) (i : Nat) : Option Pkt := x.xport.pkts.find? (fun q => q.num == i)

/-! ### Connections and stream contexts (R409, R410) -/

/-- A connection by its far end; the multicast connection stands beyond them. -/
def connKey (m : Nat) (c : Cru) : Nat := 4 * m + c.val
def Pkt.key (q : Pkt) : Nat := if q.modmask.isSome then 16384 else connKey q.dest q.destCru

def Xport.conn (t : Xport) (k : Nat) : Conn := Store.get connDefault t.conns k
def Xport.putConn (t : Xport) (k : Nat) (v : Conn) : Xport := { t with conns := Store.set connDefault t.conns k v }

/-- The unresolved packets. -/
def Xport.unresolved (t : Xport) : List Pkt := t.pkts.filter Pkt.sent

/-- The stream context of a connection: the one it holds, else the lowest unused one. -/
def Xport.streamFor (t : Xport) (key : Nat) : Option (BitVec 11) :=
  match t.unresolved.find? (fun q => q.key == key) with
  | some q => some q.stream
  | none => ((List.range 2048).find? (fun i => t.unresolved.all (fun q => q.stream.toNat != i))).map (BitVec.ofNat 11)

/-- Bytes of the staging buffer in use: reserved for a READ until its answer, and held until a WRITE has left (R414). -/
def Xport.staging (t : Xport) : Nat :=
  (t.pkts.map (fun r =>
    if !r.staged then 0 else if r.kind = 0x02 then (if r.sent && !r.answered then r.aux.toNat else 0)
    else if r.sent then 0 else r.payload.length)).sum

/-- Crucible space, a context, window space, no PSN 256 above an unresolved one, and room for what a READ brings (R410, R413, R414). -/
def Xport.fits (t : Xport) (q : Pkt) : Bool :=
  let mine := t.unresolved.filter (fun r => r.key == q.key)
  (q.kind != 0x02 || !q.staged || decide (t.staging + q.aux.toNat ≤ 262144)) && decide (t.unresolved.length < 4096) && (t.streamFor q.key).isSome && decide (mine.length < t.e2e.window.toNat) &&
    (q.modmask.isSome || mine.all (fun r => decide (((t.conn q.key).nextPsn - r.psn).toNat < 256)))

/-- Stream contexts held (R433). -/
def Xport.streams (t : Xport) : Nat := ((t.unresolved.map Pkt.key).eraseDups).length

/-! ### The packet a request becomes -/

def locOf (rack : BitVec 10) (slot : BitVec 6) : W16 := rack ++ slot

/-- The header fields every packet of crucible c carries (R397). -/
def Crucible.newPacket (x : Crucible) (c : Cru) (kind : Byte) (cls : BitVec 2) (dst : W16) (payload : List Byte) : Packet :=
  let j := x.xport.job.live
  { kind := kind, cls := cls, escape := false, modmask := false, coremask := false, unseq := false, epoch := j.epoch,
    jobTag := j.tag, dstLoc := dst, srcLoc := locOf j.rack j.slot, src := j.self, srcCru := BitVec.ofNat 2 c.val,
    len := BitVec.ofNat 13 payload.length, stream := 0, psn := 0, aux := 0, addr := 0, mask := 0, resv := false,
    payload := payload }

/-- The packet of a request that has its stream and PSN. -/
def Crucible.requestPacket (x : Crucible) (c : Cru) (q : Pkt) : Packet :=
  { x.newPacket c q.kind (if q.col then 3 else 1) (locOf q.dstRack q.dstSlot) q.payload with
    modmask := q.modmask.isSome, coremask := q.coremask.isSome, unseq := q.unseq, stream := q.stream, psn := q.psn, aux := q.aux,
    addr := q.addr, mask := match q.coremask with | some m => m | none => (q.modmask.getD 0).setWidth 128 }

/-- The adaptive virtual channel of its class (R400, R403). -/
def Pkt.vc (q : Pkt) : Nat := if q.col then 5 else 1

/-! ### Injection (R405, R410, R418) -/

/-- The bucket holds the packet if it goes to another rack. -/
def Xport.tokens (t : Xport) (p : Packet) : Bool :=
  p.dstLoc.extractLsb' 6 10 == t.job.live.rack || (t.xrack.live.rate != 0 && decide (p.bytes.length ≤ t.bucket))

def Xport.takeTokens (t : Xport) (p : Packet) : Xport :=
  if p.dstLoc.extractLsb' 6 10 = t.job.live.rack then t else { t with bucket := t.bucket - p.bytes.length }

/-- A packet of a transfer is injected (R89, R542). -/
def Crucible.injected (x : Crucible) (o : Option Owner) : Crucible :=
  match o with
  | none => x
  | some o =>
    ((x.modXfer o (fun e => { e with toInject := e.toInject - 1 })).modLog o.core
      (fun g => { g with progXfer := g.progXfer + 1 })).finishXfer o

/-- The place of a new packet in the resend area: the lowest that no unresolved packet holds (R411). -/
def Xport.freeSlot (t : Xport) : Nat := ((List.range 4096).find? (fun i => t.unresolved.all (fun q => q.slot != i))).getD 0

/-- Header and payload of a packet go to its place in the resend area of region 1, 4,144 bytes each. -/
def Crucible.keepCopy (x : Crucible) (c : Cru) (slot : Nat) (p : Packet) : Crucible :=
  { x with hbm := x.hbm.put (Config.resendAt c.val % (0x1F000000 - 0x2000000) + 4144 * slot) p.bytes }

/-- The request with its stream context and PSN, sent by port `n`. -/
def Crucible.stamp (x : Crucible) (q : Pkt) (n : Nat) : Crucible × Pkt :=
  let t := x.xport
  let mc := q.modmask.isSome
  let q := { q with sent := true, slot := t.freeSlot, stream := (t.streamFor q.key).getD 0, unseq := mc, port := Fin.ofNat 16 n,
                    psn := if mc then t.mcPsn else (t.conn q.key).nextPsn, retries := t.e2e.retries.toNat }
  let v := t.conn q.key
  let t := if mc then { t with mcPsn := t.mcPsn + 1 } else t.putConn q.key { v with nextPsn := v.nextPsn + 1 }
  (({ x with xport := t }).modPkt q.num (fun _ => q), q)

/-- The port chosen last (R405). -/
def Crucible.chose (x : Crucible) (n : PortIx) : Crucible := if n.val < 13 then { x with chooseLast := n.val } else x

/-- A new request leaves for port `n`, when everything R405, R410 and R418 ask for is there. -/
def State.injectNew (s : State) (c : Cru) (n : PortIx) (q : Pkt) : State :=
  let x := s.crucible c
  if x.choosePort c q.awaited q.destCru q.vc none = some n ∧ x.xport.fits q then
    let (x', q') := x.stamp q n.val
    let p := x'.requestPacket c q'
    if x.xport.tokens p then
      (s.putCrucible c ((((x'.keepCopy c q'.slot p).onXport (fun t => t.takeTokens p)).chose n).injected q.owner)).enterPort c n q.vc p
    else s
  else s

/-- A resend to module m: the same packet, or a unicast copy of a MODMASK packet (R412). -/
def Crucible.resendPacket (x : Crucible) (c : Cru) (q : Pkt) (m : Nat) : Packet :=
  let p := x.requestPacket c q
  if q.modmask.isSome then
    let e := x.modEntry m
    { p with modmask := false, mask := 0, dstLoc := locOf e.rack e.slot, addr := withModule q.addr m }
  else p

/-- The port for a resend to module m: another than the last for a sequenced packet (R412). -/
def Crucible.resendPort (x : Crucible) (c : Cru) (q : Pkt) (m : Nat) : Option PortIx :=
  x.choosePort c [m] q.destCru q.vc (if q.modmask.isSome then none else some q.port.val)

/-- A resend to module m leaves, if a port is usable and the bucket holds it. -/
def State.resendOne (s : State) (c : Cru) (i : Nat) (m : Nat) : State :=
  let x := s.crucible c
  match x.findPkt i with
  | none => s
  | some q =>
    match x.resendPort c q m with
    | none => s
    | some n =>
      let p := x.resendPacket c q m
      if x.xport.tokens p then
        let x := x.modPkt i (fun q => { q with due := q.due.filter (· ≠ m), resent := true, quiet := false, port := n })
        (s.putCrucible c ((x.onXport (fun t => t.takeTokens p)).chose n)).enterWait c n ⟨q.vc, p, true⟩
      else s

/-- A waiting response leaves. -/
def State.injectRsp (s : State) (c : Cru) (n : PortIx) (w : RspWait) : State :=
  let x := s.crucible c
  if x.choosePort c [w.dest] w.destCru 3 none = some n then
    (s.putCrucible c ((x.onXport (fun t => { t with rsps := t.rsps.filter (fun v => v.num ≠ w.num) })).chose n)).enterPort c n 3
      w.packet
  else s

/-! ### Abandonment (R412, R430) -/

/-- A packet is given up: its transfer fails with REMOTE_TIMEOUT. -/
def Crucible.giveUp (x : Crucible) (q : Pkt) : Crucible :=
  let x := x.dropPkt q.num
  match q.owner with
  | none => x
  | some o => if q.lost then x else x.faultXfer o q.pc (failTimeout (q.awaited.headD q.dest))

def Crucible.timeoutPkt (x : Crucible) (i : Nat) : Crucible :=
  match x.findPkt i with
  | none => x
  | some q => (x.giveUp q).onXport (fun t => { t.bump 1 with status := setFlag t.status 0 })

/-- Packets are abandoned, `more` responses with them: each is counted, and ABANDONED set (R430, R435). -/
def Crucible.abandonAll (x : Crucible) (qs : List Pkt) (more : Nat) : Crucible :=
  if qs.isEmpty ∧ more = 0 then x
  else
    (qs.foldl Crucible.giveUp x).onXport (fun t =>
      (List.range (qs.length + more)).foldl (fun t _ => t.bump 1) { t with status := setFlag t.status 1 })

/-- The packet's transfer issued before the reset of a connection it needs (R430). -/
def Xport.stale (t : Xport) (q : Pkt) : Bool := q.awaited.any (fun m => decide (q.gen < max t.genAll (Store.get zeroNat t.connGen m)))

/-- A packet of a transfer issued before its connection was reset is never sent: it is abandoned (R430). -/
def Crucible.dropStale (x : Crucible) : Crucible := x.abandonAll (x.xport.pkts.filter (fun q => !q.sent && x.xport.stale q)) 0

/-- A response that found no port is given up. -/
def Crucible.abandonRsp (x : Crucible) (i : Nat) : Crucible :=
  x.onXport (fun t => { t.bump 1 with rsps := t.rsps.filter (fun w => w.num ≠ i), status := setFlag t.status 0 })

/-! ### Urgent messages (R407, R425) -/

/-- An urgent message or its acknowledgement as a packet. -/
def Crucible.urgentPacket (x : Crucible) (c : Cru) (kind : Byte) (dst : W16) (d : Cru) (type : Byte) (psn : W16)
    (payload : List Byte) : Packet :=
  { x.newPacket c kind 0 dst payload with
    psn := psn.setWidth 32, aux := type.setWidth 32, addr := (BitVec.ofNat 64 d.val) <<< 50 }

/-- Send a UC packet by its port; with none usable it waits (R405, R407). -/
def State.sendUc (s : State) (c : Cru) (m : Nat) (d : Cru) (p : Packet) : State :=
  let x := s.crucible c
  match x.urgentPort c m d with
  | some n => s.enterPort c n 0 p
  | none => s.putCrucible c (x.onXport (fun t => { t with ucWaits := t.ucWaits ++ [⟨p, m, d, x.pwr.aon⟩] }))

/-- TIMEOUT × (RETRIES + 1) in always-on ticks: how long a packet waits for a port (R405, R432). -/
def Xport.patience (t : Xport) : Nat := 25 * t.e2e.timeout.toNat * (t.e2e.retries.toNat + 1)

/-- The UC packets of crucible c that wait leave by a port that has become usable, or are given up. -/
def State.retryUc (s : State) (c : Cru) : State :=
  let x := s.crucible c
  if x.live then
    x.xport.ucWaits.foldl (fun s w =>
      let x := s.crucible c
      if (x.urgentPort c w.dest w.destCru).isSome then s.sendUc c w.dest w.destCru w.packet
      else if w.since.toNat + x.xport.patience ≤ x.pwr.aon.toNat then
        s.putCrucible c (x.onXport (fun t => { t.bump 1 with status := setFlag t.status 0 }))
      else s.putCrucible c (x.onXport (fun t => { t with ucWaits := t.ucWaits ++ [w] })))
      (s.putCrucible c (x.onXport (fun t => { t with ucWaits := [] })))
  else s

def State.emitUrgent (s : State) (c : Cru) (u : Urgent) : State :=
  s.sendUc c u.dest u.destCru ((s.crucible c).urgentPacket c 0x20 u.dstLoc u.destCru u.type u.psn u.payload)

/-- A message of the management core of crucible c to crucible d at a location. The 65th unacknowledged one waits. -/
def State.sendUrgentTo (s : State) (c : Cru) (m : Nat) (loc : W16) (d : Cru) (type : Byte) (payload : List Byte) : State :=
  let x := s.crucible c
  if x.live && x.xport.job.live.active then
    let t := x.xport
    let u : Urgent := { num := t.nextNum, dest := m, destCru := d, dstLoc := loc, type := type, payload := payload,
                        psn := t.urgentPsn, sent := decide ((t.urgents.filter Urgent.sent).length < 64), resends := 0 }
    let s := s.putCrucible c { x with xport := { t with nextNum := t.nextNum + 1, urgentPsn := t.urgentPsn + 1,
                                                        urgents := t.urgents ++ [u] } }
    if u.sent then s.emitUrgent c u else s
  else s

/-- A message to a module of the job. -/
def State.sendUrgent (s : State) (c : Cru) (m : Nat) (d : Cru) (type : Byte) (payload : List Byte) : State :=
  let e := (s.crucible c).modEntry m
  if e.valid then s.sendUrgentTo c m (locOf e.rack e.slot) d type payload else s

/-- A message is acknowledged or dropped, and the next one that waits is sent. -/
def State.endUrgent (s : State) (c : Cru) (num : Nat) : State :=
  let x := s.crucible c
  let us := x.xport.urgents.filter (fun u => u.num ≠ num)
  match us.find? (fun u => !u.sent) with
  | some w =>
    if (us.filter Urgent.sent).length < 64 then
      let us := us.map (fun u => if u.num = w.num then { u with sent := true } else u)
      (s.putCrucible c (x.onXport (fun t => { t with urgents := us }))).emitUrgent c w
    else s.putCrucible c (x.onXport (fun t => { t with urgents := us }))
  | none => s.putCrucible c (x.onXport (fun t => { t with urgents := us }))

/-- The logical module at a location. -/
def JobSet.moduleAt (j : JobSet) (loc : W16) : Nat :=
  ((j.table.find? (fun (_, e) => e.valid && locOf e.rack e.slot == loc)).map (·.1)).getD j.self.toNat

/-! ### Arrival (R415) -/

inductive Verdict where
  | accept
  /-- Discarded, counted in FAB_XCOUNT_k. -/
  | discard (k : Nat)
  /-- Discarded at check 4 with an older epoch (R416). -/
  | stale
  deriving DecidableEq, Repr

/-- The classes a KIND may have, or none for an undefined KIND (R398). -/
def kindClasses (kind : Byte) : List Nat :=
  match kind.toNat with
  | 0x01 => [1, 3]
  | 0x02 => [1, 3]
  | 0x03 => [1]
  | 0x04 => [1]
  | 0x10 => [2]
  | 0x11 => [2]
  | 0x20 => [0]
  | 0x21 => [0]
  | _ => []

/-- Check 1. ADDR is reserved in responses, and but for [51:50] in the urgent class (R397, R398). -/
def packetFormatOk (p : Packet) : Bool :=
  decide (p.cls.toNat ∈ kindClasses p.kind) && !p.resv && !(p.modmask && p.coremask) &&
    (p.kind != 0x02 || (decide (1 ≤ p.aux.toNat) && decide (p.aux.toNat ≤ 4096))) &&
    (p.cls != 2 || (p.addr == 0 && (p.aux &&& 0xF000FF00) == 0 && decide ((p.aux.extractLsb' 0 8).toNat ≤ 3))) &&
    (p.cls != 0 || (p.addr &&& 0xFFF3FFFFFFFFFFFF) == 0)

/-- Check 2. -/
def JobSet.isFor (j : JobSet) (p : Packet) : Bool :=
  j.active &&
    (if p.modmask then p.dstLoc.extractLsb' 6 10 == j.rack && p.mask.getLsbD j.slot.toNat else p.dstLoc == locOf j.rack j.slot)

/-- An epoch older than the own one (R416). -/
def olderEpoch (own e : W16) : Bool := decide (1 ≤ (own - e).toNat) && decide ((own - e).toNat ≤ 32767)

/-- Checks 1 to 6, in order, at the crucible the packet is for. -/
def JobSet.check (j : JobSet) (p : Packet) : Verdict :=
  let e := Store.get modDefault j.table p.src.toNat
  if !packetFormatOk p then .discard 4
  else if !j.isFor p then .discard 3
  else if p.jobTag ≠ j.tag then .discard 3
  else if p.epoch ≠ j.epoch ∧ !(p.kind == 0x20 && p.aux == 3) then (if olderEpoch j.epoch p.epoch then .stale else .discard 2)
  else if !(e.valid && locOf e.rack e.slot == p.srcLoc) then .discard 3
  else if (p.cls = 1 ∨ p.cls = 3) ∧ gaSpace p.addr ≥ 2 then .discard 4
  else .accept

/-- The crucible a packet is for: named by ADDR, but for a response, whose command names it, and a COREMASK packet, whose connection
ends where it arrives (R419, log 21). -/
def packetTarget (p : Packet) (c : Cru) : Cru := if p.cls = 2 ∨ p.coremask then c else gaCrucible p.addr

/-- The packet reaches crucible t from port n of crucible c (R43, R405): no codeword before its own is missing (R375, R379). -/
def State.reaches (s : State) (c : Cru) (n : PortIx) (t : Cru) : Bool :=
  (s.crucible c).live && ((s.crucible c).port n.val).mode == .up && ((s.crucible c).port n.val).bad.isEmpty &&
    (t == c || ((s.crucible t).live && ((s.crucible c).port (bridgePort c t)).mode == .up))

/-- The crucible and port a packet for crucible t reaches t by: port n of c itself, or the bridge from c (log 110). -/
def arrivalPort (c : Cru) (n : PortIx) (t : Cru) : Nat := if t = c then n.val else bridgePort t c

/-- A discard by crucible t: FAB_COUNT_n_6 of the arrival port, and the cause counter. -/
def State.discard (s : State) (c : Cru) (n : PortIx) (t : Cru) (k : Nat) : State :=
  s.atCrucible t (fun x => (x.modPort (arrivalPort c n t) (fun p => p.bump 6)).onXport (fun v => v.bump k))

/-- EPOCH_STALE to the sender of an old packet, at most once per module in 100 µs (R416). -/
def State.noticeStale (s : State) (t : Cru) (p : Packet) : State :=
  let x := s.crucible t
  let now := x.pwr.aon
  let m := p.src.toNat
  if x.xport.staleSent.any (fun (k, at_) => k == m && decide (now.toNat < at_.toNat + 2500)) then s
  else
    let x := x.onXport (fun v => { v with staleSent := v.staleSent.filter (fun (k, _) => k ≠ m) ++ [(m, now)] })
    (s.putCrucible t x).sendUrgentTo t m p.srcLoc (Fin.ofNat 4 p.srcCru.toNat) 3 (leBytes 2 x.xport.job.live.epoch.toNat)

/-- The virtual channel a packet arrives on (R400, R403). -/
def packetVc (p : Packet) : Nat :=
  match p.cls.toNat with
  | 0 => 0
  | 1 => if p.escape then 2 else 1
  | 2 => if p.escape then 4 else 3
  | _ => if p.escape then 6 else 5

/-- The flits of a packet that has arrived are freed, and returned with the next control flit (R401). -/
def State.freeFlits (s : State) (c : Cru) (n : PortIx) (p : Packet) : State :=
  s.atCrucible c (fun x => x.modPort n.val (fun q =>
    { q with freed := Store.modify zeroNat q.freed (packetVc p) (fun k => k + p.flitCount) }))

/-- The packet, for crucible t, passes checks 1 to 6 and is of the kind the command stands for; else what its discard does. -/
def State.takesAt (s : State) (kind : Byte) (c : Cru) (n : PortIx) (t : Cru) (p : Packet) : State × Bool :=
  if !s.reaches c n t then (s, false)
  else if p.kind ≠ kind ∧ kindClasses p.kind ≠ [] then (s, false)
  else
    let s := s.freeFlits c n p
    match (s.crucible t).xport.job.live.check p with
    | .accept => (s, true)
    | .discard k => (s.discard c n t k, false)
    | .stale => ((s.discard c n t 2).noticeStale t p, false)

/-- The same of a packet whose header names its crucible. -/
def State.takesIn (s : State) (kind : Byte) (c : Cru) (n : PortIx) (p : Packet) : State × Bool :=
  s.takesAt kind c n (packetTarget p c) p

/-! ### Requests (R413, R419) -/

/-- STATUS, CORE and data of an answer (R398). -/
structure Reply where
  status : Byte
  core : BitVec 12
  data : List Byte
  deriving DecidableEq, Repr

def Answer.reply (a : Answer) (t : Cru) (data : List Byte) : Reply :=
  match a with
  | .applied => ⟨0, 0, data⟩
  | .refused => ⟨1, 0, []⟩
  | .targetFault l => ⟨2, BitVec.ofNat 12 (t.val * 500 + l), []⟩
  | .badAddress => ⟨3, 0, []⟩

/-- The lower of two core indices. -/
def lower (a b : Option Nat) : Option Nat :=
  match a, b with
  | some i, some j => some (min i j)
  | some i, none => some i
  | none, b => b

/-- Write the selected cores of crucible d from crucible t, and the lowest that could not be written, by global index. -/
def State.castTo (s : State) (t d : Cru) (w : Nat) (bs : List Byte) (mask : W128) : Option Nat × State :=
  let cores := groupCores mask d.val
  if d = t ∨ ((s.crucible d).live ∧ ((s.crucible t).port (bridgePort t d)).mode = .up) then
    let (bad, x) := (s.crucible d).writeCores none w bs cores
    (bad.map (fun l => d.val * 500 + l), s.putCrucible d x)
  else (cores.head?.map (fun l => d.val * 500 + l), s)

/-- A COREMASK write on its arrival crucible. -/
def State.applyCast (s : State) (t : Cru) (p : Packet) : Reply × State :=
  let w := gaOffset p.addr
  if gaSpace p.addr = 1 ∧ w < windowSize ∧ (regionOf 1 w p.payload.length).isSome then
    let (bad, s) := ([0, 1, 2, 3] : List Cru).foldl (fun (bad, s) d =>
      let (b, s) := s.castTo t d w p.payload p.mask
      (lower bad b, s)) ((none : Option Nat), s)
    (match bad with
     | none => ⟨0, 0, []⟩
     | some i => ⟨2, BitVec.ofNat 12 i, []⟩, s)
  else (⟨3, 0, []⟩, s)

/-- A request is applied at crucible t (check 8). -/
def State.applyRequest (s : State) (t : Cru) (p : Packet) : Reply × State :=
  let x := s.crucible t
  let sp := gaSpace p.addr
  let off := gaOffset p.addr
  match p.kind.toNat with
  | 0x01 =>
    if p.coremask then s.applyCast t p
    else match regionOf sp off p.payload.length with
      | none => (⟨3, 0, []⟩, s)
      | some r =>
        let (a, x) := x.writeRegion .fabric none r p.payload none
        (a.reply t [], s.putCrucible t x)
  | 0x02 =>
    match regionOf sp off p.aux.toNat with
    | none => (⟨3, 0, []⟩, s)
    | some r =>
      let (a, bs, x) := x.readRegion .fabric none r p.aux.toNat none
      (a.reply t bs, s.putCrucible t x)
  | k =>
    match if sp = 1 then tallyPlace off else none with
    | none => (⟨3, 0, []⟩, s)
    | some (l, w) =>
      let (a, x) := if k = 0x03 then x.remoteSignal none l w else x.remoteTake none l w
      (a.reply t [], s.putCrucible t x)

/-- The response to a request; with no usable port it waits (R398, R405). -/
def State.respond (s : State) (t : Cru) (p : Packet) (r : Reply) : State :=
  let x := s.crucible t
  let q : Packet :=
    { x.newPacket t (if p.kind = 0x02 then 0x11 else 0x10) 2 p.srcLoc (if p.kind = 0x02 ∧ r.status = 0 then r.data else []) with
      unseq := p.unseq, stream := p.stream, psn := p.psn, aux := r.status.setWidth 32 ||| (r.core.setWidth 32 <<< 16) }
  let d : Cru := Fin.ofNat 4 p.srcCru.toNat
  match x.choosePort t [p.src.toNat] d 3 none with
  | some n => (s.putCrucible t (x.chose n)).enterPort t n 3 q
  | none =>
    s.putCrucible t (x.onXport (fun v => { v with nextNum := v.nextNum + 1,
                                                  rsps := v.rsps ++ [RspWait.mk v.nextNum q p.src.toNat d] }))

/-- The window of R413: distance of p above EXPECTED. -/
def Conn.ahead (v : Conn) (p : W32) : Nat := (p - v.expected).toNat

def Conn.found (v : Conn) (p : W32) : Option Applied := v.applied.find? (fun a => a.psn == p)

/-- EXPECTED moves over the PSNs already applied. -/
def Conn.advance (v : Conn) : Nat → Conn
  | 0 => v
  | n + 1 => if (v.found v.expected).isSome then { v with expected := v.expected + 1 }.advance n else v

/-- A packet is recorded as applied. STATUSes below EXPECTED − 256 are forgotten. -/
def Conn.record (v : Conn) (a : Applied) : Conn :=
  let v := { v with applied := v.applied ++ [a] }.advance 256
  { v with applied := v.applied.filter (fun a => decide ((v.expected - a.psn).toNat ≤ 256) || decide (v.ahead a.psn < 256)) }

/-- The scratchpad of the core that a unicast WRITE or READ names, where it may be accessed, with the offset. -/
def Crucible.accessedScratch (x : Crucible) (p : Packet) : Option (Nat × Nat) :=
  if p.coremask then none
  else match regionOf (gaSpace p.addr) (gaOffset p.addr) (if p.kind = 0x02 then p.aux.toNat else p.payload.length) with
    | some (.scratch l w) => if x.refuses l then none else some (l, w)
    | _ => none

/-- The check of a packet access to a scratchpad (R468, R470): an error that is not repeated is counted, and the access completes; at
the second, or one that stands in the storage, the access is not completed and its core is retired. The record holds the sequence
register, since the access is no instruction of the core (log 149). -/
def Crucible.checkAccess (x : Crucible) (p : Packet) (mismatch : Bool) : Bool × Crucible :=
  match x.accessedScratch p with
  | none => (true, x)
  | some (l, w) =>
    let lasting := decide (p.kind = 0x02) && !(x.phys l).parityAgrees w p.aux.toNat
    if !mismatch && !lasting then (true, x)
    else
      let seq := BitVec.ofNat 32 (x.phys l).seq
      let y := x.countMismatch l 5 3 seq
      if x.firstMismatch l && !lasting then (true, y)
      else
        let y := if x.firstMismatch l then y.countMismatch l 5 3 seq else y
        (false, y.requestRetire l srcXfer seq)

/-- The request reads or writes memory now: it is unsequenced, or new and within the window, or a READ applied before, whose data are
read again (R413). -/
def Conn.accesses (v : Conn) (p : Packet) : Bool :=
  p.unseq ||
    (match v.found p.psn with
     | some a => decide (v.ahead p.psn < 256 ∨ (v.expected - p.psn).toNat ≤ 256) && decide (p.kind = 0x02) && decide (a.status = 0)
     | none => decide (v.ahead p.psn < 256))

/-- Checks 7 and 8 of a request that arrived at port n of crucible c for crucible t. -/
def State.serveRequest (s : State) (c : Cru) (n : PortIx) (p : Packet) : State :=
  let t := packetTarget p c
  if p.unseq then
    let (r, s) := s.applyRequest t p
    s.respond t p r
  else
    let key := connKey p.src.toNat (Fin.ofNat 4 p.srcCru.toNat)
    let v := (s.crucible t).xport.conn key
    match v.found p.psn with
    | some a =>
      if v.ahead p.psn < 256 ∨ (v.expected - p.psn).toNat ≤ 256 then
        let s := s.atCrucible t (fun x => x.onXport (fun w => w.bump 5))
        if p.kind = 0x02 ∧ a.status = 0 then
          let (r, s) := s.applyRequest t p
          if r.status = 0 then s.respond t p r
          else
            { s with freeCtr := s.freeCtr + 1 }.respond t p ⟨a.status, a.core, (List.range p.aux.toNat).map (fun i => (Config.freeBytes s.freeCtr).getD i 0)⟩
        else s.respond t p ⟨a.status, a.core, []⟩
      else s.discard c n t 6
    | none =>
      if v.ahead p.psn < 256 then
        let (r, s) := s.applyRequest t p
        let s := s.atCrucible t (fun x => x.onXport (fun w => w.putConn key ((w.conn key).record ⟨p.psn, r.status, r.core⟩)))
        s.respond t p r
      else s.discard c n t 6

/-- A request for HBM whose partition is held (R322, R324). -/
def Crucible.holds (x : Crucible) (p : Packet) : Bool :=
  !p.coremask && (match regionOf (gaSpace p.addr) (gaOffset p.addr) (if p.kind = 0x02 then p.aux.toNat else p.payload.length) with
    | some (.hbm off) => x.hbm.isHeld .fabric off
    | _ => false)

/-- Checks 7 and 8, with what may keep the access from being done: a regulator, which holds the request until a later window, and the
check of the scratchpad bytes it accesses; an access not completed is neither applied nor answered. -/
def State.takeRequest (s : State) (c : Cru) (n : PortIx) (p : Packet) (mismatch : Bool) : State :=
  let t := packetTarget p c
  let x := s.crucible t
  if (x.xport.conn (connKey p.src.toNat (Fin.ofNat 4 p.srcCru.toNat))).accesses p then
    if x.holds p then s.putCrucible t (x.onXport (fun v => { v with held := v.held ++ [⟨c, n, p, mismatch⟩] }))
    else
      let (ok, x) := x.checkAccess p mismatch
      if ok then (s.putCrucible t x).serveRequest c n p else s.putCrucible t x
  else s.serveRequest c n p

/-- The requests held at crucible `t` are tried again. -/
def State.retryRequests (s : State) (t : Cru) : State :=
  let x := s.crucible t
  x.xport.held.foldl (fun s r => s.takeRequest r.cru r.port r.packet r.mismatch) (s.putCrucible t (x.onXport (fun v => { v with held := [] })))

/-! ### Responses (R398, R410, R412, R414) -/

/-- The packet a response answers: still unanswered by its sender. -/
def Crucible.answeredBy (x : Crucible) (p : Packet) : Option Pkt :=
  x.xport.pkts.find? (fun q =>
    q.sent && !q.answered && q.psn == p.psn && q.unseq == p.unseq && q.stream == p.stream && decide (p.src.toNat ∈ q.awaited) &&
      decide (q.destCru.val = p.srcCru.toNat) && (q.kind == 0x02) == (p.kind == 0x11))

/-- The failure a STATUS stands for. -/
def statusFail (q : Pkt) (p : Packet) : Option XferFault :=
  match (p.aux.extractLsb' 0 8).toNat with
  | 0 => if q.badRange then some (failAddress (q.addr.setWidth 32)) else none
  | 1 => some (failTally ((gaOffset q.addr % windowSize - 0x200000) / 8))
  | 2 => if q.coremask.isSome then some ⟨0x0B, srcRemote, (p.aux.extractLsb' 16 12).setWidth 32⟩
         else some (failTarget (gaCrucible q.addr) (gaOffset q.addr / windowSize))
  | _ => some (failAddress (q.addr.setWidth 32))

/-- Data or an acknowledgement reaches its transfer. -/
def Crucible.acknowledge (x : Crucible) (c : Cru) (o : Owner) (q : Pkt) (p : Packet) : Crucible :=
  let x := x.modLog o.core (fun g => { g with progXfer := g.progXfer + 1 })
  if q.lost then x else
  match statusFail q p with
  | some f => x.faultXfer o q.pc f
  | none =>
    match x.findXfer o with
    | none => x
    | some e =>
      if q.kind = 0x01 then x
      else
        let (bad, x) := match q.landing with
          | .none => (none, x)
          | .piece d =>
            let (out, rest) := e.landed d p.payload
            let x := x.modXfer o (fun e => { e with staged := rest })
            let n := x.xport.nextNum
            if out.2.isEmpty then (none, x) else
              let (bad, x) := x.deliver ⟨c, Fin.ofNat 500 o.core⟩ o e out.1 out.2
              (bad, x.onXport (fun t =>
                { t with pkts := t.pkts.map (fun (r : Pkt) => if n ≤ r.num then { r with staged := true } else r) }))
        match bad with
        | some f => x.faultXfer o q.pc f
        | none => (x.modXfer o (fun e => { e with toArrive := e.toArrive - 1 })).finishXfer o

/-- A response is accepted: the packet is resolved once every module asked has answered and its quiet time is over. -/
def Crucible.takeResponse (x : Crucible) (c : Cru) (p : Packet) : Crucible :=
  match x.answeredBy p with
  | none => x
  | some q =>
    let left := q.awaited.filter (· ≠ p.src.toNat)
    let done := left.isEmpty
    let x :=
      if done && (!q.resent || q.quiet) then x.dropPkt q.num
      else x.modPkt q.num (fun q => { q with awaited := left, answered := done, due := q.due.filter (· ≠ p.src.toNat) })
    match q.owner with
    | none => x
    | some o => (x.acknowledge c o q p).dropStale

/-! ### Urgent arrival (R425) -/

/-- The slot of a source module and type. -/
def Xport.slotOf (t : Xport) (p : Packet) : Option UrgentSlot :=
  t.slots.find? (fun u => u.module_ == p.src.toNat && u.type == p.aux.setWidth 8)

/-- A message newer than its slot's. -/
def Xport.isNews (t : Xport) (p : Packet) : Bool :=
  match t.slotOf p with
  | none => true
  | some u => olderEpoch (p.psn.setWidth 16) u.psn

def Xport.putSlot (t : Xport) (p : Packet) : Xport :=
  { t with slots := t.slots.filter (fun u => !(u.module_ == p.src.toNat && u.type == p.aux.setWidth 8)) ++
             [UrgentSlot.mk p.src.toNat (p.aux.setWidth 8) (p.psn.setWidth 16) p.payload] }

/-- The message types of R425 and R496. -/
def urgentTypes : List Nat := [1, 2, 3, 8, 9, 10, 11, 12]

/-- An URGENT of one type that passes the arrival checks is acknowledged; the flag says that it replaced its slot. One of a type that
is not defined is acknowledged as well, and then discarded, whichever type the command stands for (log 109). -/
def State.takeUrgent (s : State) (type : Byte) (c : Cru) (n : PortIx) (p : Packet) : State × Bool :=
  let defined := decide (p.aux.toNat ∈ urgentTypes)
  if p.kind = 0x20 ∧ p.aux ≠ type.setWidth 32 ∧ defined then (s, false)
  else match s.takesIn 0x20 c n p with
    | (s, false) => (s, false)
    | (s, true) =>
      let t := packetTarget p c
      let x := s.crucible t
      let d : Cru := Fin.ofNat 4 p.srcCru.toNat
      let news := defined && x.xport.isNews p
      let s := if news then s.putCrucible t (x.onXport (fun v => v.putSlot p)) else s
      let ack := { x.urgentPacket t 0x21 p.srcLoc d type (p.psn.setWidth 16) [] with aux := p.aux }
      (s.sendUc t p.src.toNat d ack, news)

end Sys2Proof.Machine
end

