-- ==== Sys2Proof/Machine/JobOps.lean ====
section
/-!
DEFINITION. The job set's commit point (R409, R430).
-/
namespace Sys2Proof.Machine

/-- Two VALID entries hold one location. -/
def sharedLocation : List (Nat × ModEntry) → Bool
  | [] => false
  | (_, e) :: rest => (e.valid && rest.any (fun (_, f) => f.valid && f.rack == e.rack && f.slot == e.slot)) || sharedLocation rest

/-- The set may be committed. -/
def JobSet.ok (j : JobSet) (slotId : BitVec 6) : Bool :=
  let e := Store.get modDefault j.table j.self.toNat
  !j.active || (j.slot == slotId && e.valid && e.rack == j.rack && e.slot == j.slot && !sharedLocation j.table)

/-- EPOCH, JOB_TAG, ACTIVE or a field of FAB_JOB_SELF differs. -/
def JobSet.differs (a b : JobSet) : Bool :=
  a.epoch != b.epoch || a.tag != b.tag || a.active != b.active || a.rack != b.rack || a.slot != b.slot || a.self != b.self

/-- Modules whose table entries differ. -/
def JobSet.changed (a b : JobSet) : List Nat :=
  ((a.table ++ b.table).map (·.1)).eraseDups.filter (fun m => Store.get modDefault a.table m != Store.get modDefault b.table m)

/-- Packets at the ports, but for the urgent class, leave no more if `hit` holds of them; with how many of them are responses. -/
def Crucible.dropWaits (x : Crucible) (hit : Packet → Bool) : Crucible × Nat :=
  let gone := fun (w : CreditWait) => w.packet.cls != 0 && hit w.packet
  ({ x with ports := x.ports.map (fun e => (e.1, { e.2 with waits := e.2.waits.filter (fun w => !gone w) })) },
   (x.ports.map (fun e => e.2.waits.countP (fun w => gone w && w.packet.cls == 2))).sum)

/-- Every connection at 0, every packet held given up (R409, R430). -/
def Crucible.resetConns (x : Crucible) : Crucible :=
  let (x, n) := x.dropWaits (fun _ => true)
  (x.abandonAll x.xport.pkts (x.xport.rsps.length + n)).onXport (fun t =>
    { t with conns := [], rsps := [], gen := t.gen + 1, genAll := t.gen + 1, connGen := [] })

/-- The connections to some modules at 0, their packets given up. -/
def Crucible.resetConnsOf (x : Crucible) (ms : List Nat) : Crucible :=
  let hit := x.xport.pkts.filter (fun q => ms.any (fun m => m == q.dest || decide (m ∈ q.awaited)))
  let (x, n) := x.dropWaits (fun p => decide (x.xport.job.live.moduleAt p.dstLoc ∈ ms))
  let away := fun (w : RspWait) => decide (w.dest ∈ ms)
  (x.abandonAll hit (x.xport.rsps.countP away + n)).onXport (fun t =>
    { t with conns := ms.foldl (fun v m => (List.range 4).foldl (fun v c => Store.erase v (4 * m + c)) v) t.conns,
             rsps := t.rsps.filter (fun w => !away w), plane := ms.foldl Store.erase t.plane, gen := t.gen + 1,
             connGen := ms.foldl (fun v m => Store.set zeroNat v m (t.gen + 1)) t.connGen })

/-- An accepted set becomes live. -/
def Crucible.acceptJob (x : Crucible) : Crucible :=
  let old := x.xport.job.live
  let new := x.xport.job.shadow
  let x := if old.differs new then x.resetConns.onXport (fun t => { t with plane := [] }) else if (old.changed new).isEmpty then x else x.resetConnsOf (old.changed new)
  x.onXport (fun t => { t with job := t.job.accept })

/-- The commit point passes: the set is taken or rejected (R18, R430). -/
def Crucible.jobPoint (x : Crucible) (slotId : BitVec 6) : Crucible :=
  if x.xport.job.commit then
    if x.xport.job.shadow.ok slotId then x.acceptJob
    else x.onXport (fun t => { t with job := t.job.reject, status := setFlag t.status 2 })
  else x

end Sys2Proof.Machine
end

