-- ==== Sys2Proof/Machine/StoreOps.lean ====
section
/-!
DEFINITION. The store controller (R595–R617): placing records, making them durable, the archive, compaction, reading.
-/
namespace Sys2Proof.Machine

/-- STORE_COUNT_k (R622). -/
def StoreBlock.bump (t : StoreBlock) (k n : Nat) : StoreBlock :=
  { t with count := Store.modify zero32 t.count k (fun v => satAdd v n) }

def segmentBytes : Nat := 65536

/-- Bytes a record takes (R597). -/
def recordSize (payload : List Byte) : Nat := (32 + payload.length + 63) / 64 * 64

/-- Header bytes 0 to 27 of a copy (0 or 1) of a record. -/
def Rec.head (r : Rec) (copy : Nat) : List Byte :=
  leBytes 2 r.kind.toNat ++ leBytes 2 r.payload.length ++ leBytes 4 r.key.toNat ++ leBytes 8 r.seq ++ leBytes 2 r.format.toNat ++
    leBytes 1 copy ++ List.replicate 9 0

/-- A copy of a record as MRAM or flash holds it: header, CRC, payload, and zeros to a multiple of 64 bytes (R597). -/
def Rec.copyBytes (r : Rec) (copy : Nat) : List Byte :=
  let bs := r.head copy ++ leBytes 4 (crc32c (r.head copy ++ r.payload)).toNat ++ r.payload
  bs ++ List.replicate (recordSize r.payload - bs.length) 0

/-- A copy's CRC matches, and it lies wholly in `room` bytes (R600). -/
def copyValid (bs : List Byte) (room : Nat) : Bool :=
  let n := leNat ((bs.drop 2).take 2)
  decide (32 + n ≤ bs.length) && decide ((32 + n + 63) / 64 * 64 ≤ room) &&
    leNat ((bs.drop 28).take 4) == (crc32c (bs.take 28 ++ (bs.drop 32).take n)).toNat

/-- Room for `n` bytes: in the segment written now, else in the next one. -/
def Ringed.place (r : Ringed) (n : Nat) : Ringed :=
  if r.used + n ≤ segmentBytes then { r with used := r.used + n } else { r with head := r.head + 1, used := n }

/-- Abandon the segment written now. -/
def Ringed.skip (r : Ringed) : Ringed := { r with head := r.head + 1, used := 0 }

/-- Segments of `total` not in use. -/
def Ringed.free (r : Ringed) (total : Nat) : Nat := total - (r.head - r.tail + 1)

/-! ### Current records (R600) -/

def kHistory : Byte := 0x06

/-- The current record of a KIND and KEY. -/
def StoreBlock.current (t : StoreBlock) (kind : Byte) (key : Nat) : Option Rec :=
  t.records.reverse.find? (fun r => r.kind == kind && r.key.toNat == key)

/-- A record becomes the current one of its KIND and KEY; history keeps them all. -/
def StoreBlock.insert (t : StoreBlock) (r : Rec) : StoreBlock :=
  { t with records := t.records.filter (fun q => q.kind == kHistory || q.kind != r.kind || q.key != r.key) ++ [r] }

/-! ### History and archive (R605, R606) -/

/-- A history entry. -/
def historyEntry (type cru : Byte) (secs step : Nat) (body : List Byte) : List Byte :=
  [type, cru, 0, 0] ++ leBytes 4 secs ++ leBytes 8 step ++ (body ++ List.replicate (16 - body.length) 0).take 16

/-- Payload cut into entries of 32 bytes. -/
def entriesOf (bs : List Byte) : Nat → List (List Byte)
  | 0 => []
  | n + 1 => if bs.length < 32 then [] else bs.take 32 :: entriesOf (bs.drop 32) n

def Rec.entries (r : Rec) : List (List Byte) := entriesOf r.payload 126

/-- An entry is archived: retirements, and types 3 to 6. TYPE of the fault record stands in word 1 bits [31:28] of its body. -/
def entryArchived (e : List Byte) : Bool :=
  let type := (e.getD 0 0).toNat
  (type == 1 && decide ((e.getD 23 0).toNat / 16 = 2)) || (decide (3 ≤ type) && decide (type ≤ 6))

/-! ### The controller's queue (R608) -/

/-- The store takes records: it is open, can be written, and no power-down has started. -/
def StoreBlock.accepts (t : StoreBlock) : Bool := t.ready && !t.failed && !t.stopped

/-- The next record is begun when none is in progress: it takes its SEQ. -/
def StoreBlock.begin_ (t : StoreBlock) : StoreBlock :=
  match t.writing, t.queue with
  | none, w :: rest => { t with writing := some (w, t.nextSeq, 0), queue := rest, nextSeq := t.nextSeq + 1 }
  | _, _ => t

/-- A record is queued, in arrival order (R608). -/
def StoreBlock.enqueue (t : StoreBlock) (w : RecWrite) : StoreBlock :=
  if t.accepts && decide (w.payload.length ≤ 4032) then { t with queue := t.queue ++ [w] }.begin_ else t

/-- A history entry is queued. -/
def StoreBlock.addHistory (t : StoreBlock) (key : Nat) (e : List Byte) : StoreBlock :=
  t.enqueue ⟨kHistory, BitVec.ofNat 32 key, 1, e, .nothing⟩

/-! ### Compaction (R601) -/

/-- History entries of records after SEQ `n`. -/
def StoreBlock.newerEntries (t : StoreBlock) (n : Nat) : Nat :=
  ((t.records.filter (fun r => r.kind == kHistory && decide (r.seq > n))).map (fun r => r.payload.length / 32)).sum

/-- A record of the oldest segment moves to the head of the journal, its SEQ kept. -/
def StoreBlock.moveRec (t : StoreBlock) (r : Rec) : StoreBlock :=
  if r.kind = kHistory ∧ t.newerEntries r.seq ≥ 65536 then { t with records := t.records.erase r }
  else
    let j := t.journal.place (recordSize r.payload)
    { t with journal := j, records := t.records.map (fun q => if q = r then { q with seg := j.head } else q) }

/-- With fewer than 8 segments free, the oldest is copied forward and freed. -/
def StoreBlock.compact (t : StoreBlock) : StoreBlock :=
  if t.journal.free 128 < 8 then
    let old := t.records.filter (fun r => r.seg == t.journal.tail)
    let t := old.foldl StoreBlock.moveRec t
    { t with journal := { t.journal with tail := t.journal.tail + 1 },
             wear := { t.wear with compactions := t.wear.compactions + 1 } }.bump 2 1
  else t

/-- A record goes to the journal: both copies have been read back (R599). -/
def StoreBlock.journalRec (t : StoreBlock) (w : RecWrite) (seq : Nat) : StoreBlock × Rec :=
  let j := t.journal.place (recordSize w.payload)
  let r : Rec := ⟨w.kind, w.key, seq, w.format, w.payload, j.head⟩
  (({ t with journal := j }.insert r).bump 0 1, r)

/-! ### The archive (R606, R615) -/

/-- Flash sectors of one archive copy. -/
def archiveSectors : Nat := 1024

/-- An erase of a flash sector is counted. -/
def StoreBlock.countErase (t : StoreBlock) (sector : Nat) : StoreBlock :=
  { t with wear := { t.wear with erases := Store.modify zeroNat t.wear.erases sector (fun n => n + 1) } }.bump 3 1

/-- An erase mark of a sector: 0 intent, 1 done. -/
def StoreBlock.eraseMark (t : StoreBlock) (sector mark : Nat) : StoreBlock :=
  ({ t with nextSeq := t.nextSeq + 1 }.journalRec ⟨0x09, BitVec.ofNat 32 sector, 1, leBytes 4 mark, .nothing⟩ t.nextSeq).1.compact

/-- A sector of the archive is erased between its two marks. -/
def StoreBlock.eraseSector (t : StoreBlock) (sector : Nat) : StoreBlock := ((t.eraseMark sector 0).countErase sector).eraseMark sector 1

/-- The archive erases its oldest sector, in both copies, when it is full. -/
def StoreBlock.roomInArchive (t : StoreBlock) : StoreBlock :=
  if t.archived.head - t.archived.tail + 1 > archiveSectors then
    let k := t.archived.tail % archiveSectors
    ({ t with archive := t.archive.filter (fun r => r.seg ≠ t.archived.tail),
              archived := { t.archived with tail := t.archived.tail + 1 } }.eraseSector (2048 + k)).eraseSector (3072 + k)
  else t

/-- Write one record to the archive. -/
def StoreBlock.archiveRec (t : StoreBlock) (r : Rec) : StoreBlock :=
  let a := t.archived.place (recordSize r.payload)
  { t with archived := a, archive := t.archive ++ [{ r with seg := a.head }] }.roomInArchive

/-- One hour in always-on ticks. -/
def hourTicks : Nat := 90000000000

/-- An hour of the archive's limit is over: a TYPE 7 entry of the port die counts the entries beyond it, once the store takes it. -/
def StoreBlock.closeHour (t : StoreBlock) (now : W64) : StoreBlock :=
  if now.toNat < t.archSince.toNat + hourTicks then t
  else if t.archOver = 0 then { t with archCount := 0, archSince := now }
  else if t.accepts then
    { t with archCount := 0, archSince := now, archOver := 0 }.addHistory 4
      (historyEntry 7 0xFF (now.toNat / 25000000) 0 (leBytes 16 t.archOver))
  else t

/-- Entries go to the archive up to 1,000 in an hour; the others are counted. -/
def StoreBlock.toArchive (t : StoreBlock) (now : W64) (r : Rec) (n : Nat) : StoreBlock :=
  let t := t.closeHour now
  if t.archCount + n ≤ 1000 then { t with archCount := t.archCount + n }.archiveRec r else { t with archOver := t.archOver + n }

/-- What of a durable record is archived (R606). -/
def StoreBlock.archiveOf (t : StoreBlock) (now : W64) (r : Rec) : StoreBlock :=
  if r.kind = kHistory then
    let es := r.entries.filter entryArchived
    if es.isEmpty then t else t.toArchive now { r with payload := es.flatten } es.length
  else if r.kind = 0x03 ∨ r.kind = 0x04 ∨ r.kind = 0x05 then t.toArchive now r 1
  else t

/-! ### Durable records (R598, R599, R608) -/

/-- Both copies of a record have been read back. -/
def StoreBlock.durable (t : StoreBlock) (now : W64) (w : RecWrite) (seq : Nat) : StoreBlock :=
  let (t, r) := t.journalRec w seq
  (t.archiveOf now r).compact

/-- A record that the port die writes within one command: durable, or failed (log 26). -/
def StoreBlock.commitNow (t : StoreBlock) (now : W64) (kind : Byte) (key : Nat) (payload : List Byte) : StoreBlock × Bool :=
  if t.accepts then
    ({ t with nextSeq := t.nextSeq + 1 }.durable now ⟨kind, BitVec.ofNat 32 key, 1, payload, .nothing⟩ t.nextSeq, true)
  else (t, false)

/-- WEAR's 64 bytes (R607). -/
def Wear.bytes (w : Wear) : List Byte :=
  leBytes 8 w.seconds ++ leBytes 4 w.cycles ++ leBytes 4 w.trips ++ leBytes 8 ((w.erases.map (·.2)).foldl max 0) ++
    leBytes 8 w.compactions ++ leBytes 8 w.spent ++ leBytes 8 w.wasted ++ List.replicate 16 0

/-- RESERVED_END: the first four bytes of the current LMS_RESERVE record (R612). -/
def StoreBlock.reservedEnd (t : StoreBlock) : Nat :=
  match t.current 0x01 0 with
  | some r => leNat (r.payload.take 4)
  | none => 0

/-! ### The register set (R617–R621) -/

/-- The set may run. -/
def StoreBlock.regsOk (t : StoreBlock) : Bool :=
  let r := t.regs.shadow
  !t.stopped && (r.op == 1 || r.op == 2 ||
    (r.op == 3 && r.kind == 0x08 && decide (r.key.toNat ≤ 2) && decide (r.len.toNat ≤ 1024)))

/-- A record or entry is found. -/
def StoreBlock.fill (t : StoreBlock) (r : Rec) (bs : List Byte) : StoreBlock :=
  { t with buf := Memory.writeBytes t.buf 0 bs,
           result := ⟨true, BitVec.ofNat 13 bs.length, r.format, BitVec.ofNat 64 r.seq⟩ }

def StoreBlock.notFound (t : StoreBlock) : StoreBlock := { t with result := ⟨false, 0, 0, 0⟩ }

/-- History entries of a key, newest first, each with its record. -/
def StoreBlock.history (t : StoreBlock) (key : Nat) : List (Rec × List Byte) :=
  ((t.records.filter (fun r => r.kind == kHistory && r.key.toNat == key)).reverse.map
    (fun r => r.entries.reverse.map (fun e => (r, e)))).flatten

/-- The set's commit point: the controller is between records. -/
def StoreBlock.point (t : StoreBlock) : StoreBlock :=
  if t.regs.commit && t.writing.isNone then
    if t.regsOk then
      let t := { t with regs := { t.regs with live := t.regs.shadow } }
      let r := t.regs.live
      let done := fun (t : StoreBlock) => { t with regs := { t.regs with commit := false } }
      match r.op.toNat with
      | 1 => done (match t.current r.kind r.key.toNat with
                   | some q => t.fill q q.payload
                   | none => t.notFound)
      | 2 => done (match (t.history r.key.toNat)[r.index.toNat]? with
                   | some (q, e) => t.fill q e
                   | none => t.notFound)
      | _ =>
        if r.len = 0 then done t
        else if t.accepts then
          { t with queue := ⟨0x08, r.key.setWidth 32, 1, Memory.readBytes t.buf 0 r.len.toNat, .append⟩ :: t.queue }.begin_
        else done t
    else { t with regs := t.regs.reject, flags := setFlag t.flags 2 }
  else t

/-- COMMIT is written: the set waits for its commit point. -/
def StoreBlock.commit (t : StoreBlock) : StoreBlock :=
  if t.regs.commit then t else { t with regs := { t.regs with commit := true } }.point

/-- What follows a record that is durable, or has failed. -/
def StoreBlock.finish (t : StoreBlock) (w : RecWrite) : StoreBlock :=
  let t := { t with writing := none }
  let t := if w.after = .append then { t with regs := { t.regs with commit := false } } else t
  t.point.begin_

end Sys2Proof.Machine
end

