-- ==== Sys2Proof/Machine/StepOps.lean ====
section
/-!
DEFINITION. The step protocol (R253–R255, R454, R455, R490–R512): the step agent and its tree, reports, the replay barrier, the
riser's release, Held and Fenced.
-/
namespace Sys2Proof.Machine

def cruList : List Cru := [0, 1, 2, 3]

/-- Change every live crucible. -/
def State.eachLive (s : State) (f : Cru → Crucible → Crucible) : State :=
  cruList.foldl (fun s c => if (s.crucible c).live then s.atCrucible c (f c) else s) s

/-! ### Records of the crucibles (R38, R608) -/

/-- The port die is away: paused by an activation, resetting, or its store not open (R38, R636). -/
def State.recordsAway (s : State) : Bool :=
  !s.portDieUp || !s.store.ready ||
    (match s.boot.activation with
     | some a => a.stage == 2
     | none => false)

/-- Bytes of the records that wait in a crucible's memory. -/
def Crucible.recBytes (x : Crucible) : Nat := (x.recQueue.map (fun w => recordSize w.payload)).sum

/-- The queue's 1 MiB has no room for one more record of the largest size, 4,096 bytes: it is full (log 125). -/
def Crucible.recFull (x : Crucible) : Bool := decide (2 ^ 20 < x.recBytes + 4096)

/-- A management core queues a record: it goes to the controller at once, or waits while the port die is away. One that finds no room
is lost (log 125). -/
def State.record (s : State) (c : Cru) (w : RecWrite) : State :=
  let x := s.crucible c
  if !s.recordsAway && x.recQueue.isEmpty then { s with store := s.store.enqueue w }
  else if x.recBytes + recordSize w.payload ≤ 2 ^ 20 then s.putCrucible c { x with recQueue := x.recQueue ++ [w] }
  else s

/-- The port die is back: the crucibles in service send what waits, each in its own order. -/
def State.sendRecords (s : State) : State :=
  if s.recordsAway then s
  else
    cruList.foldl (fun s c =>
      let x := s.crucible c
      if x.live && !x.recQueue.isEmpty then
        { s with store := x.recQueue.foldl StoreBlock.enqueue s.store }.putCrucible c { x with recQueue := [] }
      else s) s

/-! ### The agent and its tree (R494) -/

/-- The lowest-numbered in-service crucible, whose management core is the step agent. -/
def State.agent (s : State) : Option Cru := cruList.find? (fun c => (s.crucible c).live)

/-- The module's job set: that of the lowest-numbered crucible in service whose set is ACTIVE; with none, of the agent's (log 23). -/
def State.job (s : State) : JobSet :=
  match cruList.find? (fun c => (s.crucible c).live && (s.crucible c).xport.job.live.active) with
  | some c => (s.crucible c).xport.job.live
  | none =>
    match s.agent with
    | some c => (s.crucible c).xport.job.live
    | none => JobSet.reset

def State.activeList (s : State) : List Nat :=
  match s.tundish.placement with
  | some p => p.active
  | none => []

/-- Position of this module in the active list. -/
def State.position (s : State) : Option Nat :=
  if s.job.self.toNat ∈ s.activeList then some (s.activeList.idxOf s.job.self.toNat) else none

def treeChildren (n i : Nat) : List Nat := ((List.range 32).map (fun k => 32 * i + 1 + k)).filter (· < n)

def State.childModules (s : State) : List Nat :=
  match s.position with
  | none => []
  | some i => (treeChildren s.activeList.length i).filterMap (fun j => s.activeList[j]?)

def State.parentModule (s : State) : Option Nat :=
  match s.position with
  | none => none
  | some 0 => none
  | some (i + 1) => s.activeList[i / 32]?

def State.isLeader (s : State) : Bool := s.position == some 0

/-! ### Messages (R496, R497) -/

structure StepMsg where
  step : W48
  result : Byte
  hold : Bool
  covered : Nat
  firstFaulty : Nat
  gen : W16
  deriving DecidableEq, Repr

def StepMsg.bytes (m : StepMsg) : List Byte :=
  leBytes 6 m.step.toNat ++ [m.result, if m.hold then 1 else 0] ++ leBytes 2 m.covered ++ leBytes 2 m.firstFaulty ++
    leBytes 2 m.gen.toNat

/-- `n` bytes from position `i`, as a number. -/
def leField (bs : List Byte) (i n : Nat) : Nat := leNat ((bs.drop i).take n)

def stepMsgOf (bs : List Byte) : StepMsg :=
  ⟨BitVec.ofNat 48 (leField bs 0 6), BitVec.ofNat 8 (leField bs 6 1), leField bs 7 1 % 2 == 1, leField bs 8 2, leField bs 10 2,
   BitVec.ofNat 16 (leField bs 12 2)⟩

/-- A message from the agent to a module's crucible 0 (log 23). -/
def State.stepSend (s : State) (type : Byte) (m : StepMsg) (dest : Nat) : State :=
  match s.agent with
  | some c => s.sendUrgent c dest 0 type m.bytes
  | none => s

def State.stepUp (s : State) (type : Byte) (m : StepMsg) : State :=
  match s.parentModule with
  | some p => s.stepSend type m p
  | none => s

def State.stepDown (s : State) (type : Byte) (m : StepMsg) : State :=
  s.childModules.foldl (fun s c => s.stepSend type m c) s

/-- GEN of a step: the oldest unchecked one, or the one after. -/
def Steps.genOf (t : Steps) (n : W48) : W16 := if n = t.oldest then t.gen else t.genNext

/-- A message older than what the node holds for its step (R497). -/
def Steps.isOld (t : Steps) (n : W48) (g : W16) : Bool :=
  decide (n.toNat < t.oldest.toNat) || decide (g.toNat < (t.genOf n).toNat)

/-! ### The riser (R490, R493) -/

/-- Arm a riser for a step, every unit uncopied. -/
def Crucible.armRiser (x : Crucible) (step : W48) : Crucible :=
  { x with riser := { x.riser with armed := true, step := step, units := [], ingotHold := false } }

/-- Rounded up to 64 KiB. -/
def toPage (n : Nat) : Nat := (n + 65535) / 65536 * 65536

/-- Where region r starts, each on a 64 KiB boundary; r = 8 gives the end. -/
def regionStart (sizes : List Nat) (r : Nat) : Nat := ((sizes.take r).map toPage).sum

/-- Where region r + 1 of R292 starts in crucible c. -/
def Placement.regionAt (p : Placement) (c r : Nat) : Nat := regionStart (p.sizes.getD c []) r

/-- A crucible's instance of Tundish holds its part of a placement: its shard sets' geometry (R40, R289). A riser that is armed stays so,
with no unit copied. -/
def Crucible.takePart (x : Crucible) (p : Placement) (c : Cru) : Crucible :=
  let own := p.ownGroups.getD c.val 0
  let twin := p.twinGroups.getD c.val 0
  let x := { x with placed := p.digest }
  if x.riser.own = own ∧ x.riser.twin = twin then x
  else { x with riser := { x.riser with own := own, twin := twin, units := [] } }

/-- The instruction store from word 0 on. -/
def putWords (m : Store W64) (i : Nat) : List W64 → Store W64
  | [] => m
  | w :: ws => putWords (Store.set zero64 m i w) (i + 1) ws

/-- The words of each use, as (first, number): completion tallies of the core's own queues, arrivals and credits, and what the library uses
of the range of user kernels; words 44 to 47 are the system's (R346). -/
def tallyRange (use : Nat) : Nat × Nat := if use = 0 then (0, 16) else if use = 1 then (16, 12) else (28, 16)

/-- The tally words of the programs of the module at position `pos`: CAPACITY is at least the number of signals that can stand untaken, and
VALUE the operator's index, or 0xFFFFFFFF for the step framework's; a completion tally is signalled by its own core (R346–R348). -/
def talliesOf (body : List Byte) (active : List Nat) (pos : Nat) : List TallyUse :=
  (List.range 4).flatMap (fun c => (Config.tallyUses body active pos c).map (fun u =>
    let (l, use, i, need, held, op, agents) := u
    let (first, n) := tallyRange use
    ⟨c, l % 500, first + i % n, min 255 (max need held), BitVec.ofNat 32 (if op < leField body 20 4 then op else 0xFFFFFFFF), min 255 held,
     if use = 0 then [(active.getD pos 0, 500 * c + l % 500)] else agents⟩))

/-- The tally prologue of a placement on a crucible: each word used takes its CAPACITY, its VALUE, and the signals held at the start
(R349). -/
def Crucible.prologue (x : Crucible) (p : Placement) (c : Nat) : Crucible :=
  (p.tallies.filter (fun u => u.cru == c)).foldl (fun (x : Crucible) (u : TallyUse) =>
    x.modPhys u.core (fun q => q.setTally u.word (tallyPut (tallyInitWord (BitVec.ofNat 8 u.capacity) u.value) u.held))) x

/-- Code as instruction words: 8 bytes each (R299). -/
def codeWords : Nat → List Byte → List W64
  | 0, _ => []
  | n + 1, bs => BitVec.ofNat 64 (leNat (bs.take 8)) :: codeWords n (bs.drop 8)

/-- Index of user kernel k's entry in a placement, its words below index 7,680 (R299, R473). -/
def kernelEntry (body : List Byte) (k words : Nat) : Nat := Config.kernelEntry body k % (7681 - min 7680 words)

/-- The placement's user kernels in the instruction store, each whole (R298, R299). -/
def loadKernels (p : Placement) (m : Store W64) : Store W64 :=
  p.images.zipIdx.foldl (fun m (e : List Byte × Nat) =>
    putWords m (kernelEntry p.body e.2 (e.1.length / 8)) (codeWords (e.1.length / 8) e.1)) m

/-- Core l's program of a placement and the user kernels it calls, below index 7,680, and the nose suite above (R299, R473). -/
def Crucible.loadCore (x : Crucible) (p : Placement) (pos c l : Nat) : Crucible :=
  let mine := (Config.programs p.body p.active pos c).filter (fun u => u.1 == l)
  let x := mine.foldl (fun (x : Crucible) u => x.modPhys l (fun q => { q with istore := putWords q.istore 0 (u.2.take 7680) })) x
  let x := x.modPhys l (fun q => { q with istore := loadKernels p q.istore })
  x.modPhys l (fun q => { q with istore := putWords q.istore 7680 (Config.noseSuite.take 512) })

/-- The programs of a placement are loaded, and their prologue runs (R276, R349, R473, R551). -/
def Crucible.loadPrograms (x : Crucible) (p : Placement) (pos c : Nat) : Crucible :=
  ((List.range 500).foldl (fun x l => Crucible.loadCore x p pos c l) x).prologue p c

/-- The slots of the named rings of a crucible, one ring after another (log 35). -/
def State.layRings (s : State) (at_ : Nat) : List Nat → State
  | [] => s
  | n :: ns =>
    match s.host.rings.find? (fun r => r.num == n) with
    | none => State.layRings s at_ ns
    | some r =>
      State.layRings { s with host := { s.host with rings := s.host.rings.map (fun (q : Ring) => if q.num = n then { q with base := some at_ } else q) } }
        (at_ + toPage (r.slots * r.slotBytes)) ns

/-- The module acts on a placement: its crucibles' shard sets, programs and prologue, its rings' slots. -/
def State.actOn (s : State) (p : Placement) : State :=
  let s := { s with tundish := { s.tundish with placement := some p, next := none } }
  let s := s.eachLive (fun c x => (x.takePart p c).loadPrograms p p.pos c.val)
  cruList.foldl (fun s c => s.layRings (p.regionAt c.val 5) (p.rings.filter (fun r => r % 4 = c.val))) s

/-- The steps that began under the placement before are checked, or have been dropped: what takes its place does (R303, R305). -/
def State.takeNext (s : State) : State :=
  match s.tundish.next with
  | some (p, upTo) =>
    if upTo ≤ s.steps.oldest.toNat ∨ (s.steps.mode ≠ .running ∧ s.steps.mode ≠ .replaying) then
      match p with
      | some p => s.actOn p
      | none => { s with tundish := { s.tundish with placement := none, next := none } }
    else s
  | none => s

/-- Units not yet copied (R517). -/
def Riser.unitsLeft (r : Riser) : Nat :=
  r.unitTotal - (r.units.filter (fun (_, v) => v == .copied || v == .written)).length

/-! ### A new job (R269) -/

/-- `n` bytes from `a` on are 0. -/
def Memory.zero (m : Memory) (a n : Nat) : Memory := m.filter (fun (e : Host.Cell) => !(decide (a ≤ e.1) && decide (e.1 < a + n)))

/-- m, u and their scale codes of every group are 0x00, in the own set and in the twin's. -/
def Crucible.zeroMoments (x : Crucible) : Crucible :=
  let r := x.riser
  let mem := (List.range (r.own + r.twin)).foldl (fun m i => Memory.zero m (region2 + i * pageSize + 32768) 32768) x.hbm.mem
  { x with hbm := { x.hbm with mem := Memory.zero mem r.region3 ((r.own + r.twin) * 1024) } }

/-! ### Rings at a step's check (R454, R455) -/

/-- The k of step n for a ring. -/
def Ring.kOf (r : Ring) (oldest n : Nat) : Nat := r.stepsRun + (n - (oldest + r.before))

/-- Sequences step n consumes or produces. -/
def Ring.seqsOf (r : Ring) (oldest n : Nat) : List Nat := (List.range r.perStep).map (fun i => r.kOf oldest n * r.perStep + i)

/-- The ring lets step n begin: its inputs are announced, or its output slots are free. -/
def Ring.ready (r : Ring) (oldest n : Nat) : Bool :=
  if n < oldest + r.before then true
  else if r.output then (r.seqsOf oldest n).all (fun q => r.seqs.all (fun u => u % r.slots != q % r.slots))
  else (r.seqsOf oldest n).all (fun q => decide (q < r.freed) || decide (q ∈ r.seqs))

/-- The ring after step n is checked. -/
def Ring.check (r : Ring) (n : Nat) : Ring :=
  if 0 < r.before then { r with before := r.before - 1 }
  else if r.output then { r with stepsRun := r.stepsRun + 1, seqs := r.seqs ++ r.seqsOf n n }
  else
    let freed := (r.stepsRun + 1) * r.perStep
    { r with stepsRun := r.stepsRun + 1, freed := freed, seqs := r.seqs.filter (fun q => decide (freed ≤ q)) }

/-- RING_CREDIT goes on the ring's credit queue pair, under an EVENT_SEQ of its own; CRUCIBLE is the ring's (R449, R450, log 152). -/
def State.sendCredit (s : State) (r : Ring) : State :=
  if s.engineUp r.half && s.qpWorks r.half r.qpn then
    let e : Event := ⟨0xC010, s.host.eventSeq, BitVec.ofNat 8 (r.num % 4), s.steps.oldest,
      [BitVec.ofNat 8 r.num, 0, 0, 0] ++ leBytes 4 r.freed⟩
    let s := { s with host := { s.host with eventSeq := s.host.eventSeq + 1 } }
    (s.modHalf r.half (fun v => v.cmdBump 2)).sendEth r.half (.event r.qpn e)
  else s

/-- Every ring after step n is checked; an input ring's credit goes out. -/
def State.checkRings (s : State) (n : Nat) : State :=
  let credit := (s.host.rings.filter (fun r => !r.output && r.before == 0)).map (fun r => r.check n)
  credit.foldl State.sendCredit { s with host := { s.host with rings := s.host.rings.map (fun r => r.check n) } }

/-- Steps in progress are dropped: no ring waits for their check. -/
def HostShare.dropSteps (h : HostShare) : HostShare := { h with rings := h.rings.map (fun r => { r with before := 0 }) }

/-! ### A step is checked (R498) -/

/-- An ingot reads the riser of step n: it holds the state before that step (R493, R519). -/
def State.ingotReads (s : State) (n : Nat) : Bool :=
  match s.ingot with
  | some g => decide (g.step.toNat + 1 = n) && g.extents.any (fun e => !e.done && e.kind != 2)
  | none => false

/-- The steps after the oldest one is checked. -/
def Steps.shift (t : Steps) : Steps :=
  let n := t.oldest.toNat + 1
  { t with
    checked := t.oldest, checkedValid := true, everChecked := true, oldest := BitVec.ofNat 48 n, gen := t.genNext, genNext := 0,
    queue := t.queue.filter (fun q => decide (n < q.first + q.count)), next := max t.next n,
    phase := t.phaseNext, phaseNext := .waiting, finalTiles := t.finalNext, finalNext := [],
    faulty := t.faultyNext, faultyNext := false, ownClean := false, sentClean := false, sillage := .idle,
    sillageAgain := false, children := t.children.filter (fun r => decide (n ≤ r.step.toNat)),
    forwarded := t.forwarded.filter (fun (m, _) => decide (n ≤ m.toNat)), barrier := t.barrier,
    mode := if t.mode = .running ∧ t.queuedEnd ≤ n then .idle else t.mode }

/-- The oldest step is checked: its riser is released and the next armed, rings move, the host is told. -/
def State.stepDone (s : State) : State :=
  let n := s.steps.oldest
  let hold := s.ingotReads n.toNat
  let s := s.eachLive (fun _ x =>
    if hold then { x with riser := { x.riser with ingotHold := true } } else x.armRiser (n + 1))
  let s := s.checkRings n.toNat
  let s := s.stepStatus 0 n
  ({ s with steps := s.steps.shift }).takeNext

def State.applyChecked (s : State) (m : StepMsg) : State :=
  if m.step = s.steps.oldest ∧ m.gen = s.steps.gen ∧ s.steps.barrier = none ∧ (s.steps.mode = .running ∨ s.steps.mode = .idle) then
    (s.stepDown 0x09 m).stepDone
  else s

/-! ### Clean reports (R497, R498) -/

/-- Reports of every child for the oldest step, if all are there. -/
def State.childCover (s : State) (rs : List ChildReport) (n : W48) (g : W16) : Option Nat :=
  s.childModules.foldl (fun v m =>
    match v, rs.find? (fun r => r.from_ == m && r.step == n && r.gen == g) with
    | some k, some r => some (k + r.covered)
    | _, _ => none) (some 0)

/-- The subtree's clean report goes up, or the leader checks the step. -/
def State.cleanCheck (s : State) : State :=
  let t := s.steps
  if t.ownClean && !t.sentClean then
    match s.childCover t.children t.oldest t.gen with
    | none => s
    | some k =>
      let m : StepMsg := ⟨t.oldest, 0, false, k + 1, 0xFFFF, t.gen⟩
      let s := { s with steps := { t with sentClean := true } }
      if s.isLeader then (if k + 1 = s.activeList.length then s.applyChecked { m with covered := 0 } else s) else s.stepUp 0x08 m
  else s

/-! ### Halting and the barrier (R500, R508) -/

/-- Every core of every live crucible halts under R95. -/
def State.haltCores (s : State) : State := s.eachLive (fun _ x => x.haltAll)

/-- The passes of the step in its compute phase, and what it holds, are discarded. -/
def Steps.dropPasses (t : Steps) : Steps := 
  { t with passes := [], held := [], heldStats := [], back := none, sentChunks := [], reduced := [], blockSums := [] }

/-- The work of step r and later is discarded, and with it that a later step has been reported faulty: that report has been dropped, and
the step runs again under the same GEN (R497, R499). -/
def Steps.rewind (t : Steps) (r : W48) (g : W16) : Steps :=
  let t := { t with forwarded := t.forwarded.filter (fun (m, _) => decide (m.toNat ≤ r.toNat)) }
  if r = t.oldest then
    { t.dropPasses with
      gen := g, phase := .waiting, phaseNext := .waiting, finalTiles := [], finalNext := [], faulty := false, faultyNext := false,
      ownClean := false, sentClean := false, sillage := .idle, next := r.toNat, drained := [], children := [] }
  else
    let u := if t.phaseNext = .waiting then t else t.dropPasses
    { u with genNext := g, phaseNext := .waiting, finalNext := [], faultyNext := false, next := min t.next r.toNat, drained := [] }

/-- Phase 3 of step r has begun. -/
def Steps.updated (t : Steps) (r : W48) : Bool :=
  r == t.oldest && (t.phase == .update || t.phase == .check || t.phase == .reported)

/-- Enter a barrier for step r. -/
def State.enterBarrier (s : State) (r : W48) (g : W16) (hold epoch : Bool) : State :=
  let t := s.steps
  let s := s.haltCores
  { s with steps := { t.rewind r g with mode := .replaying, barrier := some ⟨r, g, hold, t.updated r, false, epoch⟩ } }

/-- REPLAY acted on: counted on every live crucible (R518), passed down, reported. -/
def State.applyReplay (s : State) (m : StepMsg) : State :=
  let t := s.steps
  let stale := decide (m.step.toNat < t.oldest.toNat) || decide (m.step.toNat > t.oldest.toNat + 1) ||
    decide (m.gen.toNat ≤ (t.genOf m.step).toNat)
  let later := match t.barrier with
    | some b => decide (b.step.toNat < m.step.toNat)
    | none => false
  if stale || later || t.mode == .held || t.mode == .fenced then s
  else
    let s := s.stepDown 0x0A m
    let s := s.eachLive (fun _ x => { x with riser := { x.riser with replays := satAdd x.riser.replays 1 } })
    (s.enterBarrier m.step m.gen m.hold false).stepStatus 2 m.step

/-- The leader answers a faulty report (R499). -/
def State.leaderReplay (s : State) (m : StepMsg) : State :=
  let g := m.gen + 1
  s.applyReplay { m with result := 0, covered := 0, gen := g, hold := m.hold || decide (g.toNat ≥ 3) }

/-! ### Faulty reports (R495, R497) -/

/-- A faulty report goes up, the first for its step and GEN; the leader replays. -/
def State.faultyUp (s : State) (m : StepMsg) : State :=
  if (m.step, m.gen) ∈ s.steps.forwarded then s
  else
    let s := { s with steps := { s.steps with forwarded := s.steps.forwarded ++ [(m.step, m.gen)] } }
    if s.isLeader then s.leaderReplay m else s.stepUp 0x08 m

/-- This module finds step n faulty: a fault after its clean report counts against the step in progress. -/
def State.reportFaulty (s : State) (n : Nat) (hold : Bool) : State :=
  let t := s.steps
  if t.mode ≠ .running ∧ t.mode ≠ .replaying then s
  else
    let late := decide (n > t.oldest.toNat) || t.ownClean
    if late then
      if t.faultyNext then s
      else
        let r := t.oldest + 1
        let s := ({ s with steps := { t with faultyNext := true } }).stepStatus 1 r
        s.faultyUp ⟨r, 1, hold, 1, s.job.self.toNat, t.genNext⟩
    else if t.faulty then s
    else
      let s := ({ s with steps := { t with faulty := true } }).stepStatus 1 t.oldest
      s.faultyUp ⟨t.oldest, 1, hold, 1, s.job.self.toNat, t.gen⟩

/-- The step in progress: the latest one started. -/
def Steps.current (t : Steps) : Nat := if t.phaseNext = .waiting then t.oldest.toNat else t.oldest.toNat + 1

/-- The causes that the crucibles have met are reported, and forgotten. -/
def State.gatherFaults (s : State) : State :=
  cruList.foldl (fun s c =>
    let found := (s.crucible c).unclean
    if found.isEmpty then s
    else
      let s := s.atCrucible c (fun x => { x with unclean := [] })
      found.foldl (fun s u => s.reportFaulty (u.getD s.steps.current) false) s) s

/-! ### Draining (R500, R501, R504) -/

/-- A core is still at work, or waits for its retirement (R472). -/
def Crucible.undrained (x : Crucible) : Bool :=
  !x.xport.pkts.isEmpty ||
    (List.range 500).any (fun l =>
      let g := x.log l
      g.mode == .running || g.mode == .halting || g.mode == .clearing || g.retireDue.isSome)

/-- Steps 1 and 2 of R500 are over: every crucible of the module serves or is out of service, and has drained. -/
def State.drainedNow (s : State) : Bool :=
  cruList.all (fun c =>
    let x := s.crucible c
    x.service == .outOfService || (x.live && !x.undrained))

/-- A crucible that lost its job set takes the copy of another (R414). -/
def State.restoreJob (s : State) (c : Cru) : State :=
  let x := s.crucible c
  if x.xport.job.live.active then s
  else match cruList.find? (fun d => (s.crucible d).live && (s.crucible d).xport.job.live.active) with
    | some d =>
      let j := (s.crucible d).xport.job.live
      s.putCrucible c (x.onXport (fun t => { t with job := { t.job with live := j, shadow := j } }))
    | none => s

/-- Faulted cores but retirements are recorded and cleared (R107, R500 step 3). -/
def State.clearCores (s : State) (c : Cru) : State :=
  (List.range 500).foldl (fun s l =>
    let x := s.crucible c
    let g := x.log l
    if g.mode = .faulted ∧ g.fault.cause ≠ 0x0E then
      (s.putCrucible c (x.putLog l { g with mode := .halted, fault := FaultRecord.none, clearReq := false })).cruEvent 0xC003 c
        (coreFaultBody l (x.physIx l) g.fault 0xFFFF)
    else s) s

/-- Copy unit `u` back from its riser. -/
def Crucible.restoreUnit (x : Crucible) (u : Nat) : Crucible :=
  match x.riser.place u with
  | none => x
  | some p =>
    let x := x.engineCopy p.riser p.off p.len
    { x with riser := { x.riser with units := Store.set unitDefault x.riser.units u .copied } }

/-- Every Written unit is copied back. -/
def Crucible.restoreRiser (x : Crucible) : Crucible :=
  (x.riser.units.filter (fun (_, v) => v == .written)).foldl (fun x (u, _) => x.restoreUnit u) x

/-- The tracked unit whose riser holds offset `a` (R489). -/
def Riser.riserAt (r : Riser) (a : Nat) : Option Nat :=
  let n := r.own + r.twin
  let r3 := r.region3
  if region2 + n * pageSize ≤ a ∧ a < r3 then r.unitAt (a - n * pageSize)
  else if r3 + n * 1024 ≤ a ∧ a < r3 + 2 * n * 1024 then r.unitAt (a - n * 1024)
  else none

/-- Tracked units that hold poison, in themselves or in their risers. -/
def Crucible.poisonedUnits (x : Crucible) : List Nat :=
  (x.hbm.poison.filterMap (fun (u, _) => (x.riser.unitAt (u * 32)).or (x.riser.riserAt (u * 32)))).eraseDups

/-- `n` bytes of a list, 0 beyond its end. -/
def padTo (n : Nat) (bs : List Byte) : List Byte := (bs ++ List.replicate (n - bs.length) 0).take n

/-- A unit is replaced from the twin, in itself and in its riser; what the twin holds is outside the module: a free value
(R504, log 24). -/
def Crucible.replaceUnit (x : Crucible) (i u : Nat) : Crucible :=
  match x.riser.place u with
  | none => x
  | some p =>
    let bs := padTo p.len (Config.freeBytes i)
    (x.hbmStoreAs .mgmt (some 4) p.off bs none).hbmStoreAs .mgmt (some 3) p.riser bs none

def State.replaceUnits (s : State) (c : Cru) : State :=
  (s.crucible c).poisonedUnits.foldl (fun s u =>
    let (i, s) := s.fresh
    s.atCrucible c (fun x => x.replaceUnit i u)) s

/-- Steps 3 to 5 of R500 on one crucible. -/
def State.drainCrucible (s : State) (restore : Bool) (c : Cru) : State :=
  if (s.crucible c).live then
    let s := (s.restoreJob c).atCrucible c Crucible.resetConns
    let s := s.clearCores c
    let s := if restore then s.atCrucible c Crucible.restoreRiser else s
    s.replaceUnits c
  else s

/-- DRAINED of the whole subtree goes up, or the leader sends RESUME (R501). -/
def State.resumeNow (s : State) (m : StepMsg) : State :=
  match s.steps.barrier with
  | some b =>
    if b.step = m.step ∧ b.gen = m.gen ∧ b.drained then
      let s := s.stepDown 0x0C m
      ({ s with steps := { s.steps with mode := .running, barrier := none } }).stepStatus 3 m.step
    else s
  | none => s

def State.drainCheck (s : State) : State :=
  match s.steps.barrier with
  | some b =>
    if b.drained then
      match s.childCover s.steps.drained b.step b.gen with
      | none => s
      | some k =>
        if s.isLeader then
          if k + 1 = s.activeList.length then s.resumeNow ⟨b.step, 0, false, 0, 0, b.gen⟩ else s
        else s.stepUp 0x0B ⟨b.step, 0, false, k + 1, 0, b.gen⟩
    else s
  | none => s

/-- Held: the agent starts no step work (R506, R508). -/
def State.enterHeld (s : State) : State :=
  ({ s with steps := { s.steps with mode := .held, barrier := none } }).stepStatus 4 s.steps.oldest

/-- Step 6 of R500: the tally prologue runs again, so that a step and its replay begin with the same counts (R350). -/
def State.rerunPrologue (s : State) : State :=
  match s.tundish.placement with
  | none => s
  | some p => s.eachLive (fun c x => x.prologue p c.val)

/-- The barrier's steps 2 to 6 are done on this module. -/
def State.drainEnd (s : State) : State :=
  match s.steps.barrier with
  | some b =>
    if b.drained || !s.drainedNow then s
    else
      let s := cruList.foldl (fun s c => s.drainCrucible b.restore c) s
      let s := s.rerunPrologue
      if b.hold || b.epoch then s.enterHeld
      else ({ s with steps := { s.steps with barrier := some { b with drained := true } } }).drainCheck
  | none => s

/-- An epoch change cancels a barrier and holds the module (R508). -/
def State.epochChanged (s : State) : State :=
  let t := s.steps
  let s := { s with steps := { t with gen := 0, genNext := 0, forwarded := [], children := [] } }
  match t.barrier with
  | some b => if b.drained then s.enterHeld else s.enterBarrier t.oldest 0 true true
  | none => if t.mode = .held then s else s.enterBarrier t.oldest 0 true true

/-! ### Fenced (R510) -/

/-- INGOT_DONE (R450): result, target, NVMe status. -/
def State.ingotDone (s : State) (result : Byte) (target : Byte) (status : W16) : State :=
  s.notify 0xC007 portDieSource ([result, target] ++ leBytes 2 status.toNat)

/-- A riser's release that waited for the ingot takes place. -/
def State.freeRisers (s : State) : State :=
  s.eachLive (fun _ x => if x.riser.ingotHold then x.armRiser s.steps.oldest else x)

/-- A failed ingot ends once no command is in flight: INGOT_DONE with result 1, and its riser hold ends (R532). -/
def State.settleIngot (s : State) : State :=
  match s.ingot with
  | none => s
  | some g =>
    match g.failed with
    | some (target, status) =>
      if g.cmds.isEmpty then (({ s with ingot := none }).ingotDone 1 target status).freeRisers else s
    | none => s

/-- The ingot in progress fails; the first failure counts. -/
def State.failIngot (s : State) (target : Byte) (status : W16) : State :=
  match s.ingot with
  | none => s
  | some g => { s with ingot := some { g with failed := some (g.failed.getD (target, status)) } }.settleIngot

/-- Every tracked unit of a crucible is undefined: free values (R540). -/
def State.spoilShards (s : State) (c : Cru) : State :=
  (List.range (s.crucible c).riser.unitTotal).foldl (fun s u =>
    let (i, s) := s.fresh
    s.atCrucible c (fun x =>
      match x.riser.place u with
      | none => x
      | some p => { x with hbm := { x.hbm with mem := Memory.writeBytes x.hbm.mem p.off (padTo p.len (Config.freeBytes i)) } })) s

/-- A failed restore ends once no command is in flight: the shard regions are undefined, and no STEP is accepted (R540). -/
def State.settleRestore (s : State) : State :=
  match s.restore with
  | none => s
  | some r =>
    match r.failed with
    | some (target, status) =>
      if r.cmds.isEmpty then
        let s := if r.frozenOnly then s else cruList.foldl State.spoilShards s
        ({ s with restore := none, tundish := { s.tundish with shardsBad := true } }).ingotDone 1 target status
      else s
    | none => s

def State.failRestore (s : State) (target : Byte) (status : W16) : State :=
  match s.restore with
  | none => s
  | some r => { s with restore := some { r with failed := some (r.failed.getD (target, status)) } }.settleRestore

/-- A failure of R532 that is no NVMe error. -/
def State.failTransfers (s : State) : State := (s.failIngot 0xFF 0).failRestore 0xFF 0

/-- ACTIVE 0 is committed on every crucible. -/
def Crucible.deactivate (x : Crucible) : Crucible :=
  let j := { x.xport.job.live with active := false }
  (x.onXport (fun t => { t with job := { t.job with shadow := j } })).acceptJob

/-- The module is fenced by a message that names `epoch`, sent by module m. -/
def State.enterFenced (s : State) (epoch : W16) (m : Nat) : State :=
  let s := s.haltCores.eachLive (fun _ x => x.deactivate)
  let s := { s with steps := { s.steps with mode := .fenced, barrier := none, queue := [], queuedEnd := s.steps.next } }
  let s := s.failTransfers
  (s.stepStatus 5 s.steps.oldest).notify 0xC008 portDieSource (leBytes 2 epoch.toNat ++ leBytes 2 m)

/-- Sillage is due for the oldest step (R480). -/
def State.sillageDue (s : State) : Bool :=
  let i := (s.crucible 0).res.sillageInterval.toNat
  s.steps.sillageAgain || (decide (i ≠ 0) && decide (s.steps.oldest.toNat % i = 0))

end Sys2Proof.Machine
end

