-- ==== Sys2Proof/Machine/CoreCtl.lean ====
section
/-!
DEFINITION. Control of the cores: RUN, HALT and CLEAR_FAULT, the remap table and the instruction-store copies (R94–R103, R107,
R116–R118).
-/
namespace Sys2Proof.Machine

/-! ### RUN, HALT, CLEAR_FAULT -/

/-- A Halted core starts at the START_PC of its RUN. -/
def Crucible.start (x : Crucible) (l : Nat) (pc : BitVec 13) : Crucible :=
  (x.modPhys l (fun p => { p with pc := pc })).putLog l { x.log l with mode := .running, waiting := none, runWaiting := none }

/-- A copy into the instruction store of core `l` is in progress. -/
def Crucible.loading (x : Crucible) (l : Nat) : Bool :=
  match x.core.copying with
  | some (_, ls) => decide (l ∈ ls)
  | none => false

/-- RUN: START_PC is stored; a Halted core starts there, at once or when its copy ends; a core in any other state ignores it. Of two
RUNs that wait the first takes effect, and the second then meets a Running core (R94, R111, R118). -/
def Crucible.run (x : Crucible) (l : Nat) (pc : BitVec 13) : Crucible :=
  let x := x.modLog l (fun g => { g with startPc := pc })
  if (x.log l).mode = .halted then
    if x.loading l then x.modLog l (fun g => { g with runWaiting := some (g.runWaiting.getD pc) }) else x.start l pc
  else x

/-- CLEAR_FAULT: a Faulted core whose operations have settled enters Halted, its record 0; else it waits for them. -/
def Crucible.clearFault (x : Crucible) (l : Nat) : Crucible :=
  let g := x.log l
  if g.mode = .faulted then (x.putLog l { g with clearReq := true }).settle l else x

def execRunCore (a : Accessor) (k : CoreId) (startPc : BitVec 13) (s : State) : Host.Outcome State Fault Refusal :=
  .next (if s.reach a k.cru then s.atCrucible k.cru (fun x => x.run k.core.val startPc) else s)

def execHaltRequest (a : Accessor) (k : CoreId) (s : State) : Host.Outcome State Fault Refusal :=
  .next (if s.reach a k.cru then s.atCrucible k.cru (fun x => x.mgmtHalt k.core.val) else s)

def execClearFault (a : Accessor) (k : CoreId) (s : State) : Host.Outcome State Fault Refusal :=
  .next (if s.reach a k.cru then s.atCrucible k.cru (fun x => x.clearFault k.core.val) else s)

/-- The logical side of Clearing's end: counters 0, Halted (R211). -/
def LogCore.cleared (g : LogCore) : LogCore :=
  { g with mode := .halted, sat := 0, flush := 0, satPrev := 0, flushPrev := 0 }

/-- CLEARING_DONE: the bound core's memories and registers are 0, and the logical core is Halted. -/
def Crucible.clearingDone (x : Crucible) (l : Nat) : Crucible :=
  if x.live && (x.log l).mode == .clearing then
    (x.putPhys l PhysCore.reset).putLog l (x.log l).cleared
  else x

/-- The management core loads a core bound in a retired one's place, for the replay (R472). -/
def State.reloadCore (s : State) (k : CoreId) : State :=
  let l := k.core.val
  let g := (s.crucible k.cru).log l
  match s.tundish.placement with
  | some p =>
    if g.reload && g.mode == .halted then
      s.atCrucible k.cru (fun x => (x.loadCore p (s.position.getD 0) k.cru.val l).modLog l (fun g => { g with reload := false }))
    else s
  | none => s

def execClearingDone (k : CoreId) (s : State) : Host.Outcome State Fault Refusal :=
  .next ((s.atCrucible k.cru (fun x => x.clearingDone k.core.val)).reloadCore k)

/-! ### Remap (R98–R103) -/

def remapOf (m : Store (BitVec 10)) (l : Nat) : Nat := (Store.get remapDefault m l).toNat

/-- Logical cores whose entry a commit changes. -/
def CoreArray.remapChanged (a : CoreArray) : List Nat :=
  (List.range 500).filter (fun l => remapOf a.remap.shadow l != remapOf a.remap.live l)

/-- The set breaks no rule of R99. -/
def CoreArray.remapOk (a : CoreArray) : Bool :=
  let ps := (List.range 500).map (remapOf a.remap.shadow)
  ps.all (fun p => decide (p < 528)) && decide ps.Nodup &&
    a.remapChanged.all (fun l => !Store.get retiredDefault a.retired (remapOf a.remap.shadow l))

/-- The set becomes live: a logical core bound to a new physical core enters Clearing. -/
def Crucible.remapAccept (x : Crucible) : Crucible :=
  let x := x.core.remapChanged.foldl (fun (x : Crucible) l => (x.modLog l (fun g => g.rebound x.num.regs.live)).losePkts l) x
  { x with core := { x.core with remap := x.core.remap.accept } }

/-- The commit point passes once every core whose entry changes is Halted or Faulted. -/
def Crucible.remapPoint (x : Crucible) : Crucible :=
  if x.core.remap.commit && x.core.remapChanged.all (fun l => (x.log l).mode == .halted || (x.log l).mode == .faulted) then
    if x.core.remapOk then x.remapAccept
    else { x with core := { x.core with remap := x.core.remap.reject, status := setFlag x.core.status 0 } }
  else x

/-- COMMIT of the remap set is written. -/
def Crucible.remapCommit (x : Crucible) : Crucible :=
  { x with core := { x.core with remap := { x.core.remap with commit := true } } }

def execRemapCommit (a : Accessor) (c : Cru) (s : State) : Host.Outcome State Fault Refusal :=
  .next (if s.reach a c then s.atCrucible c Crucible.remapCommit else s)

def execRemapCommitPoint (c : Cru) (s : State) : Host.Outcome State Fault Refusal :=
  .next (s.atCrucible c (fun x => if x.live then x.remapPoint else x))

/-! ### Loading instruction stores (R116–R118) -/

def IstoreRegs.src (r : IstoreRegs) : Nat := r.srcLo.toNat + r.srcHi.toNat * 2 ^ 32

/-- The set breaks no rule of R117. -/
def IstoreRegs.ok (r : IstoreRegs) : Bool :=
  decide (r.src % 64 = 0) && decide (r.len.toNat % 8 = 0) && decide (r.dst.toNat % 8 = 0) && decide (r.len.toNat ≤ 65536) &&
    decide (r.dst.toNat + r.len.toNat ≤ 65536) && decide (r.src + r.len.toNat ≤ 2 ^ 36)

/-- The logical cores GROUPS selects. -/
def IstoreRegs.cores (r : IstoreRegs) : List Nat := (List.range 500).filter (fun l => r.groups.getLsbD (l / 16))

/-- Instructions of the copied bytes, 8 bytes each, from instruction `i` on. -/
def loadWords (m : Store W64) (i : Nat) (bs : List Byte) : Nat → Store W64
  | 0 => m
  | n + 1 => loadWords (Store.set zero64 m i (BitVec.ofNat 64 (leNat (bs.take 8)))) (i + 1) (bs.drop 8) n

/-- An accepted set starts its copy: every selected Halted core is written, the others are counted (R118). The bytes are read from
HBM by the management core's side; poison among them is met as by any read (R318). -/
def Crucible.istoreStart (x : Crucible) : Crucible :=
  let r := x.core.istore.shadow
  let (ls, others) := r.cores.partition (fun l => (x.log l).mode == .halted)
  let x := { x with core := { x.core with istore := x.core.istore.accept, skipped := 0 } }
  if r.len = 0 then x
  else
    let (bs, x) := x.hbmRead .mgmt r.src r.len.toNat none
    let x := ls.foldl (fun (x : Crucible) l => x.modPhys l (fun p =>
      { p with istore := loadWords p.istore (r.dst.toNat / 8) bs (r.len.toNat / 8) })) x
    { x with core := { x.core with copying := some (r, ls), skipped := BitVec.ofNat 9 others.length } }

/-- The commit point: BUSY reads 0. -/
def Crucible.istorePoint (x : Crucible) : Crucible :=
  if x.core.istore.commit && x.core.copying.isNone then
    if x.core.istore.shadow.ok then x.istoreStart
    else { x with core := { x.core with istore := x.core.istore.reject, status := setFlag x.core.status 2 } }
  else x

/-- BUSY returns to 0, and the RUNs that waited take effect. -/
def Crucible.istoreDone (x : Crucible) : Crucible :=
  match x.core.copying with
  | none => x
  | some (_, ls) =>
    let x := { x with core := { x.core with copying := none } }
    ls.foldl (fun (x : Crucible) l =>
      let g := x.log l
      match g.runWaiting with
      | some pc => if g.mode = .halted then x.start l pc else x.putLog l { g with runWaiting := none }
      | none => x) x

def Crucible.istoreCommit (x : Crucible) : Crucible :=
  { x with core := { x.core with istore := { x.core.istore with commit := true } } }

def execIstoreCommit (a : Accessor) (c : Cru) (s : State) : Host.Outcome State Fault Refusal :=
  .next (if s.reach a c then s.atCrucible c Crucible.istoreCommit else s)

def execIstoreCopy (c : Cru) (s : State) : Host.Outcome State Fault Refusal :=
  .next (s.atCrucible c (fun x => if x.live then x.istorePoint else x))

def execIstoreCopyDone (c : Cru) (s : State) : Host.Outcome State Fault Refusal :=
  .next (s.atCrucible c (fun x => if x.live then x.istoreDone else x))

end Sys2Proof.Machine
end

