-- ==== Sys2Proof/Machine/LinkOps.lean ====
section
/-!
DEFINITION. Ports: negotiation, lanes, loss (R368–R386).
-/
namespace Sys2Proof.Machine

/-- The crucible's ports work: it is not held, frozen or out of service. -/
def Crucible.linkOn (x : Crucible) : Bool := !x.frozen && (x.service == .inService || x.service == .resetting)

def setEvent (p : Port) (i : Nat) : Port := { p with event := setFlag p.event i }

def laneCount (m : BitVec 17) : Nat := (lanesOf m).length

/-- The crucible at the other end of bridge port n of crucible c (R369). -/
def bridgeFar (c : Cru) (n : Nat) : Cru := Fin.ofNat 4 (c.val + 1 + (n - 13))

/-! ### Negotiation (R370–R374) -/

/-- No codeword, credit, message or lane change is left. -/
def Port.emptied (p : Port) : Port :=
  { p with swap := none, replay := [], txFlits := [], extra := 0, msgs := [], changes := [], owed := 0, phase := 0, closing := false,
           keepSent := none, keepHeard := none, bad := [], rxHeld := [], badTimes := [], credit := [], freed := [] }

/-- A mode none of whose fields is settled. -/
def Port.cleared (p : Port) : Port :=
  { p.emptied with rate := 3, fec := 3, width := 0, features := 0, active := 0, spare := 0x1F }

/-- The port enters Detect and reads its live mode set. -/
def Port.toDetect (p : Port) : Port :=
  { p.cleared with mode := .detect, inUse := p.set.live, signal := 0, checkRestarted := false }

/-- A negotiation fails: Down with its cause, and a longer back-off (R384). -/
def Port.fail (p : Port) (cause : BitVec 4) : Port :=
  setEvent ({ p.cleared with mode := .down, cause := cause, backoff := min 1024 (2 * p.backoff) }.bump 5) 6

/-- Widths 1, 2, 4, 8, 16 the sender has lanes with signal for (R371). -/
def offeredWidths (w : BitVec 5) (signal : BitVec 17) : BitVec 5 :=
  BitVec.ofNat 5 ((List.range 5).foldl (fun v i => if w.getLsbD i ∧ 2 ^ i ≤ laneCount signal then v + 2 ^ i else v) 0)

/-- The exchange page of port n of crucible c (R371). -/
def Port.page (p : Port) (c : Cru) (n : Nat) : W64 :=
  let w := offeredWidths p.inUse.widths p.signal
  BitVec.ofNat 64 (p.inUse.required.toNat * 2 ^ 56 + p.inUse.offered.toNat * 2 ^ 48 + p.inUse.fec.toNat * 2 ^ 46 + w.toNat * 2 ^ 41 +
    p.inUse.rates.toNat * 2 ^ 38 + n * 2 ^ 24 + c.val * 2 ^ 16 + 0x100 + (if n < 13 then 1 else 2))

/-- MISCABLED (R372). -/
def miscabled (c : Cru) (n : Nat) (page : W64) : Bool :=
  let kind := (page.extractLsb' 0 8).toNat
  let index := (page.extractLsb' 24 6).toNat
  (page.extractLsb' 8 8 != 1) ||
    (if n < 13 then kind != 3 || index != 13 * c.val + n
     else kind != 2 || (page.extractLsb' 16 8).toNat != (bridgeFar c n).val || index != 13 + (2 - (n - 13)))

/-- The common rate and width whose product is largest; of equals, the greater width. Rates are codes 0 to 2, widths exponents. -/
def bestMode (rates : BitVec 3) (widths : BitVec 5) : Option (Nat × Nat) :=
  let all := ((List.range 5).map (fun w => (List.range 3).map (fun r => (r, w)))).flatten
  (all.filter (fun (r, w) => rates.getLsbD r && widths.getLsbD w)).foldl (fun best (r, w) =>
    match best with
    | none => some (r, w)
    | some (r0, w0) => if 2 ^ (2 - r) * 2 ^ w ≥ 2 ^ (2 - r0) * 2 ^ w0 then some (r, w) else some (r0, w0)) none

/-- Both pages are there: Down with the first cause, or Train in the chosen mode. -/
def Port.exchange (p : Port) (c : Cru) (n : Nat) (page : W64) : Port :=
  let own := p.page c n
  let p := { p with partner := page }
  let both := own &&& page
  let fec := both.extractLsb' 46 2
  let offered := page.extractLsb' 48 8
  if miscabled c n page then p.fail 2
  else if p.inUse.required &&& ~~~offered ≠ 0 then p.fail 3
  else
    match bestMode (both.extractLsb' 38 3) (both.extractLsb' 41 5) with
    | none => p.fail 4
    | some (r, w) =>
      if fec = 0 then p.fail 4
      else { p with mode := .train, rate := BitVec.ofNat 2 r, width := BitVec.ofNat 5 (2 ^ w),
                    fec := if fec.getLsbD 0 then 0 else 1, features := p.inUse.offered &&& offered }

/-- The next lower rate both ends offer. -/
def Port.lowerRate (p : Port) : Option Nat :=
  (List.range 3).find? (fun r => decide (r > p.rate.toNat) && (p.inUse.rates.getLsbD r && p.partner.getLsbD (38 + r)))

/-- Train ends: enough lanes pass and the port is checked, or it trains at the next lower rate (R373). -/
def Port.trained (p : Port) (passed : BitVec 17) (recorded : List Nat) : Port :=
  let ok := lanesOf (passed &&& p.signal &&& ~~~p.inUse.exclude)
  let good := ok.filter (· ∉ recorded)
  let w := p.width.toNat
  let use := if good.length ≥ w then good else ok
  if use.length ≥ w then
    { p with mode := .check, active := (use.take w).foldl (fun m l => m ||| laneBit l) 0, checkRestarted := false,
             spare := if p.features.getLsbD 1 then BitVec.ofNat 5 ((use[w]?).getD 0x1F) else 0x1F }
  else match p.lowerRate with
    | some r => { p with rate := BitVec.ofNat 2 r }
    | none => p.fail 5

/-- Receive buffers by virtual channel (R400). -/
def rxBuffers : Store Nat := [(0, 32), (1, 512), (2, 160), (3, 512), (4, 160), (5, 512), (6, 160)]

/-- The port enters Up: numbering from 0, no credit, its whole buffers to advertise (R368, R401). -/
def Port.toUp (p : Port) : Port :=
  setEvent { p.emptied with mode := .up, txNext := 0, rxNext := 0, freed := rxBuffers } 7

/-- Check ends; `failed` lanes yield too many errors (R374). -/
def Port.checked (p : Port) (failed : BitVec 17) : Port :=
  let bad := lanesOf (failed &&& p.active)
  let spareBad := p.spare ≠ 0x1F ∧ failed.getLsbD p.spare.toNat
  let p := if spareBad then { p with spare := 0x1F } else p
  match bad with
  | [] => p.toUp
  | [l] =>
    if p.checkRestarted ∨ p.spare = 0x1F then p.fail 6
    else { p with active := (p.active &&& ~~~laneBit l) ||| laneBit p.spare.toNat, spare := 0x1F, checkRestarted := true }
  | _ => p.fail 6

/-! ### Notices and the loss of a port (R383, R384, R554) -/

/-- A port notice to crucible c of every other module of the job (R406, R425). -/
def State.noticeAll (s : State) (c : Cru) (n : PortIx) (type : Byte) : State :=
  let j := (s.crucible c).xport.job.live
  if n.val < 13 then
    ((j.table.filter (fun (m, e) => e.valid && m != j.self.toNat)).map (·.1)).foldl (fun s m =>
      s.sendUrgent c m c type (leBytes 2 j.self.toNat ++ [BitVec.ofNat 8 (13 * c.val + n.val)])) s
  else s

/-- A packet that the lost port n returns leaves by another port; with none usable a response or an urgent packet waits, and a request waits
for its resend (R384, R405, R407). A response within the module is for the crucible at the other end of the bridge. -/
def State.rerouteOne (s : State) (c : Cru) (n : PortIx) (w : CreditWait) : State :=
  let x := s.crucible c
  let p := w.packet
  let j := x.xport.job.live
  match x.xport.pkts.find? (fun q => q.sent && q.psn == p.psn && q.stream == p.stream && q.unseq == p.unseq && p.cls != 2 && p.cls != 0) with
  | some q =>
    match x.choosePort c q.awaited q.destCru w.vc none with
    | some n => (s.putCrucible c ((x.modPkt q.num (fun q => { q with port := n })).chose n)).enterWait c n w
    | none => s.putCrucible c (x.modPkt q.num (fun q => { q with due := q.awaited }))
  | none =>
    if p.cls = 2 then
      let m := j.moduleAt p.dstLoc
      let d := if n.val < 13 then c else bridgeFar c n.val
      match x.choosePort c [m] d w.vc none with
      | some n => (s.putCrucible c (x.chose n)).enterWait c n w
      | none =>
        s.putCrucible c (x.onXport (fun t => { t with nextNum := t.nextNum + 1, rsps := t.rsps ++ [RspWait.mk t.nextNum p m d] }))
    else if p.cls = 0 then s.sendUc c (j.moduleAt p.dstLoc) (Fin.ofNat 4 (p.addr.extractLsb' 50 2).toNat) p
    else s

/-- A port is lost: its packets go back to the transport layer, its replay buffer is dropped, the job and the host are told. `next` is
Down, or Disabled. A lost bridge marks the far crucible as resetting, and the step is faulty. -/
def State.losePort (s : State) (c : Cru) (n : PortIx) (cause : BitVec 4) (next : PortMode) : State :=
  let x := s.crucible c
  let p := x.port n.val
  let waits := p.waits
  let q := setEvent { p.cleared with mode := next, cause := cause, waits := [] } 6
  let q := if next = .down then q.bump 5 else q
  let s := s.putCrucible c (x.putPort n.val q)
  let s := waits.foldl (fun s w => s.rerouteOne c n w) s
  let s := (s.linkEvent c n 3 0 (cause.setWidth 8)).noticeAll c n 1
  if n.val < 13 then s
  else
    let far := (bridgeFar c n.val).val
    s.atCrucible c (fun x =>
      (if far ∈ x.farResetting then x else { x with farResetting := x.farResetting ++ [far] }).markUnclean none)

/-- What a port that has entered Up tells. -/
def State.tellUp (s : State) (c : Cru) (n : PortIx) : State :=
  let s := (s.linkEvent c n 4 0 0).noticeAll c n 2
  if n.val < 13 then s
  else s.atCrucible c (fun x => { x with farResetting := x.farResetting.filter (· ≠ (bridgeFar c n.val).val) })

/-! ### The lane-repair map (R373, R383, R604) -/

def laneKey (c : Cru) (n : PortIx) : Nat := 16 * c.val + n.val

/-- Recorded lanes of a port: number and kind. -/
def StoreBlock.lanes (t : StoreBlock) (c : Cru) (n : PortIx) : List (Nat × Byte) :=
  match t.current 0x05 (laneKey c n) with
  | none => []
  | some r => (List.range (leField r.payload 8 1)).map (fun i => (leField r.payload (16 + 4 * i) 1, r.payload.getD (17 + 4 * i) 0))

/-- A LANE_REPAIR record. -/
def laneRecord (c : Cru) (n : PortIx) (page : W64) (ls : List (Nat × Byte)) : RecWrite :=
  ⟨0x05, BitVec.ofNat 32 (laneKey c n), 1,
   leBytes 8 page.toNat ++ [BitVec.ofNat 8 ls.length] ++ List.replicate 7 0 ++
     (ls.map (fun (l, k) => [BitVec.ofNat 8 l, k, 0, 0])).flatten, .nothing⟩

/-- Lanes are added to the map, as lost (0) or marginal (1). -/
def State.recordLanes (s : State) (c : Cru) (n : PortIx) (page : W64) (ls : List Nat) (kind : Byte) : State :=
  let old := s.store.lanes c n
  let new := (ls.filter (fun l => old.all (fun (k, _) => k ≠ l))).map (fun l => (l, kind))
  if new.isEmpty then s else s.record c (laneRecord c n page (old ++ new))

/-- A different partner page removes the port's records. -/
def State.newPartner (s : State) (c : Cru) (n : PortIx) (page : W64) : State :=
  match s.store.current 0x05 (laneKey c n) with
  | none => s
  | some r =>
    if leField r.payload 8 1 ≠ 0 ∧ leField r.payload 0 8 ≠ page.toNat then
      s.record c (laneRecord c n page [])
    else s

/-! ### Lanes (R377, R381, R382) -/

/-- A codeword is sent again at the next boundary: it takes the place of one extra codeword in the dealing. -/
def Port.resend (p : Port) (w : TxCodeword) : Port × TxCodeword :=
  let w := { w with lane := p.laneOf p.txNext }
  ({ p with extra := p.extra + 1, owed := p.owed + 1, replay := p.replay.map (fun (v : TxCodeword) => if v.number = w.number then w else v) }.bump 0, w)

/-- A codeword of the replay buffer is sent again. -/
def State.resendCodeword (s : State) (c : Cru) (n : PortIx) (w : TxCodeword) : State :=
  let x := s.crucible c
  let (p, w) := (x.port n.val).resend w
  (s.putCrucible c (x.putPort n.val p)).emit [.resentCodeword c n w.lane w]

/-- A lane leaves the active list: the codewords dealt to it that have no ACK are resent on the others, and a port with too few lanes is
lost (R382, R384). -/
def State.dropLane (s : State) (c : Cru) (n : PortIx) (l : Nat) : State :=
  let x := s.crucible c
  let p := x.port n.val
  let q := { p with active := p.active &&& ~~~laneBit l }
  let s := (p.replay.filter (fun w => w.lane == l)).foldl (fun s w => s.resendCodeword c n w) (s.putCrucible c (x.putPort n.val q))
  if laneCount q.active < p.inUse.minLanes.toNat then s.losePort c n 7 .down else s

/-- A spare becomes active, in place of a marginal lane if one is named (R382). -/
def State.joinSpare (s : State) (c : Cru) (n : PortIx) (l : Nat) (out : Option Nat) : State :=
  let x := s.crucible c
  let p := x.port n.val
  let p := setEvent { p with active := (LaneChange.mk 0 l true out).apply p.active,
                             spare := if p.spare.toNat = l then 0x1F else p.spare, swap := none } 4
  (s.putCrucible c (x.putPort n.val p)).linkEvent c n 1 l 0

/-- The switch point of a change passes; a drop already applied changes nothing. -/
def State.applyChange (s : State) (c : Cru) (n : PortIx) (g : LaneChange) : State :=
  let x := s.crucible c
  let p := x.port n.val
  let s := s.putCrucible c (x.putPort n.val { p with changes := p.changes.erase g })
  if p.mode ≠ .up ∨ g ∉ p.changes then s.putCrucible c x
  else if g.join then s.joinSpare c n g.lane g.out
  else if p.active.getLsbD g.lane then s.dropLane c n g.lane else s

/-- A port closes for Banked: with nothing left to acknowledge it sends KEEP_ALIVE, 64 codewords ahead, and from the later of the two
switch points on it sends no codeword (R386). -/
def Port.close (p : Port) : Port × Option (BitVec 12) :=
  match p.keepSent, p.keepHeard with
  | none, _ =>
    if p.mode = .up ∧ p.closing ∧ p.replay.isEmpty ∧ p.txFlits.isEmpty then
      let v := BitVec.ofNat 12 (p.txNext + 64)
      ({ p with keepSent := some (p.txNext + 64), msgs := p.msgs ++ [⟨5, 0, v⟩] }, some v)
    else (p, none)
  | some a, some b =>
    if p.mode = .up ∧ p.closing ∧ max a b ≤ p.txNext then ({ p.emptied with mode := .keepAlive }, none) else (p, none)
  | _, none => (p, none)

/-- What is due at a port: lane changes whose switch point has passed, and the next stage of its closing. -/
def State.settlePort (s : State) (c : Cru) (n : PortIx) : State :=
  let p := (s.crucible c).port n.val
  let s := (p.changes.filter (fun g => decide (g.at_ ≤ p.txNext))).foldl (fun s g => s.applyChange c n g) s
  let x := s.crucible c
  let (q, said) := (x.port n.val).close
  let s := s.putCrucible c (x.putPort n.val q)
  match said with
  | some v => s.emit [.linkMsg c n 5 0 v]
  | none => s

/-- A link message with a switch point 64 codewords ahead is sent, and its change is due there. -/
def Port.tell (p : Port) (type : Byte) (lane : Nat) (change : Option LaneChange) : Port × BitVec 12 :=
  let v := BitVec.ofNat 12 (p.txNext + 64)
  ({ p with msgs := p.msgs ++ [⟨type, BitVec.ofNat 8 lane, v⟩], changes := p.changes ++ change.toList }, v)

/-- The lane is about to leave. -/
def Port.dropping (p : Port) (l : Nat) : Bool := p.changes.any (fun g => !g.join && g.lane == l)

/-- A lane is lost, active or spare: LANE_DROP is sent, a ready spare starts to adapt, and the lane is recorded before LANE_LOST can be
cleared (R381–R383). -/
def State.loseLane (s : State) (c : Cru) (n : PortIx) (l : Nat) : State :=
  let x := s.crucible c
  let p := x.port n.val
  let active := p.active.getLsbD l && !p.dropping l
  if p.mode = .up ∧ (active ∨ p.spare.toNat = l) then
    let q := (setEvent p 5).bump 4
    let q := if p.spare.toNat = l then { q with spare := 0x1F, swap := none }
             else if p.spare ≠ 0x1F ∧ p.swap = none then { q with swap := some ⟨p.spare.toNat, none, false⟩ } else q
    let (q, v) := q.tell 1 l (if active then some ⟨p.txNext + 64, l, false, none⟩ else none)
    (((s.putCrucible c (x.putPort n.val q)).linkEvent c n 0 l 0).emit [.linkMsg c n 1 (BitVec.ofNat 8 l) v]).recordLanes c n p.partner [l] 0
  else s

/-- A codeword on lane `l` was bad: counted against the lane, with those of the last millisecond, when `counts`. -/
def Port.noteBad (p : Port) (l : Nat) (now : W64) (counts : Bool) : Port :=
  if counts then { p with badTimes := p.badTimes.filter (fun e => decide (now.toNat ≤ e.2.toNat + 25000)) ++ [(l, now)] } else p

def Port.badOn (p : Port) (l : Nat) : Nat := p.badTimes.countP (fun e => e.1 == l)

/-- Codeword `number`, on lane `l`, is found bad for the k-th time, and asked for again, on the same lane. The fourth time, and with the
16th bad codeword on a lane within 1 ms, the lane is lost; after the fourth it counts against no lane (R377, R380, R381). -/
def State.badCodeword (s : State) (c : Cru) (n : PortIx) (l number k : Nat) : State :=
  let x := s.crucible c
  let p := (x.port n.val).noteBad l x.pwr.aon (decide (k ≤ 4))
  let s := (s.putCrucible c (x.putPort n.val ((p.bump 2).bump 3))).emit [.retryRequest c n l (BitVec.ofNat 12 number)]
  if k = 4 ∨ (k < 4 ∧ 16 ≤ p.badOn l) then s.loseLane c n l else s

/-- ACK covers a codeword: its number is at most 2,047 behind ACK, modulo 4,096. -/
def ackCovers (ack : BitVec 12) (number : Nat) : Bool := decide ((ack - BitVec.ofNat 12 number).toNat < 2048)

/-- Credits of a control flit, for VC `v` on. -/
def addCredits (m : Store Nat) (v : Nat) : List (BitVec 12) → Store Nat
  | [] => m
  | k :: ks => addCredits (Store.modify zeroNat m v (fun n => n + k.toNat)) (v + 1) ks

/-- A codeword in its turn: ACK frees the replay buffer, an odd one's control flit returns credit (R367, R376). -/
def Port.deliver (p : Port) (e : Nat × Codeword) : Port :=
  { p with replay := p.replay.filter (fun t => !ackCovers e.2.ack t.number),
           credit := if e.1 % 2 = 1 then addCredits p.credit 0 (e.2.credits.take 7) else p.credit }

def insertHeld (e : Nat × Codeword) : List (Nat × Codeword) → List (Nat × Codeword)
  | [] => [e]
  | h :: hs => if e.1 < h.1 then e :: h :: hs else h :: insertHeld e hs

/-- Held codewords whose turn has come are delivered, in number order (R368, R375, R379). -/
def Port.release (p : Port) : Port :=
  let due := p.rxHeld.filter (fun e => decide (e.1 < p.received))
  due.foldl Port.deliver { p with rxHeld := p.rxHeld.filter (fun e => decide (p.received ≤ e.1)) }

/-- Codeword `number` has come, good; what the freed buffer and the credit let go leaves. -/
def State.goodCodeword (s : State) (c : Cru) (n : PortIx) (number : Nat) (w : Codeword) : State :=
  let x := s.crucible c
  let p := x.port n.val
  let p := if w.corrected then p.bump 1 else p
  let p := Port.release { p with rxHeld := insertHeld (number, w) p.rxHeld }
  let (x, os) := (x.putPort n.val (p.fill p.txFlits.length)).drainPort c n
  (s.putCrucible c x).emit os

/-- A new codeword: good when correctable, with the number expected (R375). -/
def State.newCodeword (s : State) (c : Cru) (n : PortIx) (w : Codeword) : State :=
  let p := (s.crucible c).port n.val
  let i := p.rxNext
  if w.correctable && w.seqLow == BitVec.ofNat 4 i then
    (s.atCrucible c (fun x => x.putPort n.val { p with rxNext := i + 1 })).goodCodeword c n i w
  else
    (s.atCrucible c (fun x => x.putPort n.val { p with rxNext := i + 1, bad := p.bad ++ [⟨i, 1, w.lane.val⟩] })).badCodeword c n w.lane.val i 1

/-- A resent codeword: the one asked for that it names; a bad copy is of the oldest asked for. One that comes after a good copy is
discarded (R379). -/
def State.oldCodeword (s : State) (c : Cru) (n : PortIx) (w : Codeword) : State :=
  let p := (s.crucible c).port n.val
  if w.correctable then
    match p.bad.find? (fun e => BitVec.ofNat 4 e.number == w.seqLow) with
    | some e => (s.atCrucible c (fun x => x.putPort n.val { p with bad := p.bad.erase e })).goodCodeword c n e.number w
    | none => s
  else
    match p.bad with
    | e :: rest =>
      (s.atCrucible c (fun x => x.putPort n.val { p with bad := ⟨e.number, e.times + 1, w.lane.val⟩ :: rest })).badCodeword c n w.lane.val
        e.number (e.times + 1)
    | [] => s.atCrucible c (fun x => x.putPort n.val (p.bump 2))

end Sys2Proof.Machine
end

