-- ==== Sys2Proof/Machine/ResetOps.lean ====
section
/-!
DEFINITION. Module power-on (R566, R567), the slot state (R628), and the failure of an activation (R637, R639).
-/
namespace Sys2Proof.Machine

/-! ### Module power-on (R566, R567, R614) -/

/-- Every port of the crucible changed. -/
def Crucible.mapPorts (x : Crucible) (f : Port → Nat → Port) : Crucible :=
  { x with ports := (List.range 16).foldl (fun m n => Store.set portDefault m n (f (x.port n) n)) [] }

/-- A crucible whose reset is released at module power-on: in its ROM, its ports in Detect, its watchdog on the boot (R370, R552,
R566). -/
def Crucible.powerOn : Crucible :=
  ({ Crucible.reset with hang := { HangBlock.reset with booting := true } }).mapPorts (fun p _ => p.toDetect)

/-- The record in progress is completed; those queued are lost (R569, R614). -/
def StoreBlock.finishNow (t : StoreBlock) (now : W64) : StoreBlock :=
  match t.writing with
  | some (w, seq, _) => { t with writing := none, queue := [] }.durable now w seq
  | none => { t with queue := [] }

/-- What the store controller keeps in its stores, everything else at reset. -/
def StoreBlock.renew (t : StoreBlock) : StoreBlock :=
  { StoreBlock.reset with records := t.records, archive := t.archive, nextSeq := t.nextSeq, journal := t.journal,
                          archived := t.archived, archCount := t.archCount, archOver := t.archOver, wear := t.wear }

/-- What a half keeps: a failure. -/
def Half.renew (h : Half) : Half := { Half.reset with alive := h.alive }

/-- OTP and slots stay. NEXT_LEAF stands until the store is opened, which counts the leaves that are wasted (R607, R612). -/
def Boot.renew (b : Boot) : Boot :=
  { Boot.reset with otp := b.otp, slotA := b.slotA, slotB := b.slotB, reasonKept := b.reasonKept, nextLeaf := b.nextLeaf }

/-- A module power-on, up to the 15 ms row of R566: every register, RWS field and HBM byte at its reset value; the stores kept. -/
def State.modulePowerOn (s : State) : State :=
  { State.reset with
    cru := Quad.all Crucible.powerOn
    half := ⟨s.half.h0.renew, s.half.h1.renew⟩
    alwaysOn := s.alwaysOn
    power := { Power.reset with mode := .on, off := false, slotId := s.power.slotId, pwrEn := s.power.pwrEn }
    store := (s.store.finishNow s.power.aon).renew
    boot := s.boot.renew
    out := s.out
    freeCtr := s.freeCtr
    lastRead := s.lastRead
    pending := s.pending }

/-! ### SLOT_STATE (R602, R628) -/

structure SlotState where
  active : Nat
  trial : Bool
  boots : Nat
  confirmed : Byte
  confirmedVersion : W32
  trialVersion : W32
  reason : W16
  deriving DecidableEq, Repr

def SlotState.none : SlotState := ⟨0, false, 0, 0xFF, 0, 0, 0⟩

def SlotState.ofBytes (bs : List Byte) : SlotState :=
  ⟨(bs.getD 0 0).toNat, bs.getD 1 0 == 1, (bs.getD 2 0).toNat, bs.getD 3 0, BitVec.ofNat 32 (leNat ((bs.drop 4).take 4)),
   BitVec.ofNat 32 (leNat ((bs.drop 8).take 4)), BitVec.ofNat 16 (leNat ((bs.drop 12).take 2))⟩

def SlotState.bytes (v : SlotState) : List Byte :=
  [BitVec.ofNat 8 v.active, if v.trial then 1 else 0, BitVec.ofNat 8 v.boots, v.confirmed] ++ leBytes 4 v.confirmedVersion.toNat ++
    leBytes 4 v.trialVersion.toNat ++ leBytes 2 v.reason.toNat ++ [0, 0]

/-- The slot state as its record holds it. -/
def State.slotState (s : State) : SlotState :=
  match s.store.current 0x02 0 with
  | some r => SlotState.ofBytes r.payload
  | none => SlotState.none

/-- Commit the slot state; false when the record cannot be made durable. -/
def State.commitSlot (s : State) (v : SlotState) : State × Bool :=
  let (t, ok) := s.store.commitNow s.power.aon 0x02 0 v.bytes
  ({ s with store := t }, ok)

/-! ### Failure (R637–R639) -/

/-- FIRMWARE. -/
def State.firmwareEvent (s : State) (kind : Byte) (reason : W16) : State :=
  let v : W32 := match s.boot.image with
    | some i => i.version
    | none => 0
  s.notify 0xC00B portDieSource ([kind, 0] ++ leBytes 2 reason.toNat ++ leBytes 4 v.toNat ++ leBytes 4 s.slotState.trialVersion.toNat)

/-- The code becomes LAST_REASON and the module is reset. -/
def State.resetFor (s : State) (code : W16) : State :=
  let (s, ok) := s.commitSlot { s.slotState with reason := code }
  ({ s with boot := { s.boot with reasonKept := ok } }).modulePowerOn

/-- The activation fails. -/
def State.failActivation (s : State) (code : W16) : State :=
  let (s, ok) := s.commitSlot { s.slotState with reason := code }
  let s := if s.boot.image.isSome then s.firmwareEvent 1 code else s
  ({ s with boot := { s.boot with reasonKept := ok } }).modulePowerOn

/-- The crucible has already been restarted by an activation that runs. -/
def Activation.restarted (a : Activation) (c : Cru) : Bool := decide (3 + c.val < a.stage)

/-- A hang of crucible c meets an activation: one that has restarted c fails, with NO_RETURN (log 37). -/
def State.hangMeets (s : State) (c : Cru) : State :=
  match s.boot.activation with
  | some a => if a.restarted c then s.failActivation 8 else s
  | none => s

end Sys2Proof.Machine
end

