-- ==== Sys2Proof/Machine/HangOps.lean ====
section
/-!
DEFINITION. The watchdog: declaring a hang, the hang record, the reset of a crucible and its escalation (R542–R556).
-/
namespace Sys2Proof.Machine

/-! ### Declaring a hang (R545, R556) -/

/-- Whole always-on seconds of a crucible (R575). -/
def Crucible.seconds (x : Crucible) : Nat := x.pwr.aon.toNat / 25000000

/-- Resets within the 600 s before second `now`. -/
def HangBlock.recent (h : HangBlock) (now : Nat) : Nat :=
  (h.resetSec.filter (fun r => r != 0xFFFFFFFF && decide (now < r.toNat + 600))).length

/-- The watchdog declares a hang and freezes the crucible. -/
def Crucible.freeze (x : Crucible) (cause : BitVec 2) (units : List StallUnit) : Crucible :=
  let h := x.hang
  { x with frozen := true,
           hang := { h with seq := h.seq + 1, lastCause := cause, lastComplete := false,
                            run := some ⟨cause, x.pwr.aon, units, h.recent x.seconds + 1⟩ } }

/-- A hang of crucible c: the host is told at once, an ingot or a restore fails (R532), and an activation that has restarted
the crucible (R639). -/
def State.declareHang (s : State) (c : Cru) (cause : BitVec 2) (units : List StallUnit) : State :=
  (((s.atCrucible c (fun x => x.freeze cause units)).crucibleEvent c 1).failTransfers).hangMeets c

/-! ### Register words of a core that the record holds too (R112, R113) -/

/-- STALL of CORE_STATUS_L. 6, a bank conflict, is an instant of the tensor array's timing and never stands between commands. -/
def LogCore.stall (g : LogCore) : Nat :=
  match g.waiting with
  | none => 0
  | some (.tensor _) => 1
  | some (.vector _) => 2
  | some (.xfer _) => 3
  | some (.tally _) => 4
  | some (.stepStart _) => 5
  | some .fence => 7

def CoreMode.code : CoreMode → Nat
  | .halted => 0
  | .running => 1
  | .halting => 2
  | .faulted => 3
  | .clearing => 4

def Crucible.coreStatus (x : Crucible) (l : Nat) : W32 :=
  let g := x.log l
  let p := x.phys l
  BitVec.ofNat 32 (p.xq.length * 2 ^ 18 + p.vq.length * 2 ^ 13 + p.tq.length * 2 ^ 8 + g.stall * 16 +
    (if g.dropped then 8 else 0) + g.mode.code)

/-- CORE_FAULT_L. -/
def FaultRecord.word (f : FaultRecord) : W32 :=
  fieldAt f.pc 16 ||| bitAt f.multiple 11 ||| fieldAt f.source 8 ||| f.cause.setWidth 32

/-! ### The hang record (R547, R548) -/

def hangSlot (seq : W32) : Nat := if seq.toNat % 2 = 0 then 0x3F800000 else 0x3FC00000

def hangLength : Nat := 65536 + 500 * 7168

/-- 500 bits of a mask as 64 bytes. -/
def stallMask (f : Nat → Bool) : List Byte :=
  (List.range 64).map (fun i => BitVec.ofNat 8 ((List.range 8).foldl (fun v j => if f (8 * i + j) then v + 2 ^ j else v) 0))

def stalledCore (us : List StallUnit) (l : Nat) : Bool :=
  us.any (fun u => match u with | .core k => k.val == l | _ => false)
def stalledXfer (us : List StallUnit) (l : Nat) : Bool :=
  us.any (fun u => match u with | .xfer k => k.val == l | _ => false)
def stalledPort (us : List StallUnit) (n : Nat) : Bool :=
  us.any (fun u => match u with | .port k => k.val == n | _ => false)

def port16 (f : Nat → Bool) : Nat := (List.range 16).foldl (fun v j => if f j then v + 2 ^ j else v) 0

/-- The header without its CRC; `complete` is bit 0 of FLAGS. -/
def Crucible.hangHeader (x : Crucible) (c : Cru) (r : HangRun) (step : W48) (complete : Bool) : List Byte :=
  let j := x.xport.job.live
  padTo 192 (leBytes 2 1 ++ [r.cause.setWidth 8, BitVec.ofNat 8 c.val] ++ leBytes 4 x.hang.seq.toNat ++ leBytes 8 r.ticks.toNat ++
    leBytes 8 step.toNat ++ leBytes 2 (if j.active then j.self.toNat else 0xFFFF) ++ [if complete then 1 else 0, 0] ++
    leBytes 4 r.resets ++ stallMask (stalledCore r.units) ++ stallMask (stalledXfer r.units) ++
    leBytes 2 (port16 (stalledPort r.units)) ++ [if StallUnit.mc ∈ r.units then 1 else 0]) ++
  padTo 65336 (((List.range 500).map (fun l => leBytes 4 (x.log l).progCore.toNat)).flatten ++
    ((List.range 500).map (fun l => leBytes 4 (x.log l).progXfer.toNat)).flatten ++
    ((List.range 16).map (fun n => leBytes 4 (x.port n).prog.toNat)).flatten ++ leBytes 4 x.hang.progMc.toNat)

/-- A queue entry: its instruction, its sequence number, STARTED and COMPLETION_HELD. -/
def queueBytes (word : W64) (seq : W32) (ph : Phase) : List Byte :=
  leBytes 8 word.toNat ++ leBytes 4 seq.toNat ++
    [(if ph = .queued then 0 else 1) + (if ph = .held then 2 else 0), 0, 0, 0]

/-- Core record L. -/
def Crucible.coreRecord (x : Crucible) (l : Nat) : List Byte :=
  let g := x.log l
  let p := x.phys l
  padTo 7168 (
    Memory.readBytes p.scratch 0 4096 ++
    ((List.range 48).map (fun i => leBytes 8 (p.tallyWord i).toNat)).flatten ++
    ((List.range 32).map (fun i => leBytes 8 (Store.get zero64 p.s i).toNat)).flatten ++
    ((List.range 16).map (fun i => leBytes 8 (Store.get zero48 p.a i).toNat)).flatten ++
    ((List.range 16).map (fun i => leBytes 16 (Store.get zero128 p.t i).toNat)).flatten ++
    leBytes 4 (x.coreStatus l).toNat ++ leBytes 4 g.fault.word.toNat ++ leBytes 4 g.fault.detail.toNat ++
    leBytes 4 g.ctxSel.toNat ++ leBytes 2 p.pc.toNat ++ leBytes 2 (x.physIx l) ++ leBytes 4 (p.seq % 2 ^ 32) ++
    leBytes 8 p.step.toNat ++ leBytes 8 p.cyc.toNat ++ List.replicate 32 0 ++
    padTo 256 ((p.tq.map (fun e => queueBytes e.word e.seq e.phase)).flatten) ++
    padTo 256 ((p.vq.map (fun e => queueBytes e.word e.seq e.phase)).flatten) ++
    padTo 1024 ((p.xq.map (fun e => queueBytes e.word e.seq e.phase)).flatten))

/-- The whole record, complete. -/
def Crucible.hangRecord (x : Crucible) (c : Cru) (r : HangRun) (step : W48) : List Byte :=
  let head := x.hangHeader c r step true
  let cores := ((List.range 500).map x.coreRecord).flatten
  head ++ leBytes 8 (crc64 (head ++ cores)).toNat ++ cores

/-! ### The reset of a crucible (R10, R55, R550, R555) -/

/-- A port of a crucible that is reset: it keeps its RWS counts. -/
def Port.renew (p : Port) (n : Nat) : Port := { Port.reset n with count := p.count }

/-- The riser keeps its step and unit states; a unit that was Copying is Uncopied. -/
def Riser.renew (r : Riser) : Riser := { r with units := r.units.filter (fun (_, v) => v != .copying) }

/-- Everything at its reset value but what R550 keeps. The crucible then stands in its ROM. -/
def Crucible.resetKept (x : Crucible) : Crucible :=
  { Crucible.reset with
    core := { CoreArray.reset with remap := x.core.remap.reject, retired := x.core.retired },
    tally := { TallyBlock.reset with log := x.tally.log },
    res := { ResBlock.reset with records := x.res.records, physTotal := x.res.physTotal },
    hbm := { Hbm.reset with mem := x.hbm.mem, poison := x.hbm.poison, repairs := x.hbm.repairs,
                            ce0 := x.hbm.ce0, ce1 := x.hbm.ce1, ue0 := x.hbm.ue0, ue1 := x.hbm.ue1 },
    xport := { Xport.reset with count := x.xport.count, nextNum := x.xport.nextNum },
    ports := (x.mapPorts Port.renew).ports,
    told := true,
    placed := x.placed,
    recQueue := x.recQueue,
    riser := x.riser.renew,
    hang := { HangBlock.reset with seq := x.hang.seq, lastCause := x.hang.lastCause, lastComplete := x.hang.lastComplete,
                                   resetSec := x.hang.resetSec, booting := true },
    pwr := { PowerBlock.reset with aon := x.pwr.aon, throttleMs := x.pwr.throttleMs } }

/-- A crucible's own notes for the store: at key c, by its own clock (R605). -/
def State.crucibleHistory (s : State) (c : Cru) (type about : Byte) (body : List Byte) : State :=
  s.record c ⟨kHistory, BitVec.ofNat 32 c.val, 1, historyEntry type about (s.crucible c).seconds s.steps.oldest.toNat body, .nothing⟩

/-- The crucible has been reset: the agent, which has moved to a crucible in service, reports the step in progress faulty (R495, R554). -/
def State.resetFaulty (s : State) : State := s.reportFaulty s.steps.current false

/-- A reset that counts under the escalation rule, `resets` of them within 600 s: at the third the crucible is held in reset until
module power-on (R556). `body` is the history entry's. -/
def State.countedReset (s : State) (c : Cru) (resets : Nat) (body : List Byte) : State :=
  let x := s.crucible c
  let y := x.resetKept
  let y := { y with hang := { y.hang with resetSec := (BitVec.ofNat 32 x.seconds :: y.hang.resetSec).take 3 } }
  if resets ≥ 3 then
    let s := (s.putCrucible c { y with service := .outOfService, told := false,
                                       hang := { y.hang with booting := false } }).crucibleEvent c 2
    match cruList.find? (fun d => (s.crucible d).live) with
    | some d =>
      let (i, s) := s.fresh
      (s.crucibleHistory d 5 (BitVec.ofNat 8 c.val) (padTo 16 (Config.freeBytes i))).resetFaulty
    | none => s
  else ((s.putCrucible c (y.mapPorts (fun p _ => p.toDetect))).crucibleHistory c 4 (BitVec.ofNat 8 c.val) body).resetFaulty

/-- The crucible is reset after a hang. -/
def State.hangReset (s : State) (c : Cru) : State :=
  match (s.crucible c).hang.run with
  | none => s
  | some r => s.countedReset c r.resets (leBytes 4 (s.crucible c).hang.seq.toNat ++ [r.cause.setWidth 8])

end Sys2Proof.Machine
end

