-- ==== Sys2Proof/Machine/RegRead.lean ====
section
/-!
DEFINITION. What the registers of control space read (R12–R15, R54–R57 and the register tables of the chapters). `none` is an
unassigned offset.
-/
namespace Sys2Proof.Machine

/-! ### Offsets -/

/-- The index of register `off` in `n` registers from `base` on, `stride` apart. -/
def regIx (off base stride n : Nat) : Option Nat :=
  if base ≤ off ∧ (off - base) % stride = 0 ∧ (off - base) / stride < n then some ((off - base) / stride) else none

def reg1 {α : Type} (off base : Nat) (v : α) : Option α := if off = base then some v else none
def regN {α : Type} (off base stride n : Nat) (f : Nat → α) : Option α := (regIx off base stride n).map f

/-- A word of 32 flags: bit j is flag 32 × i + j of `n`. -/
def flagWord (f : Nat → Bool) (n i : Nat) : W32 :=
  BitVec.ofNat 32 ((List.range 32).foldl (fun v j => if 32 * i + j < n ∧ f (32 * i + j) then v + 2 ^ j else v) 0)

def lo32 (v : W64) : W32 := v.setWidth 32
def hi32 (v : W64) : W32 := (v >>> 32).setWidth 32
def lo48 (v : W48) : W32 := v.setWidth 32
/-- Bits [47:32]. -/
def hi48 (v : W48) : W32 := (v >>> 32).setWidth 32
/-- Word w of a byte string, as R488 orders it. -/
def wordOf (bs : List Byte) (w : Nat) : W32 := BitVec.ofNat 32 (leNat ((bs.drop (4 * w)).take 4))

/-! ### Identity, status and numeric counters (R215–R220, R645) -/

def Crucible.readId (x : Crucible) (c : Cru) (off : Nat) : Option W32 :=
  let n := x.num.regs
  reg1 off 0 (match x.fw with | some f => f.version | none => 0) <|>
  reg1 off 4 (if x.loaded then BitVec.ofNat 32 c.val else 0) <|>
  regN off 0x1000 16 500 (fun l => (x.log l).sat) <|>
  regN off 0x1004 16 500 (fun l => (x.log l).flush) <|>
  regN off 0x1008 16 500 (fun l => (x.log l).satPrev) <|>
  regN off 0x100C 16 500 (fun l => (x.log l).flushPrev) <|>
  regN off 0x3000 16 500 (fun l => (x.log l).event.seq) <|>
  regN off 0x3004 16 500 (fun l => lo48 (x.log l).event.step) <|>
  regN off 0x3008 16 500 (fun l =>
    let e := (x.log l).event
    bitAt e.satCrossed 31 ||| bitAt e.flushCrossed 30 ||| bitAt e.overrun 29 ||| hi48 e.step) <|>
  reg1 off 0x5000 n.live.sat <|> reg1 off 0x5004 n.live.flush <|> reg1 off 0x5008 (n.live.enable.setWidth 32) <|>
  reg1 off 0x500C (bitAt n.commit 0) <|>
  reg1 off 0xD000 n.shadow.sat <|> reg1 off 0xD004 n.shadow.flush <|> reg1 off 0xD008 (n.shadow.enable.setWidth 32) <|>
  regN off 0x5100 4 16 (flagWord (fun l => (x.log l).numFlag) 500) <|>
  reg1 off 0x5140 (x.num.status.setWidth 32)

/-! ### Core array and remap (R108–R116) -/

def IstoreRegs.read (r : IstoreRegs) (off base : Nat) : Option W32 :=
  reg1 off base r.srcLo <|> reg1 off (base + 4) (r.srcHi.setWidth 32) <|> reg1 off (base + 8) (r.len.setWidth 32) <|>
  reg1 off (base + 12) (r.dst.setWidth 32) <|> reg1 off (base + 16) r.groups

/-- PHYS_STATE_p. -/
def Crucible.physState (x : Crucible) (p : Nat) : W32 :=
  let l := (List.range 500).find? (fun l => x.physIx l == p)
  bitAt (Store.get retiredDefault x.core.retired p) 31 ||| bitAt l.isSome 30 ||| detail32 (l.getD 0)

def Crucible.readCore (x : Crucible) (off : Nat) : Option W32 :=
  let a := x.core
  regN off 0x10000 4 500 (fun l => (Store.get remapDefault a.remap.live l).setWidth 32) <|>
  regN off 0x18000 4 500 (fun l => (Store.get remapDefault a.remap.shadow l).setWidth 32) <|>
  reg1 off 0x10800 (bitAt a.remap.commit 0) <|>
  regN off 0x20000 4 528 x.physState <|>
  regN off 0x30000 4 500 (fun l => (x.log l).startPc.setWidth 32) <|>
  regN off 0x40000 4 500 x.coreStatus <|>
  regN off 0x50000 8 500 (fun l => (x.log l).fault.word) <|>
  regN off 0x50004 8 500 (fun l => (x.log l).fault.detail) <|>
  regN off 0x60000 4 16 (flagWord (fun l => (x.log l).faultFlag) 500) <|>
  reg1 off 0x60040 (a.status.setWidth 32) <|>
  a.istore.live.read off 0x70000 <|> a.istore.shadow.read off 0x78000 <|>
  reg1 off 0x70014 (bitAt a.istore.commit 0) <|>
  reg1 off 0x70018 (bitAt a.copying.isSome 31 ||| a.skipped.setWidth 32)

/-! ### HBM (R326–R333) -/

def HbmRegs.read (r : HbmRegs) (off base : Nat) : Option W32 :=
  regN off base 4 16 (fun p => (Store.get shareDefault r.share p).setWidth 32) <|>
  regN off (base + 0x40) 4 16 (fun p => (Store.get ceilDefault r.ceil p).setWidth 32)

def PmapEntry.ctrl (e : PmapEntry) : W32 := bitAt e.enable 31 ||| fieldAt e.part 8 ||| e.sources.setWidth 32

def PmapRegs.read (r : PmapRegs) (off base : Nat) : Option W32 :=
  regN off base 16 16 (fun i => (Store.get pmapDefault r.entries i).base.setWidth 32) <|>
  regN off (base + 4) 16 16 (fun i => (Store.get pmapDefault r.entries i).limit.setWidth 32) <|>
  regN off (base + 8) 16 16 (fun i => (Store.get pmapDefault r.entries i).ctrl) <|>
  reg1 off (base + 0x100) (r.split.setWidth 32)

def Hbm.stackWord (h : Hbm) (s : Nat) : W32 :=
  let t := if s = 0 then h.stack0 else h.stack1
  fieldAt t.state 30 ||| fieldAt t.rate 28 |||
    (if t.state = 0 then 0 else detail32 (min 64 (h.repairs.filter (fun r => r.stack.val == s)).length))

def Hbm.read (h : Hbm) (off : Nat) : Option W32 :=
  h.reg.live.read off 0x100000 <|> h.reg.shadow.read off 0x108000 <|> reg1 off 0x100080 (bitAt h.reg.commit 0) <|>
  h.pmap.live.read off 0x100100 <|> h.pmap.shadow.read off 0x108100 <|> reg1 off 0x100204 (bitAt h.pmap.commit 0) <|>
  regN off 0x110000 4 16 (fun p => (Store.get zero17 h.usedLast p).setWidth 32) <|>
  reg1 off 0x110100 (h.status.setWidth 32) <|>
  regN off 0x110110 4 2 h.stackWord <|>
  reg1 off 0x110120 (h.scrubInterval.setWidth 32) <|>
  regN off 0x110130 4 2 (fun s => if s = 0 then h.ce0 else h.ce1) <|>
  regN off 0x110138 4 2 (fun s => if s = 0 then h.ue0 else h.ue1) <|>
  reg1 off 0x110140 (h.ueAddr.setWidth 32) <|> reg1 off 0x110144 ((h.ueAddr >>> 32).setWidth 32)

/-! ### Fabric (R388–R395, R428–R435) -/

def PortSet.mode (p : PortSet) : W32 :=
  fieldAt p.required 24 ||| fieldAt p.offered 16 ||| fieldAt p.fec 12 ||| fieldAt p.widths 7 ||| p.rates.setWidth 32
def PortSet.lanes (p : PortSet) : W32 := fieldAt p.minLanes 24 ||| p.exclude.setWidth 32

def PortMode.code : PortMode → Nat
  | .disabled => 0
  | .detect => 1
  | .exchange => 2
  | .train => 3
  | .check => 4
  | .up => 5
  | .down => 6
  | .keepAlive => 7

/-- FAB_STATUS_n. -/
def Port.statusWord (p : Port) : W32 :=
  let a := laneCount p.active
  detail32 (p.mode.code * 2 ^ 28) ||| fieldAt p.cause 24 ||| fieldAt p.rate 22 ||| fieldAt p.fec 20 ||| detail32 (a * 2 ^ 15) |||
    fieldAt p.width 10 ||| bitAt (decide (a < p.width.toNat) && (p.mode == .up || p.mode == .keepAlive)) 9 ||| p.features.setWidth 32

def ModEntry.word (e : ModEntry) : W32 := bitAt e.valid 31 ||| fieldAt e.rack 6 ||| e.slot.setWidth 32

def JobSet.read (j : JobSet) (off base : Nat) : Option W32 :=
  regN off base 4 4096 (fun i => (Store.get modDefault j.table i).word) <|>
  reg1 off (base + 0x4000) (fieldAt j.tag 16 ||| j.epoch.setWidth 32) <|>
  reg1 off (base + 0x4004) (bitAt j.active 31 ||| fieldAt j.rack 19 ||| fieldAt j.slot 13 ||| j.self.setWidth 32)

def Crucible.readFab (x : Crucible) (off : Nat) : Option W32 :=
  let t := x.xport
  let p := x.port
  regN off 0x200000 0x40 16 (fun n => (p n).set.live.mode) <|> regN off 0x200004 0x40 16 (fun n => (p n).set.live.lanes) <|>
  regN off 0x200008 0x40 16 (fun n => bitAt (p n).set.commit 0) <|>
  regN off 0x208000 0x40 16 (fun n => (p n).set.shadow.mode) <|> regN off 0x208004 0x40 16 (fun n => (p n).set.shadow.lanes) <|>
  regN off 0x210000 0x100 16 (fun n => bitAt (p n).enable 31) <|>
  regN off 0x210004 0x100 16 (fun n => (p n).statusWord) <|>
  regN off 0x210008 0x100 16 (fun n => fieldAt (p n).spare 24 ||| (p n).active.setWidth 32) <|>
  regN off 0x21000C 0x100 16 (fun n => (p n).event.setWidth 32) <|>
  regN off 0x210010 0x100 16 (fun n => lo32 (p n).partner) <|> regN off 0x210014 0x100 16 (fun n => hi32 (p n).partner) <|>
  (if 0x210000 ≤ off ∧ off < 0x211000 then
     regN (off % 0x100) 0x40 4 7 (fun k => Store.get zero32 (p ((off - 0x210000) / 0x100)).count k)
   else none) <|>
  reg1 off 0x211000 (bitAt x.fabUnassigned 0) <|>
  t.job.live.read off 0x220000 <|> t.job.shadow.read off 0x228000 <|> reg1 off 0x224008 (bitAt t.job.commit 0) <|>
  reg1 off 0x224010 (t.xrack.live.rate.setWidth 32) <|> reg1 off 0x224014 (t.xrack.live.burst.setWidth 32) <|>
  reg1 off 0x224018 (bitAt t.xrack.commit 0) <|>
  reg1 off 0x22C010 (t.xrack.shadow.rate.setWidth 32) <|> reg1 off 0x22C014 (t.xrack.shadow.burst.setWidth 32) <|>
  reg1 off 0x230000 (fieldAt t.e2e.retries 24 ||| fieldAt t.e2e.window 12 ||| t.e2e.timeout.setWidth 32) <|>
  reg1 off 0x230004 (detail32 (t.streams * 2 ^ 16 + t.unresolved.length)) <|>
  reg1 off 0x230008 (t.status.setWidth 32) <|>
  regN off 0x230040 4 7 (fun k => Store.get zero32 t.count k)

/-! ### Tally virtualisation (R358–R364) -/

def XlatEntry.word (e : XlatEntry) : W32 := bitAt e.valid 31 ||| e.phys.setWidth 32
def ForceRegs.target (f : ForceRegs) : W32 := fieldAt f.tally 16 ||| f.core.setWidth 32
def ForceRegs.data (f : ForceRegs) : W32 := bitAt f.full 16 ||| f.count.setWidth 32

def ForceEntry.word (e : ForceEntry) : Nat → W32
  | 0 => lo48 e.step
  | 1 => fieldAt e.source 30 ||| fieldAt e.tally 16 ||| hi48 e.step
  | 2 => fieldAt e.core 16 ||| e.oldCount.setWidth 32
  | _ => bitAt e.oldFull 17 ||| bitAt e.newFull 16 ||| e.newCount.setWidth 32

def TallyBlock.set (t : TallyBlock) (i : Nat) : Staged (Store XlatEntry) := Store.get xlatSetDefault t.xlat i

def Crucible.readTally (x : Crucible) (off : Nat) : Option W32 :=
  let t := x.tally
  let ctx := fun (base : Nat) (f : Staged (Store XlatEntry) → Store XlatEntry) =>
    if base ≤ off ∧ off < base + 0x800 then
      regN (off % 0x100) 0 4 48 (fun v => (Store.get xlatDefault (f (t.set ((off - base) / 0x100))) v).word)
    else none
  regN off 0x300000 4 500 (fun l => (x.log l).ctxSel.setWidth 32) <|>
  ctx 0x301000 Staged.live <|> ctx 0x309000 Staged.shadow <|>
  regN off 0x301800 4 8 (fun i => bitAt (t.set i).commit 0) <|>
  reg1 off 0x302000 t.force.live.target <|> reg1 off 0x302004 t.force.live.data <|> reg1 off 0x302008 (bitAt t.force.commit 0) <|>
  reg1 off 0x30A000 t.force.shadow.target <|> reg1 off 0x30A004 t.force.shadow.data <|>
  reg1 off 0x302100 (t.status.setWidth 32 ||| bitAt (decide (t.log.length ≥ 32)) 4) <|>
  reg1 off 0x302104 (detail32 t.log.length) <|>
  regN off 0x302200 4 128 (fun i =>
    match t.log[i / 4]? with
    | some e => e.word (i % 4)
    | none => 0) <|>
  regN off 0x310000 8 24000 (fun i => lo32 ((x.phys (i / 48)).tallyWord (i % 48))) <|>
  regN off 0x310004 8 24000 (fun i => hi32 ((x.phys (i / 48)).tallyWord (i % 48)))

/-! ### Resilience (R483–R488, R515–R518) -/

def FaultRec.word (r : FaultRec) : Nat → W32
  | 0 => lo48 r.step
  | 1 => fieldAt r.type 28 ||| fieldAt r.unit 24 ||| hi48 r.step
  | 2 => fieldAt r.phys 16 ||| r.logical.setWidth 32
  | _ => r.seq

def StepMode.code : StepMode → Nat
  | .idle => 0
  | .running => 1
  | .replaying => 2
  | .held => 3
  | .fenced => 4

def Riser.statusWord (r : Riser) : W32 :=
  bitAt r.armed 31 ||| bitAt (r.armed && r.unitsLeft == 0) 30 ||| bitAt r.ingotHold 29 ||| detail32 (if r.armed then r.unitsLeft else 0)

def Crucible.readRes (x : Crucible) (t : Steps) (off : Nat) : Option W32 :=
  let r := x.res
  regN off 0x400000 4 500 (fun l => (x.log l).mismatches.setWidth 32) <|>
  regN off 0x401000 4 528 (fun p => (Store.get zero16 r.physTotal p).setWidth 32) <|>
  regN off 0x402000 8 500 (fun l => lo32 (x.log l).sig) <|> regN off 0x402004 8 500 (fun l => hi32 (x.log l).sig) <|>
  reg1 off 0x403000 (r.noseInterval.setWidth 32) <|> reg1 off 0x403004 (r.sillageInterval.setWidth 32) <|>
  reg1 off 0x403010 (lo32 r.seed.live) <|> reg1 off 0x403014 (hi32 r.seed.live) <|> reg1 off 0x403018 (bitAt r.seed.commit 0) <|>
  reg1 off 0x40B010 (lo32 r.seed.shadow) <|> reg1 off 0x40B014 (hi32 r.seed.shadow) <|>
  reg1 off 0x403100 (r.status.setWidth 32 ||| bitAt r.noseRequested 6 ||| bitAt (!r.records.isEmpty) 2) <|>
  reg1 off 0x403104 (detail32 r.records.length) <|>
  regN off 0x403110 4 4 (fun w => match r.records.head? with | some e => e.word w | none => 0) <|>
  regN off 0x403200 4 8 (wordOf r.digestOwn) <|> regN off 0x403220 4 8 (wordOf r.digestTwin) <|>
  reg1 off 0x403240 (lo48 r.sillageStep) <|> reg1 off 0x403244 (fieldAt r.sillageResult 30 ||| hi48 r.sillageStep) <|>
  reg1 off 0x410000 (lo48 t.oldest) <|>
  reg1 off 0x410004 (detail32 (t.mode.code * 2 ^ 29 + t.gen.toNat % 4 * 2 ^ 16) ||| hi48 t.oldest) <|>
  reg1 off 0x410008 (lo48 t.checked) <|> reg1 off 0x41000C (bitAt t.checkedValid 31 ||| hi48 t.checked) <|>
  reg1 off 0x410010 x.riser.statusWord <|> reg1 off 0x410014 x.riser.stalls <|> reg1 off 0x410018 x.riser.replays

/-! ### Watchdog, power and clocks (R557–R562, R586–R589) -/

def HangWin.read (w : HangWin) (off base : Nat) : Option W32 :=
  reg1 off base (w.core.setWidth 32) <|> reg1 off (base + 4) (w.xfer.setWidth 32) <|>
  reg1 off (base + 8) (w.port.setWidth 32) <|> reg1 off (base + 12) (w.mc.setWidth 32)

def Crucible.readHang (x : Crucible) (off : Nat) : Option W32 :=
  let h := x.hang
  h.win.live.read off 0x500000 <|> h.win.shadow.read off 0x508000 <|> reg1 off 0x500010 (bitAt h.win.commit 0) <|>
  reg1 off 0x510000 0 <|>
  reg1 off 0x510004 (fieldAt h.lastCause 30 ||| bitAt h.lastComplete 29 ||| bitAt h.booting 28 ||| h.status.setWidth 32) <|>
  reg1 off 0x510008 h.seq <|> regN off 0x510010 4 3 (fun i => h.resetSec.getD i 0xFFFFFFFF) <|>
  regN off 0x520000 4 500 (fun l => (x.log l).progCore) <|> regN off 0x521000 4 500 (fun l => (x.log l).progXfer) <|>
  regN off 0x522000 4 16 (fun n => (x.port n).prog) <|> reg1 off 0x522040 h.progMc

/-- The thermal level (R571). -/
def PowerBlock.thermal (p : PowerBlock) : BitVec 3 := if p.hbmHot then 4 else p.dieLevel

/-- The throttle level of a crucible (R570). -/
def PowerBlock.throttle (p : PowerBlock) (level : BitVec 3) : Nat := max level.toNat p.thermal.toNat

def Crucible.readPwr (x : Crucible) (level : BitVec 3) (off : Nat) : Option W32 :=
  let p := x.pwr
  reg1 off 0x600000 (detail32 (p.throttle level * 2 ^ 12) ||| fieldAt level 9 ||| fieldAt p.thermal 6 ||| bitAt p.serdesLock 3 |||
    bitAt p.hbmLock 2 ||| bitAt p.coreLock 1 ||| bitAt p.unassigned 0) <|>
  reg1 off 0x600004 (fieldAt p.hbm1 20 ||| fieldAt p.hbm0 10 ||| p.die.setWidth 32) <|>
  reg1 off 0x600008 (lo32 p.aon) <|> reg1 off 0x60000C (hi32 p.aon) <|> reg1 off 0x600010 p.throttleMs

/-! ### A crucible's control space -/

/-- The block an offset falls in (R55). -/
def cruBlock (off : Nat) : Nat := if off < 0x10000 then 0 else off / 0x100000 + 1

/-- What a register of crucible c holds. -/
def State.cruRead (s : State) (c : Cru) (off : Nat) : Option W32 :=
  let x := s.crucible c
  match cruBlock off with
  | 0 => x.readId c off
  | 1 => x.readCore off
  | 2 => x.hbm.read off
  | 3 => x.readFab off
  | 4 => x.readTally off
  | 5 => x.readRes (if x.service = .inService then s.steps else Steps.reset) off
  | 6 => x.readHang off
  | 7 => x.readPwr s.power.level off
  | _ => none

/-- An unassigned offset sets its block's flag (R13). -/
def Crucible.unassigned (x : Crucible) (off : Nat) : Crucible :=
  match cruBlock off with
  | 0 => { x with num := { x.num with status := setFlag x.num.status 1 } }
  | 1 => { x with core := { x.core with status := setFlag x.core.status 4 } }
  | 2 => { x with hbm := { x.hbm with status := setFlag x.hbm.status 0 } }
  | 3 => { x with fabUnassigned := true }
  | 4 => { x with tally := { x.tally with status := setFlag x.tally.status 0 } }
  | 5 => { x with res := { x.res with status := setFlag x.res.status 0 } }
  | 6 => { x with hang := { x.hang with status := setFlag x.hang.status 0 } }
  | 7 => { x with pwr := { x.pwr with unassigned := true } }
  | _ => x

/-! ### The port die (R460–R463, R586, R590–R593, R618–R622, R645–R649) -/

/-- The fused version v (R626). -/
def fusedVersion (otp : List Byte) : Nat :=
  (List.range 256).foldl (fun v i => if (otp.getD (i / 8) 0).getLsbD (i % 8) then i + 1 else v) 0

/-- The parts of a user-kernel image (R641). -/
def Kernel.codeLength (k : Kernel) : Nat := leNat (k.image.drop (k.image.length - 4))
def Kernel.codeBytes (k : Kernel) : List Byte := k.image.take k.codeLength
def Kernel.keyBytes (k : Kernel) : List Byte := (k.image.drop k.codeLength).take 60

/-- The kernel at a place of the list, in increasing CODE order. -/
def insertKernel (k : Kernel) : List Kernel → List Kernel
  | [] => [k]
  | q :: ks => if k.code.toNat < q.code.toNat then k :: q :: ks else q :: insertKernel k ks
def sortKernels : List Kernel → List Kernel
  | [] => []
  | k :: ks => insertKernel k (sortKernels ks)

/-- SEC_KLIST_w. -/
def klistWord (k : Kernel) (w : Nat) : W32 :=
  if w = 0 then bitAt true 31 ||| k.code.setWidth 32
  else if w ≤ 8 then wordOf (sha256 k.codeBytes) (w - 1) else wordOf (sha256 k.keyBytes) (w - 9)

def BootMode.code : BootMode → Nat
  | .stable => 0
  | .trial => 1
  | .recovery => 2

def Boot.imageSlot (b : Boot) : Nat := match b.image with | some i => i.slot | none => 0

/-- SEC_STATUS. -/
def Boot.statusWord (b : Boot) : W32 :=
  (if b.loaded then detail32 (b.mode.code * 2 ^ 30 + b.imageSlot * 2 ^ 29 + (if b.policy then 2 ^ 28 else 0) +
      fusedVersion b.otp * 2 ^ 19 + b.lastReason.toNat % 4096 * 2)
   else 0) ||| detail32 ((match b.activation with | some a => a.stage | none => 0) * 2 ^ 15) ||| bitAt b.unassigned 0

/-- The step of a queued activation. -/
def Boot.queuedStep (b : Boot) : W48 :=
  match b.activation with
  | some a => if a.stage = 1 then a.step else 0
  | none => 0

def State.readSec (s : State) (off : Nat) : Option W32 :=
  let b := s.boot
  reg1 off 0x400000 b.statusWord <|> reg1 off 0x400004 (detail32 ((b.trial.getD 0) / 25000)) <|>
  reg1 off 0x400008 (lo48 b.queuedStep) <|> reg1 off 0x40000C (hi48 b.queuedStep) <|>
  reg1 off 0x400020 (b.klistIndex.setWidth 32) <|>
  regN off 0x400100 4 17 (fun w => match (sortKernels s.tundish.kernels)[b.klistIndex.toNat]? with
    | some k => klistWord k w
    | none => 0) <|>
  regN off 0x400200 4 5 (fun k => Store.get zero32 b.count k)

def Half.qpCount (h : Half) (k : QpKind) : Nat := (h.qps.filter (fun q => q.kind == k)).length

def Half.readEth (h : Half) (off : Nat) : Option W32 :=
  reg1 off 0x100000 (bitAt h.linkUp 31 ||| fieldAt h.paused 23 ||| detail32 (h.qps.length * 2 ^ 13) ||| h.ethFlags.setWidth 32) <|>
  reg1 off 0x100004 (bitAt h.tagged 31 ||| h.vid.setWidth 32) <|>
  reg1 off 0x100008 (fieldAt h.pfcEnable 16 ||| h.pcps.setWidth 32) <|>
  regN off 0x100040 4 8 (fun k => Store.get zero32 h.ethCount k)

def Half.readCmd (h : Half) (busy : Bool) (off : Nat) : Option W32 :=
  reg1 off 0x200000 (detail32 (h.qpCount .command * 2 ^ 16 + h.eventQueue.length * 2 ^ 5) ||| bitAt h.eventQp.isSome 4 |||
    bitAt busy 3 ||| h.cmdFlags.setWidth 32) <|>
  regN off 0x200040 4 6 (fun k => Store.get zero32 h.cmdCount k)

def StoreRegs.read (r : StoreRegs) (off base : Nat) : Option W32 :=
  reg1 off base (fieldAt r.op 28 ||| fieldAt r.kind 16 ||| r.key.setWidth 32) <|> reg1 off (base + 4) r.index <|>
  reg1 off (base + 8) (r.len.setWidth 32)

def State.readStore (s : State) (off : Nat) : Option W32 :=
  let t := s.store
  t.regs.live.read off 0x300000 <|> t.regs.shadow.read off 0x308000 <|> reg1 off 0x30000C (bitAt t.regs.commit 0) <|>
  reg1 off 0x300100 (bitAt t.ready 31 ||| bitAt t.failed 30 ||| bitAt t.signBlocked 29 ||| t.flags.setWidth 32) <|>
  reg1 off 0x300104 (bitAt t.result.found 31 ||| fieldAt t.result.len 16 ||| t.result.format.setWidth 32) <|>
  reg1 off 0x300108 (lo32 t.result.seq) <|> reg1 off 0x30010C (hi32 t.result.seq) <|>
  reg1 off 0x300110 (detail32 (t.reservedEnd % 2 ^ 30)) <|>
  reg1 off 0x300114 (bitAt (decide (s.boot.nextLeaf ≥ 2 ^ 30)) 31 ||| detail32 (s.boot.nextLeaf % 2 ^ 30)) <|>
  regN off 0x300140 4 6 (fun k => Store.get zero32 t.count k) <|>
  regN off 0x301000 4 1024 (fun w => BitVec.ofNat 32 (leNat (Memory.readBytes t.buf (4 * w) 4)))

def Power.read (p : Power) (off : Nat) : Option W32 :=
  reg1 off 0x500000 (fieldAt p.mode.code 29 ||| fieldAt p.lastDown 26 ||| fieldAt p.slotId 20 ||| p.flags.setWidth 32) <|>
  reg1 off 0x500004 (fieldAt p.iin 16 ||| p.vin.setWidth 32) <|>
  reg1 off 0x500008 (fieldAt p.avg 16 ||| p.sample.setWidth 32) <|>
  reg1 off 0x50000C (p.limit.setWidth 32) <|> reg1 off 0x500010 (p.event.setWidth 32) <|> reg1 off 0x500014 (p.tempPd.setWidth 32)

def State.readPdId (s : State) (off : Nat) : Option W32 :=
  let sn := (s.boot.otp.drop 0x40).take 8
  reg1 off 0 (match s.boot.image with | some i => i.version | none => 0) <|>
  reg1 off 4 (if s.boot.loaded then Config.romVersion else 0) <|>
  reg1 off 8 (if s.boot.loaded then wordOf sn 0 else 0) <|> reg1 off 12 (if s.boot.loaded then wordOf sn 1 else 0)

/-- The half a view shows; views 2 and 3 are unassigned (R57). -/
def viewHalf (view : Fin 4) : Option HalfIx :=
  match view with
  | 0 => some 0
  | 1 => some 1
  | _ => none

/-- What a register of the port die holds, in the view of half h. -/
def State.pdRead (s : State) (h : HalfIx) (off : Nat) : Option W32 :=
  match off / 0x100000 with
  | 0 => s.readPdId off
  | 1 => (s.halfAt h).readEth off
  | 2 => (s.halfAt h).readCmd s.tundish.run.isSome off
  | 3 => s.readStore off
  | 4 => s.readSec off
  | 5 => s.power.read off
  | _ => none

/-- An unassigned offset of the port die; its identity block has no flag (R13). -/
def State.pdUnassigned (s : State) (h : HalfIx) (off : Nat) : State :=
  match off / 0x100000 with
  | 1 => s.modHalf h (fun v => { v with ethFlags := setFlag v.ethFlags 0 })
  | 2 => s.modHalf h (fun v => { v with cmdFlags := setFlag v.cmdFlags 0 })
  | 3 => { s with store := { s.store with flags := setFlag s.store.flags 0 } }
  | 4 => { s with boot := { s.boot with unassigned := true } }
  | 5 => { s with power := { s.power with flags := setFlag s.power.flags 0 } }
  | _ => s

end Sys2Proof.Machine
end

