-- ==== Sys2Proof/Machine/ActivationOps.lean ====
section
/-!
DEFINITION. An activation on its way: restarting crucibles one at a time, and the confirmation (R635, R636, R639).
-/
namespace Sys2Proof.Machine

/-- SEC_COUNT_k. -/
def State.secBump (s : State) (k : Nat) : State :=
  { s with boot := { s.boot with count := Store.modify zero32 s.boot.count k (fun v => satAdd v 1) } }

/-! ### Security version (R626, R627) -/

/-- The fuses of bit b are blown. -/
def blowBit (otp : List Byte) (b : Nat) : List Byte := listSet otp (b / 8) (otp.getD (b / 8) 0 ||| (1 : Byte) <<< (b % 8))

/-- v is raised to `n`, in increasing order. -/
def raiseVersion (otp : List Byte) (n : Nat) : List Byte :=
  let v := fusedVersion otp
  (List.range (n - v)).foldl (fun o i => blowBit o (v + i)) otp

/-- v is raised to the SEC_VERSION of the confirmed image that runs. -/
def State.raiseFuses (s : State) : State :=
  match s.boot.image with
  | some i => { s with boot := { s.boot with otp := raiseVersion s.boot.otp i.secVersion } }
  | none => s

/-! ### Confirmation (R636 step 5) -/

/-- Every port that was Up before step 1 is Up. -/
def State.portsBack (s : State) (ports : List Nat) : Bool :=
  ports.all (fun p => ((s.crucible (Fin.ofNat 4 (p / 16))).port (p % 16)).mode == .up)

/-- A crucible that is not out of service runs the image of this slot, in service. -/
def Crucible.runs (x : Crucible) (slot : Nat) : Bool :=
  x.service == .outOfService ||
    (x.live && (match x.fw with
      | some f => f.slot == slot
      | none => false))

/-- The confirmation may be given. -/
def State.confirmable (s : State) (i : RunImage) : Bool :=
  s.boot.mode == .trial && cruList.all (fun c => (s.crucible c).runs i.slot) &&
    (match s.boot.activation with
     | none => true
     | some a => a.stage == 7 && s.portsBack a.ports)

/-- The firmware confirms the image as soon as it may. -/
def State.tryConfirm (s : State) : State :=
  match s.boot.image with
  | none => s
  | some i =>
    if s.confirmable i then
      let st := s.slotState
      match s.commitSlot { st with trial := false, boots := 0, confirmed := BitVec.ofNat 8 st.active, confirmedVersion := i.version,
                                   trialVersion := 0 } with
      | (s, true) =>
        (({ s with boot := { s.boot with mode := .stable, trial := none, activation := none } }.raiseFuses).secBump 2).firmwareEvent 0 0
      | (s, false) => s
    else s

/-! ### Restarting the crucibles (R636 step 4) -/

/-- A crucible restarts: the host is told, it resets as R550 states, and no hang is recorded. -/
def State.restartCrucible (s : State) (c : Cru) : State :=
  ((s.crucibleEvent c 1).atCrucible c (fun x => x.resetKept.mapPorts (fun p _ => p.toDetect))).failTransfers.resetFaulty

/-- The crucible has still to restart. -/
def Crucible.toRestart (x : Crucible) (slot : Nat) : Bool := x.service != .outOfService && !x.runs slot

/-- The next crucible from number `k` on restarts; one that a hang has already reset is awaited. After the last one, the confirmation. -/
def State.nextRestart (s : State) (a : Activation) (k : Nat) : State :=
  let slot := s.boot.imageSlot
  match cruList.find? (fun c => decide (k ≤ c.val) && (s.crucible c).toRestart slot) with
  | some c =>
    let s := { s with boot := { s.boot with activation := some { a with stage := 3 + c.val } } }
    if (s.crucible c).live then s.restartCrucible c else s
  | none => { s with boot := { s.boot with activation := some { a with stage := 7 } } }.tryConfirm

/-- No other crucible is in service to hand the step state and the placement on (R32, R554). -/
def State.lastHolder (s : State) (c : Cru) : Bool := cruList.all (fun d => d == c || (s.crucible d).service != .inService)

/-- Crucible c's own instance of Tundish takes up the module's placement: it loads the programs, as after a placement (R551). One whose
region 1 holds another placement, or none, runs Tundish again, which gives the placement the other instances hold (R302), and the module
reports it as it would a takeover. -/
def State.rejoin (s : State) (c : Cru) : State :=
  match s.tundish.placement with
  | none => s
  | some p =>
    let known := (s.crucible c).placed = p.digest
    let s := s.atCrucible c (fun x => (if known then x else x.takePart p c).loadPrograms p (s.position.getD 0) c.val)
    if known then s else s.stepStatus 6 s.steps.oldest

/-- Crucible c serves again. It takes the step state and the placement from the crucibles in service. Crucibles share no firmware state
(R32): where none is left in service, both are gone, with the health map (log 124); the port die holds the kernels (R298). -/
def State.crucibleBack (s : State) (c : Cru) : State :=
  let s := if s.lastHolder c then { s with steps := Steps.reset, tundish := { Tundish.reset with kernels := s.tundish.kernels, run := s.tundish.run } } else s
  let x := s.crucible c
  let s := s.putCrucible c { x with service := .inService, told := false }
  let s := s.rejoin c
  let s := if x.told then s.crucibleEvent c 0 else s
  match s.boot.activation with
  | some a => if a.stage = 3 + c.val then s.nextRestart a (c.val + 1) else s.tryConfirm
  | none => s.tryConfirm

/-- The crucible's firmware runs, and it does not serve yet. -/
def Crucible.returning (x : Crucible) : Bool := x.service == .resetting && !x.frozen && x.fw.isSome

end Sys2Proof.Machine
end

