-- ==== Sys2Proof/Machine/Store.lean ====
section
/-!
DEFINITION. The commands of the store controller (R599–R603, R607, R608, R612, R615–R617, R619).
-/
namespace Sys2Proof.Machine

def State.onStore (s : State) (f : StoreBlock → StoreBlock) : State := { s with store := f s.store }

/-- Sectors whose erase was begun and not marked done are erased again (R615). -/
def StoreBlock.redoErases (t : StoreBlock) (now : W64) : StoreBlock :=
  let open_ := t.records.filter (fun r => r.kind == 0x09 && leNat (r.payload.take 4) == 0)
  open_.foldl (fun t r =>
    let t := t.countErase r.key.toNat
    (t.commitNow now 0x09 r.key.toNat (leBytes 4 1)).1) t

/-- The newest power-down entry's code (R605). -/
def StoreBlock.lastDown (t : StoreBlock) : Option Byte :=
  match (t.history 4).find? (fun (_, e) => e.head? == some 3) with
  | some (_, e) => e[16]?
  | none => none

/-- Current records that have only one valid copy get the other one again (R600). How many do is nature's: a free value. -/
def StoreBlock.repairCopies (t : StoreBlock) (i : Nat) : StoreBlock :=
  let n := Config.freeNat i % (t.records.length + 1)
  { t with flags := if n = 0 then t.flags else setFlag t.flags 5,
           count := Store.modify zero32 t.count 5 (fun v => satAdd v n) }

/-- The store is opened, before any record is read (R600, R616). A power cycle is counted before anything else is written (R607);
NEXT_LEAF becomes RESERVED_END, and the leaves between are wasted (R612). -/
def State.openStore (s : State) : State :=
  if s.portDieUp && !s.store.ready then
    let (i, s) := s.fresh
    let now := s.power.aon
    let w := s.store.wear
    let t := { s.store.repairCopies i with
      ready := true, failed := false, signBlocked := false, stopped := false, writing := none, queue := [],
      wear := { w with cycles := w.cycles + 1, wasted := w.wasted + (s.store.reservedEnd - s.boot.nextLeaf) } }
    let t := ((t.commitNow now 0x07 0 t.wear.bytes).1).redoErases now
    { s with store := t, boot := { s.boot with nextLeaf := t.reservedEnd },
             power := { s.power with lastDown := (t.lastDown.getD 0).setWidth 3 } }
  else s

/-- STORE_OPEN. -/
def execStoreOpen (s : State) : Host.Outcome State Fault Refusal := .next s.openStore

/-- PERSISTENT_RECORD: a record reaches the controller (R608). -/
def execPersistentRecord (r : RecordReq) (s : State) : Host.Outcome State Fault Refusal :=
  .next (s.onStore (fun t => t.enqueue ⟨r.kind, r.key, r.format, r.payload, .nothing⟩))

/-- The repairs an HBM_REPAIR record holds (R603). -/
def repairsOf (bs : List Byte) : List LaneRepair :=
  (List.range (leNat (bs.take 4))).map (fun i =>
    let e := (bs.drop (4 + 12 * i)).take 12
    let f := fun (j : Nat) => (e.getD j 0).toNat
    ⟨Fin.ofNat 2 (f 0), BitVec.ofNat 5 (f 1), BitVec.ofNat 1 (f 2), BitVec.ofNat 6 (f 3), BitVec.ofNat 2 (f 4),
     BitVec.ofNat 48 (leNat (e.drop 6))⟩)

/-- What the module does once a record is durable: a lane repair takes effect (R316). -/
def State.afterDurable (s : State) (w : RecWrite) : State :=
  if w.kind = 0x04 ∧ w.key.toNat < 4 then
    s.atCrucible (Fin.ofNat 4 w.key.toNat) (fun x =>
      { x with hbm := { x.hbm with repairs := x.hbm.repairs ++ (repairsOf w.payload).filter (fun r => r ∉ x.hbm.repairs) } })
  else s

/-- RECORD_DURABLE: both copies of the record in progress have been read back, or a read-back does not match (R599). The third
failure gives the record up. -/
def execRecordDurable (ok : Bool) (s : State) : Host.Outcome State Fault Refusal :=
  .next (
    match s.store.writing with
    | none => s
    | some (w, seq, n) =>
      if ok then (s.onStore (fun t => (t.durable s.power.aon w seq).finish w)).afterDurable w
      else
        let t := s.store.bump 1 1
        if n + 1 ≥ 3 then s.onStore (fun _ => { t with flags := setFlag t.flags 4, failed := true }.finish w)
        else s.onStore (fun _ => { t with journal := t.journal.skip, writing := some (w, seq, n + 1) }))

/-- WEAR_RECORD: every 600 s of power-on time (R602, R607). -/
def execWearRecord (s : State) : Host.Outcome State Fault Refusal :=
  .next (
    if s.portDieUp && s.store.ready then
      s.onStore (fun t =>
        let t := { t with wear := { t.wear with seconds := t.wear.seconds + 600 } }
        t.enqueue ⟨0x07, 0, 1, t.wear.bytes, .nothing⟩)
    else s)

/-- STORE_DAILY_CHECK: the copies listed fail their CRC and are rewritten from the other copy (R617). -/
def execStoreDailyCheck (bad : List Nat) (s : State) : Host.Outcome State Fault Refusal :=
  .next (
    let n := (bad.filter (fun i => i < s.store.records.length + s.store.archive.length)).length
    if s.portDieUp && s.store.ready && decide (n > 0) then
      s.onStore (fun t => { t with flags := setFlag t.flags 5 }.bump 5 n)
    else s)

/-- A commit of the store's set: the command is named by OP. -/
def State.storeCommit (s : State) (a : Accessor) (named : Bool) : State :=
  if s.portDieUp && s.speaks a && named then s.onStore StoreBlock.commit else s

/-- STORE_READ_RECORD: OP 1. -/
def execStoreReadRecord (a : Accessor) (s : State) : Host.Outcome State Fault Refusal :=
  .next (s.storeCommit a (s.store.regs.shadow.op == 1))

/-- STORE_READ_HISTORY: OP 2. -/
def execStoreReadHistory (a : Accessor) (s : State) : Host.Outcome State Fault Refusal :=
  .next (s.storeCommit a (s.store.regs.shadow.op == 2))

/-- STORE_APPEND_CONFIG: OP 3. -/
def execStoreAppendConfig (a : Accessor) (s : State) : Host.Outcome State Fault Refusal :=
  .next (s.storeCommit a (s.store.regs.shadow.op == 3))

end Sys2Proof.Machine
end

