-- ==== Sys2Proof/Machine/Links.lean ====
section
/-!
DEFINITION. The commands of the ports (R370–R386, R391).
-/
namespace Sys2Proof.Machine

/-- An event at a port whose crucible's links work and that is in one of some states. -/
def State.atPort (s : State) (c : Cru) (n : PortIx) (ms : List PortMode) (f : Port → State) : State :=
  let x := s.crucible c
  let p := x.port n.val
  if x.linkOn && decide (p.mode ∈ ms) then f p else s

def State.putPort (s : State) (c : Cru) (n : PortIx) (p : Port) : State := s.atCrucible c (fun x => x.putPort n.val p)

/-- A link message that the partner's codewords bring: none comes past a codeword that is missing (R375). -/
def State.atMessage (s : State) (c : Cru) (n : PortIx) (f : Port → State) : State :=
  s.atPort c n [.up] (fun p => if p.bad.isEmpty then f p else s)

/-- CODEWORD_RECEIVED (R368, R375, R379). Its flits' packets arrive by their own commands, and its link messages too (log 28). -/
def execCodewordReceived (c : Cru) (n : PortIx) (w : Codeword) (s : State) : Host.Outcome State Fault Refusal :=
  .next (s.atPort c n [.up] (fun _ => if w.resent then s.oldCodeword c n w else s.newCodeword c n w))

/-- The retry request for a codeword already asked for goes out again (R378). -/
def State.askAgain (s : State) (c : Cru) (n : PortIx) (e : Missing) : State :=
  (s.atCrucible c (fun x => x.putPort n.val ((x.port n.val).bump 3))).emit [.retryRequest c n e.lane (BitVec.ofNat 12 e.number)]

/-- RETRY_REQUEST (R377): the codeword is resent, as one extra codeword. -/
def execRetryRequest (c : Cru) (n : PortIx) (number : BitVec 12) (s : State) : Host.Outcome State Fault Refusal :=
  .next (s.atPort c n [.up] (fun p =>
    match p.replay.find? (fun w => BitVec.ofNat 12 w.number == number) with
    | some w => s.resendCodeword c n w
    | none => s))

/-- RETRY_REQUEST_TIMEOUT (R378): 400 ns without a codeword asked for, which is asked for again. Which of several it is comes from
their times, which the model has not: a free choice (log 28). -/
def execRetryRequestTimeout (c : Cru) (n : PortIx) (s : State) : Host.Outcome State Fault Refusal :=
  .next (s.atPort c n [.up] (fun p =>
    match p.bad with
    | [] => s
    | [e] => s.askAgain c n e
    | e :: es =>
      let (i, s) := s.fresh
      s.askAgain c n ((e :: es).getD (Config.freeNat i % (es.length + 1)) e)))

/-- LANE_LOCK_LOSS (R381): 1 µs without symbol lock. -/
def execLaneLockLoss (c : Cru) (n : PortIx) (lane : Fin 17) (s : State) : Host.Outcome State Fault Refusal :=
  .next (s.atPort c n [.up] (fun _ => s.loseLane c n lane.val))

/-- LANE_MARGINAL (R381, R383): warned of, recorded, and swapped for the spare if one is ready. -/
def execLaneMarginal (c : Cru) (n : PortIx) (lane : Fin 17) (s : State) : Host.Outcome State Fault Refusal :=
  .next (s.atPort c n [.up] (fun p =>
    if p.active.getLsbD lane.val then
      let p := setEvent p 3
      let p := if p.spare ≠ 0x1F ∧ p.swap = none then { p with swap := some ⟨p.spare.toNat, some lane.val, false⟩ } else p
      ((s.putPort c n p).linkEvent c n 2 lane.val 0).recordLanes c n p.partner [lane.val] 1
    else s))

/-- SPARE_ADAPTED (R382): the spare is ready, LANE_SWAP is sent. -/
def execSpareAdapted (c : Cru) (n : PortIx) (s : State) : Host.Outcome State Fault Refusal :=
  .next (s.atPort c n [.up] (fun p =>
    match p.swap with
    | some w =>
      if w.sent then s
      else
        let (q, v) := { p with swap := some { w with sent := true } }.tell 2 w.spare none
        (s.putPort c n q).emit [.linkMsg c n 2 (BitVec.ofNat 8 w.spare) v]
    | none => s))

/-- A change that the partner asks for waits for its switch point, or takes effect at once if that has passed. -/
def State.scheduleChange (s : State) (c : Cru) (n : PortIx) (point : BitVec 12) (lane : Nat) (join : Bool) (out : Option Nat) : State :=
  let p := (s.crucible c).port n.val
  (s.putPort c n { p with changes := p.changes ++ [⟨numberAt p.txNext point, lane, join, out⟩] }).settlePort c n

/-- LANE_DROP (R382): the partner's drop; one already applied or on its way changes nothing. -/
def execLaneDrop (c : Cru) (n : PortIx) (lane : Fin 17) (switchPoint : BitVec 12) (s : State) :
    Host.Outcome State Fault Refusal :=
  .next (s.atMessage c n (fun p =>
    if p.active.getLsbD lane.val ∧ !p.dropping lane.val then s.scheduleChange c n switchPoint lane.val false none else s))

/-- LANE_SWAP (R382): answered with the same switch point, from which on the spare is active. The message does not name a marginal lane
that leaves: with no lane missing, it is one of the active lanes, a free choice (log 57). -/
def execLaneSwap (c : Cru) (n : PortIx) (lane : Fin 17) (switchPoint : BitVec 12) (s : State) :
    Host.Outcome State Fault Refusal :=
  .next (s.atMessage c n (fun p =>
    let q := { p with msgs := p.msgs ++ [⟨3, BitVec.ofNat 8 lane.val, switchPoint⟩] }
    let s := (s.putPort c n q).emit [.linkMsg c n 3 (BitVec.ofNat 8 lane.val) switchPoint]
    if p.active.getLsbD lane.val then s
    else
      let ls := lanesOf (p.activeAt (numberAt p.txNext switchPoint))
      if ls.length < p.width.toNat then s.scheduleChange c n switchPoint lane.val true none
      else
        let (i, s) := s.fresh
        s.scheduleChange c n switchPoint lane.val true ls[Config.freeNat i % ls.length]?))

/-- LANE_ACK (R382): the swap this end asked for takes place at its switch point. -/
def execLaneAck (c : Cru) (n : PortIx) (lane : Fin 17) (switchPoint : BitVec 12) (s : State) :
    Host.Outcome State Fault Refusal :=
  .next (s.atMessage c n (fun p =>
    match p.swap with
    | some w => if w.sent ∧ w.spare = lane.val then s.scheduleChange c n switchPoint lane.val true w.marginal else s
    | none => s))

/-- PORT_DOWN from the partner (R384). -/
def execPortDown (c : Cru) (n : PortIx) (s : State) : Host.Outcome State Fault Refusal :=
  .next (s.atMessage c n (fun _ => s.losePort c n 8 .down))

/-- KEEP_ALIVE (R386): the partner's, with the switch point past which it sends no packet flit. -/
def execKeepAlive (c : Cru) (n : PortIx) (switchPoint : BitVec 12) (s : State) : Host.Outcome State Fault Refusal :=
  .next (s.atMessage c n (fun p =>
    if p.closing then (s.putPort c n { p with keepHeard := some (numberAt p.txNext switchPoint) }).settlePort c n else s))

/-- LOCK_LOSS (R384): no lane holds lock for 10 µs. -/
def execLockLoss (c : Cru) (n : PortIx) (s : State) : Host.Outcome State Fault Refusal :=
  .next (s.atPort c n [.up] (fun _ => s.losePort c n 10 .down))

/-- DETECT_SIGNAL (R370): signal on enough lanes; the exchange page is sent. -/
def execDetectSignal (c : Cru) (n : PortIx) (lanes : BitVec 17) (s : State) : Host.Outcome State Fault Refusal :=
  .next (s.atPort c n [.detect] (fun p =>
    let sig := lanes &&& BitVec.ofNat 17 (2 ^ laneTotal n.val - 1)
    if p.inUse.minLanes.toNat ≤ laneCount sig then
      let p := { p with signal := sig, mode := .exchange }
      (s.putPort c n p).emit [.exchangePage c n (p.page c n.val)]
    else s))

/-- DETECT_TIMEOUT (R370): 1 ms without signal. -/
def execDetectTimeout (c : Cru) (n : PortIx) (s : State) : Host.Outcome State Fault Refusal :=
  .next (s.atPort c n [.detect] (fun p => s.putPort c n (p.fail 1)))

/-- EXCHANGE_PAGE (R371, R372). -/
def execExchangePage (c : Cru) (n : PortIx) (page : W64) (s : State) : Host.Outcome State Fault Refusal :=
  .next (s.atPort c n [.exchange] (fun p => (s.putPort c n (p.exchange c n.val page)).newPartner c n page))

/-- TRAIN_DONE (R373). -/
def execTrainDone (c : Cru) (n : PortIx) (passed : BitVec 17) (s : State) : Host.Outcome State Fault Refusal :=
  .next (s.atPort c n [.train] (fun p => s.putPort c n (p.trained passed ((s.store.lanes c n).map (·.1)))))

/-- CHECK_DONE (R374): failed lanes are recorded; the port is Up, checks once more, or is Down. -/
def execCheckDone (c : Cru) (n : PortIx) (failed : BitVec 17) (s : State) : Host.Outcome State Fault Refusal :=
  .next (s.atPort c n [.check] (fun p =>
    let tested := p.active ||| (if p.spare = 0x1F then 0 else laneBit p.spare.toNat)
    let q := p.checked failed
    let s := (s.putPort c n q).recordLanes c n p.partner (lanesOf (failed &&& tested)) 0
    if q.mode = .up then s.tellUp c n else s))

/-- BACKOFF_EXPIRY (R384). -/
def execBackoffExpiry (c : Cru) (n : PortIx) (s : State) : Host.Outcome State Fault Refusal :=
  .next (s.atPort c n [.down] (fun p => s.putPort c n p.toDetect))

/-- BACKOFF_RESET (R384): 10 s in Up. -/
def execBackoffReset (c : Cru) (n : PortIx) (s : State) : Host.Outcome State Fault Refusal :=
  .next (s.atPort c n [.up] (fun p => s.putPort c n { p with backoff := 1 }))

/-- RESUME_ORDERED_SET (R386): the partner answers RESUME on wake; the port is Up without negotiating. -/
def execResumeOrderedSet (c : Cru) (n : PortIx) (s : State) : Host.Outcome State Fault Refusal :=
  .next (s.atPort c n [.keepAlive] (fun p => if s.power.mode = .waking then s.putPort c n p.toUp else s))

/-- RESUME_TIMEOUT (R386): no answer within 10 µs. -/
def execResumeTimeout (c : Cru) (n : PortIx) (s : State) : Host.Outcome State Fault Refusal :=
  .next (s.atPort c n [.keepAlive] (fun _ => if s.power.mode = .waking then s.losePort c n 10 .down else s))

/-- The effect of a write to ENABLE (R370, R391). -/
def State.setEnable (s : State) (c : Cru) (n : PortIx) (value : Bool) : State :=
  let p := (s.crucible c).port n.val
  if p.enable = value then s
  else if value then s.putPort c n { p.toDetect with enable := true }
  else
    let s := s.putPort c n { p with enable := false }
    if p.mode = .up then (s.emit [.linkMsg c n 4 0 0]).losePort c n 11 .disabled
    else s.putPort c n { p.cleared with enable := false, mode := .disabled, cause := 11 }

/-- The effect of RETRAIN (R384, R391): from Up the port is lost, from Down its back-off ends. -/
def State.retrain (s : State) (c : Cru) (n : PortIx) : State :=
  let p := (s.crucible c).port n.val
  if p.mode = .up then s.losePort c n 9 .down else if p.mode = .down then s.putPort c n p.toDetect else s

/-- ENABLE. -/
def execPortEnable (a : Accessor) (c : Cru) (n : PortIx) (value : Bool) (s : State) : Host.Outcome State Fault Refusal :=
  .next (if s.reach a c then s.setEnable c n value else s)

/-- RETRAIN. -/
def execPortRetrain (a : Accessor) (c : Cru) (n : PortIx) (s : State) : Host.Outcome State Fault Refusal :=
  .next (if s.reach a c then s.retrain c n else s)

end Sys2Proof.Machine
end

