-- ==== Sys2Proof/Machine/RegWrite.lean ====
section
/-!
DEFINITION. What writes to the registers of control space do (R10–R21 and the register tables of the chapters): commits, shadows,
single-register controls; and reads with their captures (R364, R484, R589). `none` is an unassigned offset.
-/
namespace Sys2Proof.Machine

/-! ### Commits whose point is the next cycle or tick -/

/-- NUM_COMMIT: never rejected (R215). Its commit point, the next cycle, passes within the command, so COMMIT never reads 1 afterwards
(log 120, DESIGN CHOICE). -/
def Crucible.numCommit (x : Crucible) : Crucible := { x with num := { x.num with regs := x.num.regs.accept } }

/-- HBM_REG_COMMIT and HBM_PMAP_COMMIT: pending until the next window boundary (R324, R328). -/
def Crucible.hbmRegCommit (x : Crucible) : Crucible := { x with hbm := { x.hbm with reg := { x.hbm.reg with commit := true } } }
def Crucible.hbmPmapCommit (x : Crucible) : Crucible := { x with hbm := { x.hbm with pmap := { x.hbm.pmap with commit := true } } }

/-- TALLY_XLAT_COMMIT_x: pending (R354). -/
def Crucible.xlatCommit (x : Crucible) (i : Nat) : Crucible :=
  { x with tally := { x.tally with xlat := Store.modify xlatSetDefault x.tally.xlat i (fun t => { t with commit := true }) } }

/-- The set of a context breaks no rule of R354. -/
def xlatOk (m : Store XlatEntry) : Bool :=
  let es := ((List.range 48).map (Store.get xlatDefault m)).filter XlatEntry.valid
  es.all (fun e => decide (e.phys.toNat < 48)) && decide ((es.map XlatEntry.phys).Nodup)

/-- A core in virtual mode with context i is Running or Halting. -/
def Crucible.ctxBusy (x : Crucible) (i : Nat) : Bool :=
  (List.range 500).any (fun l =>
    let g := x.log l
    g.ctxSel == BitVec.ofNat 4 (8 + i) && (g.mode == .running || g.mode == .halting))

def Crucible.xlatPoint (x : Crucible) (i : Nat) : Crucible :=
  let t := x.tally.set i
  if t.commit && !x.ctxBusy i then
    let ok := xlatOk t.shadow
    { x with tally := { x.tally with
        xlat := Store.set xlatSetDefault x.tally.xlat i (if ok then t.accept else t.reject),
        status := if ok then x.tally.status else setFlag x.tally.status (8 + i) } }
  else x

/-- The word with COUNT and FULL forced (R355). -/
def forceWord (w : W64) (full : Bool) (count : W16) : W64 :=
  (w &&& 0x00FF0000FFFFFFFF#64) ||| (count.setWidth 64 <<< 32) ||| (if full then 0x8000000000000000#64 else 0)

/-- SOURCE of a forced write (R363). -/
def sourceOf : Accessor → BitVec 2
  | .mgmt => 0
  | .half0 => 1
  | .half1 => 2

/-- TALLY_FORCE_COMMIT: the word is forced, logged, and its step made unclean (R355–R357). Its commit point, the next cycle, has passed
before the next command, so COMMIT never reads 1; what the cycles before it have done at the word comes first (logs 120 and 151, DESIGN
CHOICE). -/
def Crucible.forceTally (x : Crucible) (a : Accessor) : Crucible :=
  let r := x.tally.force.shadow
  let l := r.core.toNat
  if l < 500 ∧ r.tally.toNat < 48 ∧ (x.log l).mode ≠ .clearing ∧ x.tally.log.length < 32 then
    let x := x.settleWord l r.tally.toNat
    let p := x.phys l
    let old := p.tallyWord r.tally.toNat
    let e : ForceEntry := ⟨p.step, sourceOf a, r.tally, r.core, BitVec.ofNat 16 (tallyCount old), tallyFull old, r.full, r.count⟩
    let x := x.putPhys l (p.setTally r.tally.toNat (forceWord old r.full r.count))
    { x with tally := { x.tally with force := x.tally.force.accept, log := x.tally.log ++ [e],
                                     status := setFlag x.tally.status 3 } }.markUnclean (some p.step.toNat)
  else { x with tally := { x.tally with force := x.tally.force.reject, status := setFlag x.tally.status 1 } }

/-- The mode set of port n breaks no rule of R388. -/
def PortSet.ok (p : PortSet) (n : Nat) : Bool :=
  let ws := (List.range 5).filter (fun i => p.widths.getLsbD i)
  let all := laneTotal n
  p.rates != 0 && p.widths != 0 && p.fec != 0 && (decide (13 ≤ n) || !p.widths.getLsbD 4) && p.minLanes != 0 &&
    decide (p.minLanes.toNat ≤ 2 ^ ((ws.getLast?).getD 0)) && decide (p.exclude.toNat < 2 ^ all) &&
    decide (2 ^ ((ws.head?).getD 0) ≤ all - laneCount p.exclude)

/-- FAB_COMMIT_n: the live set is used from the next negotiation on (R370, R388). The commit point, the cycle after the write, has passed
before the next command, so COMMIT never reads 1 and COMMIT_COLLISION is never set (log 120, DESIGN CHOICE). -/
def Port.commit (p : Port) (n : Nat) : Port :=
  if p.set.shadow.ok n then { p with set := p.set.accept } else setEvent { p with set := p.set.reject } 1

/-- FAB_JOB_COMMIT: pending until every port is between packets (R430). -/
def Crucible.jobCommit (x : Crucible) : Crucible := x.onXport (fun t => { t with job := { t.job with commit := true } })

/-- FAB_XRACK_COMMIT (R431). Its commit point has passed before the next command (log 120, DESIGN CHOICE). -/
def Crucible.xrackCommit (x : Crucible) : Crucible :=
  x.onXport (fun t =>
    if t.xrack.shadow.burst.toNat < 5 then { t with xrack := t.xrack.reject, status := setFlag t.status 4 }
    else { t with xrack := t.xrack.accept, bucket := min t.bucket (t.xrack.shadow.burst.toNat * 1024) })

/-- RES_NOSE_COMMIT: a round is requested (R483). The seed's commit point has passed before the next command (log 120, DESIGN CHOICE). -/
def Crucible.noseCommit (x : Crucible) : Crucible :=
  { x with res := { x.res with seed := x.res.seed.accept, noseRequested := true } }

def HangWin.ok (w : HangWin) : Bool :=
  decide (w.core.toNat ≤ 10000) && decide (w.xfer.toNat ≤ 10000) && decide (w.port.toNat ≤ 10000) && decide (w.mc.toNat ≤ 10000)

/-- HANG_WIN_COMMIT: the firmware's first one ends the boot window (R552, R557). Its commit point, the next always-on tick, has passed before
the next command (log 120, DESIGN CHOICE). -/
def Crucible.hangCommit (x : Crucible) : Crucible :=
  let h := x.hang
  { x with hang := if h.win.shadow.ok then { h with win := h.win.accept, booting := false }
                   else { h with win := h.win.reject, status := setFlag h.status 2 } }

/-! ### Single-register controls -/

/-- TALLY_CTX_SEL_L: taken only while the core is Halted or Faulted (R353). -/
def Crucible.selectCtx (x : Crucible) (l : Nat) (v : W32) : Crucible :=
  let g := x.log l
  if g.mode = .halted ∨ g.mode = .faulted then x.putLog l { g with ctxSel := v.setWidth 4 }
  else { x with tally := { x.tally with status := setFlag x.tally.status 5 } }

/-- FAB_E2E (R432). -/
def Crucible.writeE2e (x : Crucible) (v : W32) : Crucible :=
  let w := v.extractLsb' 12 9
  x.onXport (fun t =>
    if w = 0 ∨ w.toNat > 256 ∨ v.extractLsb' 0 8 = 0 then { t with status := setFlag t.status 6 }
    else { t with e2e := ⟨v.extractLsb' 24 8, w, v.extractLsb' 0 8⟩ })

/-- RES_NOSE_INTERVAL and RES_SILLAGE_INTERVAL (R485). -/
def Crucible.writeInterval (x : Crucible) (sillage : Bool) (v : W32) : Crucible :=
  let r := x.res
  { x with res := if (v.extractLsb' 0 11).toNat > 1024 then { r with status := setFlag r.status 4 }
                  else if sillage then { r with sillageInterval := v.setWidth 11 } else { r with noseInterval := v.setWidth 11 } }

/-- UE_PENDING is cleared: the logged address is free (R330). -/
def Hbm.clearUe (h : Hbm) : Hbm := { h with status := clearFlag h.status 5, ueAddr := 0 }

/-- The summary bit of core l is cleared: so is its event record (R217). -/
def Crucible.clearNum (x : Crucible) (l : Nat) : Crucible := x.modLog l (fun g => { g with numFlag := false, event := NumEvent.none })

/-- ETH_VLAN (R462). -/
def Half.writeVlan (h : Half) (v : W32) : Half :=
  let vid := v.extractLsb' 0 12
  if v.getLsbD 31 ∧ (vid = 0 ∨ vid = 4095) then { h with ethFlags := setFlag h.ethFlags 1 }
  else { h with tagged := v.getLsbD 31, vid := vid }

/-- PWR_LIMIT (R592). -/
def Power.writeLimit (p : Power) (v : W32) : Power :=
  let n := (v.extractLsb' 0 12).toNat
  if n < 1000 ∨ n > 2200 then { p with flags := setFlag p.flags 1 } else { p with limit := v.extractLsb' 0 12 }

/-! ### What the management core does before it clears (R212, R318, R356, R482) -/

/-- The CALIBRATION event of core l (R450). -/
def State.calibration (s : State) (c : Cru) (l : Nat) : State :=
  let e := ((s.crucible c).log l).event
  s.event 0xC000 (BitVec.ofNat 8 c.val) e.step
    (leBytes 2 l ++ [0, 0] ++ leBytes 4 e.seq.toNat ++
      [BitVec.ofNat 8 ((if e.satCrossed then 1 else 0) + (if e.flushCrossed then 2 else 0) + (if e.overrun then 4 else 0))])

/-- A core's NUM_EVENT_SUMMARY bit is cleared by software. -/
def State.clearNumEvent (s : State) (a : Accessor) (c : Cru) (l : Nat) : State :=
  if ((s.crucible c).log l).numFlag then
    let s := if a = .mgmt then s.calibration c l else s
    s.atCrucible c (fun x => x.clearNum l)
  else s

/-- UE_PENDING is cleared by software; the management core has sent MEMORY_ERROR. -/
def State.clearUePending (s : State) (a : Accessor) (c : Cru) : State :=
  let h := (s.crucible c).hbm
  let off := h.ueAddr.toNat
  let s := if a = .mgmt ∧ h.status.getLsbD 5 then
      s.cruEvent 0xC001 c ([if hbmStack off then 1 else 0] ++ List.replicate 7 0 ++ leBytes 8 (off / 65536 * 65536))
    else s
  s.atCrucible c (fun x => { x with hbm := x.hbm.clearUe })

/-- History entries of the management core of crucible c, durable at once, or not (log 26). While the port die is away they wait in the
crucible's memory, if there is room (R38). -/
def State.historyNow (s : State) (c : Cru) (es : List (List Byte)) : State × Bool :=
  let x := s.crucible c
  let w : RecWrite := ⟨kHistory, BitVec.ofNat 32 c.val, 1, es.flatten, .nothing⟩
  if es.isEmpty then (s, true)
  else if s.recordsAway || !x.recQueue.isEmpty then
    if x.recBytes + recordSize w.payload ≤ 2 ^ 20 then (s.putCrucible c { x with recQueue := x.recQueue ++ [w] }, true) else (s, false)
  else
    let (t, ok) := s.store.commitNow s.power.aon 0x06 c.val es.flatten
    ({ s with store := t }, ok)

def State.entryOf (s : State) (c : Cru) (type : Byte) (step : W48) (words : Nat → W32) : List Byte :=
  historyEntry type (BitVec.ofNat 8 c.val) (s.crucible c).seconds step.toNat
    (((List.range 4).map (fun w => leBytes 4 (words w).toNat)).flatten)

/-- The forced-write log is emptied; the management core first keeps its entries (R356). -/
def State.clearTallyLog (s : State) (a : Accessor) (c : Cru) : State :=
  let es := (s.crucible c).tally.log
  let (s, ok) := if a = .mgmt then s.historyNow c (es.map (fun e => s.entryOf c 2 e.step e.word)) else (s, true)
  if ok then s.atCrucible c (fun x => { x with tally := { x.tally with log := [] } }) else s

/-- The oldest fault record is removed; the management core first keeps it (R482). -/
def State.popFault (s : State) (a : Accessor) (c : Cru) : State :=
  match (s.crucible c).res.records with
  | [] => s
  | r :: rest =>
    let (s, ok) := if a = .mgmt then s.historyNow c [s.entryOf c 1 r.step r.word] else (s, true)
    if ok then s.atCrucible c (fun x => { x with res := { x.res with records := rest } }) else s

/-- FORCE declares a hang unless the crucible is frozen or in reset (R555, R559). -/
def State.forceHangNow (s : State) (c : Cru) : State := if (s.crucible c).live then s.declareHang c 2 [] else s

def Crucible.kick (x : Crucible) : Crucible := { x with hang := { x.hang with progMc := x.hang.progMc + 1 } }

/-! ### Shadows (R15, R19) -/

/-- A shadow register of a staged set: stored, or discarded with the collision flag while the commit is pending. -/
def Staged.write {α : Type} (t : Staged α) (f : α → α) : Staged α := if t.commit then t else { t with shadow := f t.shadow }

/-- A write to a shadow set, with `flag` the collision flag's effect. -/
def stagedWrite {α β : Type} (t : Staged α) (put : Staged α → β) (collide : β) (f : α → α) : β :=
  if t.commit then collide else put (t.write f)

def Crucible.shadowNum (x : Crucible) (f : NumRegs → NumRegs) : Crucible :=
  stagedWrite x.num.regs (fun t => { x with num := { x.num with regs := t } })
    { x with num := { x.num with status := setFlag x.num.status 0 } } f

def Crucible.shadowRemap (x : Crucible) (f : Store (BitVec 10) → Store (BitVec 10)) : Crucible :=
  stagedWrite x.core.remap (fun t => { x with core := { x.core with remap := t } })
    { x with core := { x.core with status := setFlag x.core.status 1 } } f

def Crucible.shadowIstore (x : Crucible) (f : IstoreRegs → IstoreRegs) : Crucible :=
  stagedWrite x.core.istore (fun t => { x with core := { x.core with istore := t } })
    { x with core := { x.core with status := setFlag x.core.status 3 } } f

def Crucible.shadowReg (x : Crucible) (f : HbmRegs → HbmRegs) : Crucible :=
  stagedWrite x.hbm.reg (fun t => { x with hbm := { x.hbm with reg := t } })
    { x with hbm := { x.hbm with status := setFlag x.hbm.status 2 } } f

def Crucible.shadowPmap (x : Crucible) (f : PmapRegs → PmapRegs) : Crucible :=
  stagedWrite x.hbm.pmap (fun t => { x with hbm := { x.hbm with pmap := t } })
    { x with hbm := { x.hbm with status := setFlag x.hbm.status 4 } } f

def Crucible.shadowPort (x : Crucible) (n : Nat) (f : PortSet → PortSet) : Crucible :=
  let p := x.port n
  x.putPort n (stagedWrite p.set (fun t => { p with set := t }) (setEvent p 2) f)

def Crucible.shadowJob (x : Crucible) (f : JobSet → JobSet) : Crucible :=
  x.onXport (fun v => stagedWrite v.job (fun t => { v with job := t }) { v with status := setFlag v.status 3 } f)

def Crucible.shadowXrack (x : Crucible) (f : XrackRegs → XrackRegs) : Crucible :=
  x.onXport (fun v => stagedWrite v.xrack (fun t => { v with xrack := t }) { v with status := setFlag v.status 5 } f)

def Crucible.shadowXlat (x : Crucible) (i : Nat) (f : Store XlatEntry → Store XlatEntry) : Crucible :=
  stagedWrite (x.tally.set i) (fun t => { x with tally := { x.tally with xlat := Store.set xlatSetDefault x.tally.xlat i t } })
    { x with tally := { x.tally with status := setFlag x.tally.status (16 + i) } } f

def Crucible.shadowForce (x : Crucible) (f : ForceRegs → ForceRegs) : Crucible :=
  stagedWrite x.tally.force (fun t => { x with tally := { x.tally with force := t } })
    { x with tally := { x.tally with status := setFlag x.tally.status 2 } } f

def Crucible.shadowSeed (x : Crucible) (f : W64 → W64) : Crucible :=
  stagedWrite x.res.seed (fun t => { x with res := { x.res with seed := t } })
    { x with res := { x.res with status := setFlag x.res.status 3 } } f

def Crucible.shadowWin (x : Crucible) (f : HangWin → HangWin) : Crucible :=
  stagedWrite x.hang.win (fun t => { x with hang := { x.hang with win := t } })
    { x with hang := { x.hang with status := setFlag x.hang.status 3 } } f

def StoreBlock.shadow (b : StoreBlock) (f : StoreRegs → StoreRegs) : StoreBlock :=
  stagedWrite b.regs (fun t => { b with regs := t }) { b with flags := setFlag b.flags 3 } f

/-- The field of an entry of the partition map that a write at `4 k` changes. -/
def PmapRegs.put (r : PmapRegs) (i k : Nat) (v : W32) : PmapRegs :=
  { r with entries := Store.modify pmapDefault r.entries i (fun e =>
      match k with
      | 0 => { e with base := v.setWidth 20 }
      | 1 => { e with limit := v.setWidth 20 }
      | _ => { e with enable := v.getLsbD 31, part := v.extractLsb' 8 4, sources := v.setWidth 5 }) }

/-- Writes at a crucible's shadow offsets. -/
def Crucible.writeShadow (x : Crucible) (off : Nat) (v : W32) : Option Crucible :=
  reg1 off 0xD000 (x.shadowNum (fun r => { r with sat := v })) <|>
  reg1 off 0xD004 (x.shadowNum (fun r => { r with flush := v })) <|>
  reg1 off 0xD008 (x.shadowNum (fun r => { r with enable := v.setWidth 2 })) <|>
  regN off 0x18000 4 500 (fun l => x.shadowRemap (fun m => Store.set remapDefault m l (v.setWidth 10))) <|>
  reg1 off 0x78000 (x.shadowIstore (fun r => { r with srcLo := v })) <|>
  reg1 off 0x78004 (x.shadowIstore (fun r => { r with srcHi := v.setWidth 4 })) <|>
  reg1 off 0x78008 (x.shadowIstore (fun r => { r with len := v.setWidth 17 })) <|>
  reg1 off 0x7800C (x.shadowIstore (fun r => { r with dst := v.setWidth 16 })) <|>
  reg1 off 0x78010 (x.shadowIstore (fun r => { r with groups := v })) <|>
  regN off 0x108000 4 16 (fun p => x.shadowReg (fun r => { r with share := Store.set shareDefault r.share p (v.setWidth 8) })) <|>
  regN off 0x108040 4 16 (fun p => x.shadowReg (fun r => { r with ceil := Store.set ceilDefault r.ceil p (v.setWidth 8) })) <|>
  regN off 0x108100 16 16 (fun i => x.shadowPmap (fun r => r.put i 0 v)) <|>
  regN off 0x108104 16 16 (fun i => x.shadowPmap (fun r => r.put i 1 v)) <|>
  regN off 0x108108 16 16 (fun i => x.shadowPmap (fun r => r.put i 2 v)) <|>
  reg1 off 0x108200 (x.shadowPmap (fun r => { r with split := v.setWidth 9 })) <|>
  regN off 0x208000 0x40 16 (fun n => x.shadowPort n (fun p =>
    { p with required := v.extractLsb' 24 8, offered := v.extractLsb' 16 8, fec := v.extractLsb' 12 2,
             widths := v.extractLsb' 7 5, rates := v.setWidth 3 })) <|>
  regN off 0x208004 0x40 16 (fun n => x.shadowPort n (fun p => { p with minLanes := v.extractLsb' 24 5, exclude := v.setWidth 17 })) <|>
  regN off 0x228000 4 4096 (fun i => x.shadowJob (fun j =>
    { j with table := Store.set modDefault j.table i ⟨v.getLsbD 31, v.extractLsb' 6 10, v.setWidth 6⟩ })) <|>
  reg1 off 0x22C000 (x.shadowJob (fun j => { j with tag := v.extractLsb' 16 16, epoch := v.setWidth 16 })) <|>
  reg1 off 0x22C004 (x.shadowJob (fun j =>
    { j with active := v.getLsbD 31, rack := v.extractLsb' 19 10, slot := v.extractLsb' 13 6, self := v.setWidth 12 })) <|>
  reg1 off 0x22C010 (x.shadowXrack (fun r => { r with rate := v.setWidth 12 })) <|>
  reg1 off 0x22C014 (x.shadowXrack (fun r => { r with burst := v.setWidth 16 })) <|>
  (if 0x309000 ≤ off ∧ off < 0x309800 then
     regN (off % 0x100) 0 4 48 (fun w => x.shadowXlat ((off - 0x309000) / 0x100) (fun m =>
       Store.set xlatDefault m w ⟨v.getLsbD 31, v.setWidth 6⟩))
   else none) <|>
  reg1 off 0x30A000 (x.shadowForce (fun f => { f with tally := v.extractLsb' 16 6, core := v.setWidth 9 })) <|>
  reg1 off 0x30A004 (x.shadowForce (fun f => { f with full := v.getLsbD 16, count := v.setWidth 16 })) <|>
  reg1 off 0x40B010 (x.shadowSeed (fun w => hi32 w ++ v)) <|>
  reg1 off 0x40B014 (x.shadowSeed (fun w => v ++ lo32 w)) <|>
  reg1 off 0x508000 (x.shadowWin (fun w => { w with core := v.setWidth 16 })) <|>
  reg1 off 0x508004 (x.shadowWin (fun w => { w with xfer := v.setWidth 16 })) <|>
  reg1 off 0x508008 (x.shadowWin (fun w => { w with port := v.setWidth 16 })) <|>
  reg1 off 0x50800C (x.shadowWin (fun w => { w with mc := v.setWidth 16 }))

/-! ### Other registers of a crucible -/

/-- CORE_CONTROL_L: one of RUN, HALT and CLEAR_FAULT; more than one only stores START_PC (R111). -/
def Crucible.writeControl (x : Crucible) (l : Nat) (v : W32) : Crucible :=
  let pc := v.setWidth 13
  let y := x.modLog l (fun g => { g with startPc := pc })
  match v.getLsbD 31, v.getLsbD 30, v.getLsbD 29 with
  | true, false, false => x.run l pc
  | false, true, false => y.mgmtHalt l
  | false, false, true => y.clearFault l
  | _, _, _ => y

/-- FAULT_SUMMARY_i: a written 1 clears the flag (R114). -/
def Crucible.clearFaultFlags (x : Crucible) (i : Nat) (v : W32) : Crucible :=
  (List.range 32).foldl (fun (x : Crucible) j =>
    if v.getLsbD j ∧ 32 * i + j < 500 then x.modLog (32 * i + j) (fun g => { g with faultFlag := false }) else x) x

/-- A commit field: writing 1 starts it; 1 while it is pending, and 0, do nothing (R16). -/
def commitWrite {α : Type} (pending : Bool) (v : W32) (x : α) (f : α → α) : α := if v.getLsbD 0 && !pending then f x else x

/-- Writes that stay inside the crucible and have no sender. -/
def Crucible.writePlain (x : Crucible) (off : Nat) (v : W32) : Option Crucible :=
  reg1 off 0x500C (commitWrite x.num.regs.commit v x Crucible.numCommit) <|>
  reg1 off 0x5140 { x with num := { x.num with status := w1c x.num.status (v.setWidth 2) } } <|>
  reg1 off 0x10800 (commitWrite x.core.remap.commit v x Crucible.remapCommit) <|>
  regN off 0x20000 4 528 (fun p =>
    { x with core := { x.core with retired := Store.set retiredDefault x.core.retired p (v.getLsbD 31) } }) <|>
  regN off 0x30000 4 500 (fun l => x.writeControl l v) <|>
  regN off 0x40000 4 500 (fun l => if v.getLsbD 3 then x.modLog l (fun g => { g with dropped := false }) else x) <|>
  regN off 0x60000 4 16 (fun i => x.clearFaultFlags i v) <|>
  reg1 off 0x60040 { x with core := { x.core with status := w1c x.core.status (v.setWidth 5) } } <|>
  reg1 off 0x70014 (commitWrite x.core.istore.commit v x Crucible.istoreCommit) <|>
  reg1 off 0x100080 (commitWrite x.hbm.reg.commit v x Crucible.hbmRegCommit) <|>
  reg1 off 0x100204 (commitWrite x.hbm.pmap.commit v x Crucible.hbmPmapCommit) <|>
  reg1 off 0x110120 { x with hbm := { x.hbm with scrubInterval := v.setWidth 16 } } <|>
  reg1 off 0x110130 { x with hbm := { x.hbm with ce0 := v } } <|> reg1 off 0x110134 { x with hbm := { x.hbm with ce1 := v } } <|>
  reg1 off 0x110138 { x with hbm := { x.hbm with ue0 := v } } <|> reg1 off 0x11013C { x with hbm := { x.hbm with ue1 := v } } <|>
  regN off 0x200008 0x40 16 (fun n => commitWrite (x.port n).set.commit v x (fun x => x.modPort n (fun p => p.commit n))) <|>
  regN off 0x21000C 0x100 16 (fun n => x.modPort n (fun p => { p with event := w1c p.event (v.setWidth 8) })) <|>
  (if 0x210000 ≤ off ∧ off < 0x211000 then
     regN (off % 0x100) 0x40 4 7 (fun k => x.modPort ((off - 0x210000) / 0x100) (fun p =>
       { p with count := Store.set zero32 p.count k v }))
   else none) <|>
  reg1 off 0x211000 (if v.getLsbD 0 then { x with fabUnassigned := false } else x) <|>
  reg1 off 0x224008 (commitWrite x.xport.job.commit v x Crucible.jobCommit) <|>
  reg1 off 0x224018 (commitWrite x.xport.xrack.commit v x Crucible.xrackCommit) <|>
  reg1 off 0x230000 (x.writeE2e v) <|>
  reg1 off 0x230008 (x.onXport (fun t => { t with status := w1c t.status (v.setWidth 8) })) <|>
  regN off 0x230040 4 7 (fun k => x.onXport (fun t => { t with count := Store.set zero32 t.count k v })) <|>
  regN off 0x300000 4 500 (fun l => x.selectCtx l v) <|>
  regN off 0x301800 4 8 (fun i => commitWrite (x.tally.set i).commit v x (fun x => x.xlatCommit i)) <|>
  reg1 off 0x302100 { x with tally := { x.tally with status := w1c x.tally.status (v.setWidth 24) } } <|>
  regN off 0x401000 4 528 (fun p => { x with res := { x.res with physTotal := Store.set zero16 x.res.physTotal p (v.setWidth 16) } }) <|>
  reg1 off 0x403000 (x.writeInterval false v) <|> reg1 off 0x403004 (x.writeInterval true v) <|>
  reg1 off 0x403018 (commitWrite x.res.seed.commit v x Crucible.noseCommit) <|>
  reg1 off 0x403100 { x with res := { x.res with status := w1c x.res.status (v.setWidth 6) } } <|>
  reg1 off 0x410014 { x with riser := { x.riser with stalls := v } } <|>
  reg1 off 0x410018 { x with riser := { x.riser with replays := v } } <|>
  reg1 off 0x500010 (commitWrite x.hang.win.commit v x Crucible.hangCommit) <|>
  reg1 off 0x510004 { x with hang := { x.hang with status := w1c x.hang.status (v.setWidth 4) } } <|>
  reg1 off 0x600000 (if v.getLsbD 0 then { x with pwr := { x.pwr with unassigned := false } } else x) <|>
  reg1 off 0x600010 { x with pwr := { x.pwr with throttleMs := v } }

/-- NUM_EVENT_SUMMARY_i: a written 1 clears the flag and its record. -/
def State.clearNumFlags (s : State) (a : Accessor) (c : Cru) (i : Nat) (v : W32) : State :=
  (List.range 32).foldl (fun s j => if v.getLsbD j ∧ 32 * i + j < 500 then s.clearNumEvent a c (32 * i + j) else s) s

/-- HBM_STATUS. -/
def State.writeHbmStatus (s : State) (a : Accessor) (c : Cru) (v : W32) : State :=
  let s := if v.getLsbD 5 then s.clearUePending a c else s
  s.atCrucible c (fun x => { x with hbm := { x.hbm with status := w1c x.hbm.status (v.setWidth 6 &&& 0x1F) } })

/-- FAB_CTRL_n. -/
def State.writePortCtrl (s : State) (c : Cru) (n : PortIx) (v : W32) : State :=
  let s := s.setEnable c n (v.getLsbD 31)
  if v.getLsbD 30 then s.retrain c n else s

/-- HANG_CTRL: the kick, then FORCE (R559). -/
def State.writeHangCtrl (s : State) (c : Cru) (v : W32) : State :=
  let s := if v.getLsbD 30 then s.atCrucible c Crucible.kick else s
  if v.getLsbD 31 then s.forceHangNow c else s

/-- Writes whose effect depends on the writer or leaves the crucible. -/
def State.writeActive (s : State) (a : Accessor) (c : Cru) (off : Nat) (v : W32) : Option State :=
  regN off 0x5100 4 16 (fun i => s.clearNumFlags a c i v) <|>
  reg1 off 0x110100 (s.writeHbmStatus a c v) <|>
  regN off 0x210000 0x100 16 (fun n => s.writePortCtrl c (Fin.ofNat 16 n) v) <|>
  reg1 off 0x302008 (s.atCrucible c (fun x => commitWrite x.tally.force.commit v x (fun x => x.forceTally a))) <|>
  reg1 off 0x302104 (if v.getLsbD 31 then s.clearTallyLog a c else s) <|>
  reg1 off 0x403104 (if v.getLsbD 31 then s.popFault a c else s) <|>
  reg1 off 0x510000 (s.writeHangCtrl c v)

/-- A write at offset `off` of crucible c: by its access code; a readable register without an effect ignores it; any other offset is
unassigned. -/
def State.cruWrite (s : State) (a : Accessor) (c : Cru) (off : Nat) (v : W32) : State :=
  let x := s.crucible c
  match s.writeActive a c off v <|> ((x.writeShadow off v <|> x.writePlain off v).map (s.putCrucible c)) with
  | some s => s
  | none => if (s.cruRead c off).isSome then s else s.atCrucible c (fun x => x.unassigned off)

/-! ### Reads (R364, R484, R589) -/

/-- A LO read by an accessor captures the high half. -/
def capture (cs : List Capture) (a : Accessor) (key : Nat) (high : W32) : List Capture :=
  cs.filter (fun c => c.who != a) ++ [⟨a, key, high⟩]

/-- A HI read: the captured half when the accessor's last LO read was of the same register. -/
def captured (cs : List Capture) (a : Accessor) (key : Nat) (now : W32) : W32 :=
  match cs.find? (fun c => c.who == a && c.key == key) with
  | some c => c.high
  | none => now

/-- TALLY_WORD_LO_L_i. -/
def State.readTallyLo (s : State) (a : Accessor) (c : Cru) (l i : Nat) : W32 × State :=
  let w := ((s.crucible c).phys l).tallyWord i
  (lo32 w, s.atCrucible c (fun x => { x with tally := { x.tally with captures := capture x.tally.captures a (48 * l + i) (hi32 w) } }))

/-- RES_SIG_LO_L. -/
def State.readSigLo (s : State) (a : Accessor) (c : Cru) (l : Nat) : W32 × State :=
  let w := ((s.crucible c).log l).sig
  (lo32 w, s.atCrucible c (fun x => { x with res := { x.res with captures := capture x.res.captures a l (hi32 w) } }))

/-- PWR_AON_LO. The time since the last tick is the clock's: the count first advances by a free number of ticks (log 9). -/
def State.readAonLo (s : State) (a : Accessor) (c : Cru) : W32 × State :=
  let (i, s) := s.fresh
  let w := (s.crucible c).pwr.aon + BitVec.ofNat 64 (Config.freeNat i)
  (lo32 w, s.atCrucible c (fun x => { x with pwr := { x.pwr with aon := w, captures := capture x.pwr.captures a 0 (hi32 w) } }))

/-- RES_STATUS. While sillage is due and the update phase's end is not yet known, the page engine may be running: SILLAGE_BUSY is
free (log 49); at any other time it is 0 (R479, R486). -/
def State.readResStatus (s : State) (v : W32) : W32 × State :=
  if s.steps.phase = .update ∧ s.sillageDue then
    let (i, s) := s.fresh
    (v ||| bitAt (Config.freeBool i) 7, s)
  else (v, s)

/-- A read at offset `off` of crucible c. -/
def State.cruRegRead (s : State) (a : Accessor) (c : Cru) (off : Nat) : W32 × State :=
  let x := s.crucible c
  match s.cruRead c off with
  | none => (0, s.atCrucible c (fun x => x.unassigned off))
  | some v =>
    match regIx off 0x310000 8 24000, regIx off 0x310004 8 24000, regIx off 0x402000 8 500, regIx off 0x402004 8 500 with
    | some i, _, _, _ => s.readTallyLo a c (i / 48) (i % 48)
    | _, some i, _, _ => (captured x.tally.captures a i v, s)
    | _, _, some l, _ => s.readSigLo a c l
    | _, _, _, some l => (captured x.res.captures a l v, s)
    | _, _, _, _ =>
      if off = 0x600008 then s.readAonLo a c
      else if off = 0x60000C then (captured x.pwr.captures a 0 v, s)
      else if off = 0x403100 then s.readResStatus v
      else (v, s)

/-! ### The port die -/

/-- Writes to the Ethernet and command blocks of half h. -/
def Half.write (h : Half) (off : Nat) (v : W32) : Option Half :=
  reg1 off 0x100000 { h with ethFlags := w1c h.ethFlags (v.setWidth 2) } <|>
  reg1 off 0x100004 (h.writeVlan v) <|>
  reg1 off 0x100008 { h with pfcEnable := v.extractLsb' 16 8, pcps := v.setWidth 9 } <|>
  regN off 0x100040 4 8 (fun k => { h with ethCount := Store.set zero32 h.ethCount k v }) <|>
  reg1 off 0x200000 { h with cmdFlags := w1c h.cmdFlags (v.setWidth 3) } <|>
  regN off 0x200040 4 6 (fun k => { h with cmdCount := Store.set zero32 h.cmdCount k v })

/-- Writes to the store controller's registers. STORE_BUF is closed while COMMIT reads 1 (R617). -/
def StoreBlock.write (t : StoreBlock) (off : Nat) (v : W32) : Option StoreBlock :=
  reg1 off 0x308000 (t.shadow (fun r => { r with op := v.extractLsb' 28 4, kind := v.extractLsb' 16 8, key := v.setWidth 16 })) <|>
  reg1 off 0x308004 (t.shadow (fun r => { r with index := v })) <|>
  reg1 off 0x308008 (t.shadow (fun r => { r with len := v.setWidth 13 })) <|>
  reg1 off 0x30000C (if v.getLsbD 0 then t.commit else t) <|>
  reg1 off 0x300100 { t with flags := w1c t.flags (v.setWidth 6) } <|>
  regN off 0x300140 4 6 (fun k => { t with count := Store.set zero32 t.count k v }) <|>
  regN off 0x301000 4 1024 (fun w =>
    if t.regs.commit then { t with flags := setFlag t.flags 3 }
    else { t with buf := Memory.writeBytes t.buf (4 * w) (leBytes 4 v.toNat) })

def Boot.write (b : Boot) (off : Nat) (v : W32) : Option Boot :=
  reg1 off 0x400000 (if v.getLsbD 0 then { b with unassigned := false } else b) <|>
  reg1 off 0x400020 { b with klistIndex := v.setWidth 16 } <|>
  regN off 0x400200 4 5 (fun k => { b with count := Store.set zero32 b.count k v })

def Power.write (p : Power) (off : Nat) (v : W32) : Option Power :=
  reg1 off 0x500000 { p with flags := w1c p.flags (v.setWidth 2) } <|>
  reg1 off 0x50000C (p.writeLimit v) <|>
  reg1 off 0x500010 { p with event := w1c p.event (v.setWidth 6) }

/-- A write at offset `off` of the port die, in the view of half h. -/
def State.pdWrite (s : State) (h : HalfIx) (off : Nat) (v : W32) : State :=
  match ((s.halfAt h).write off v).map (fun w => (s.putHalf h w).releaseHalf h) <|> (s.store.write off v).map (fun t => { s with store := t }) <|>
      (s.boot.write off v).map (fun b => { s with boot := b }) <|> (s.power.write off v).map (fun p => { s with power := p }) with
  | some s => s
  | none => if (s.pdRead h off).isSome then s else s.pdUnassigned h off

/-! ### Any control space (R52–R59) -/

/-- The view is assigned and its half has not failed. -/
def State.viewUp (s : State) (a : Accessor) (view : Fin 4) : Option HalfIx :=
  match viewHalf view with
  | some h => if s.portDieUp && s.speaks a && (s.halfAt h).alive then some h else none
  | none => none

/-- A write of one word; an access that reaches nothing has no effect. -/
def State.ctrlWriteWord (s : State) (a : Accessor) (sp : CtrlSpace) (off : Nat) (v : W32) : State :=
  match sp with
  | .crucible c => if s.reach a c then s.cruWrite a c off v else s
  | .portDie view =>
    match s.viewUp a view with
    | some h => s.pdWrite h off v
    | none => s

/-- A read of one word. -/
def State.ctrlReadWord (s : State) (a : Accessor) (sp : CtrlSpace) (off : Nat) : W32 × State :=
  match sp with
  | .crucible c => if s.reach a c then s.cruRegRead a c off else (0, s)
  | .portDie view =>
    match s.viewUp a view with
    | some h =>
      match s.pdRead h off with
      | some v => (v, s)
      | none => (0, s.pdUnassigned h off)
    | none => (0, s)

end Sys2Proof.Machine
end

