-- ==== Sys2Proof/Machine/HostOps.lean ====
section
/-!
DEFINITION. The command engine (R444–R446, R449, R451): how a command arrives, is held, is checked and is answered; data read from a
window.
-/
namespace Sys2Proof.Machine

/-! ### What reaches a half -/

def Half.modQp (h : Half) (n : Nat) (f : Qp → Qp) : Half := { h with qps := h.qps.map (fun q => if q.num = n then f q else q) }

/-- A half that frames reach: it works, its link is up, the port die runs. -/
def State.hears (s : State) (h : HalfIx) : Bool := s.portDieUp && (s.halfAt h).alive && (s.halfAt h).linkUp

/-- A message of `n` frames arrives: frames whose tagging differs from ETH_VLAN are discarded and counted (R436). -/
def State.onFrames (s : State) (f : Frame) (n : Nat) (g : State → State) : State :=
  if !s.hears f.half then s
  else
    let t := s.modHalf f.half (fun v => v.ethAdd 0 n)
    if f.vid = (s.halfAt f.half).vlan then g t else t.modHalf f.half (fun v => v.ethAdd 2 n)

/-- A packet marked CE: a CNP goes to its sender, at most one per queue pair in 50 µs (R439). -/
def State.congested (s : State) (h : HalfIx) (n : Nat) (ce : Bool) : State :=
  let now := s.power.aon
  match (s.halfAt h).qp n with
  | some q =>
    let free := match q.cnpAt with
      | some t => decide (1250 ≤ now.toNat - t.toNat)
      | none => true
    if ce && free then
      (s.sendEth h (.cnp n)).modHalf h (fun v => (v.modQp n (fun q => { q with cnpAt := some now })).ethBump 5)
    else s
  | none => s

/-! ### Responses (R446) -/

/-- Whom a response answers. -/
structure AnswerTo where
  half : HalfIx
  qp : Nat
  opcode : W16
  tag : W32
  /-- The crucibles that the command selects and that are unavailable. -/
  away : BitVec 4
  deriving DecidableEq, Repr

/-- A response; on a queue pair that is lost it reaches nobody. -/
def State.reply (s : State) (a : AnswerTo) (status : W16) (detail : W32) (unavailable : BitVec 4) (body : List Byte) : State :=
  if !s.qpWorks a.half a.qp then s
  else (s.sendEth a.half (.response a.qp (a.opcode ||| 0x8000) status a.tag detail (unavailable ||| a.away) body)).modHalf a.half
    (fun h => if status = 0 then h else h.cmdBump 1)

/-- The response OK. -/
def State.ok (s : State) (a : AnswerTo) (unavailable : BitVec 4) (body : List Byte) : State := s.reply a 0 0 unavailable body

/-! ### Checks (R445, R446) -/

/-- One check: it fails with this status, DETAIL and UNAVAILABLE. -/
structure Check where
  fails : Bool
  status : W16
  detail : Nat
  unavailable : BitVec 4
  deriving DecidableEq, Repr

def bad (b : Bool) (d : Nat) : Check := ⟨b, 4, d, 0⟩
def busy (b : Bool) : Check := ⟨b, 5, 0, 0⟩
def noJob (b : Bool) : Check := ⟨b, 6, 0, 0⟩
def noPlacement (b : Bool) : Check := ⟨b, 7, 0, 0⟩
def noResource (b : Bool) (limit : Nat) : Check := ⟨b, 11, limit, 0⟩
def rejected (b : Bool) (reason : Nat) : Check := ⟨b, 9, reason, 0⟩

/-- The first check that fails is answered; else `f`. -/
def State.checked (s : State) (a : AnswerTo) (cs : List Check) (f : State → State) : State :=
  match cs.find? Check.fails with
  | some c => s.reply a c.status (BitVec.ofNat 32 c.detail) c.unavailable []
  | none => f s

/-- Listed fields: byte offset in the body, and size. -/
abbrev Fields := List (Nat × Nat)

def fieldsEnd (fs : Fields) : Nat := fs.foldl (fun v f => max v (f.1 + f.2)) 0
def inField (fs : Fields) (i : Nat) : Bool := fs.any (fun f => decide (f.1 ≤ i) && decide (i < f.1 + f.2))

/-- Position of the first byte of `bs`, which starts at `i`, that is no field's and is not 0. -/
def strayByte (fs : Fields) (i : Nat) : List Byte → Option Nat
  | [] => none
  | b :: bs => if b ≠ 0 ∧ !inField fs i then some i else strayByte fs (i + 1) bs

/-- The DETAIL of MALFORMED, if the message is malformed. -/
def malformed (m : CmdMsg) (fs : Fields) : Option Nat :=
  if m.length.toNat ≠ 32 + m.body.length ∨ 4096 < 32 + m.body.length ∨ m.body.length < fieldsEnd fs then some 8
  else if m.flags.extractLsb' 1 7 ≠ 0 then some 2
  else if m.flags.extractLsb' 8 8 ≠ 0 then some 3
  else if m.crucibles.extractLsb' 4 4 ≠ 0 then some 16
  else (strayByte [] 17 (leBytes 15 m.resv.toNat)).or ((strayByte fs 0 m.body).map (fun i => 32 + i))

/-- The command compares the job tag and epoch, and they differ. -/
def State.epochMismatch (s : State) (m : CmdMsg) : Bool :=
  m.flags.getLsbD 0 && (m.epoch != s.host.epoch || m.jobTag != s.host.jobTag)

/-- What recovery mode serves (R633). -/
def servedInRecovery (opcode : W16) : Bool :=
  opcode == 0x0001 || opcode == 0x0020 || opcode == 0x0021 || opcode == 0x0070 || opcode == 0x0071

/-! ### Selected crucibles (R59, R446) -/

/-- A crucible of the module is unavailable to the port die (R59). -/
def State.unavailable (s : State) (c : Cru) : Bool := !(s.crucible c).live

def cruBit (c : Cru) : BitVec 4 := (1 : BitVec 4) <<< c.val

/-- The selected crucibles. -/
def selected (m : CmdMsg) : List Cru := cruList.filter (fun c => m.crucibles.getLsbD c.val)

/-- UNAVAILABLE: selected and unavailable. -/
def State.awayMask (s : State) (m : CmdMsg) : BitVec 4 :=
  (selected m).foldl (fun v c => if s.unavailable c then v ||| cruBit c else v) 0

/-- Every selected crucible is unavailable. -/
def State.allAway (s : State) (m : CmdMsg) : Bool := !(selected m).isEmpty && (selected m).all s.unavailable

/-- The commands that use CRUCIBLES: JOB_SET, SET_EPOCH, SET_XRACK. -/
def usesCrucibles (opcode : W16) : Bool := opcode == 0x0010 || opcode == 0x0011 || opcode == 0x0013

/-- Whom a response to the command answers. -/
def State.answerOf (s : State) (m : CmdMsg) (opcode : W16) : AnswerTo :=
  ⟨m.half, m.qp, opcode, m.tag, if usesCrucibles opcode then s.awayMask m else 0⟩

/-- A known command: its checks in the order of R446, then its work. -/
def State.serve (s : State) (m : CmdMsg) (opcode : W16) (fs : Fields) (f : AnswerTo → State → State) : State :=
  let a := s.answerOf m opcode
  match malformed m fs with
  | some d => s.reply a 1 (BitVec.ofNat 32 d) 0 []
  | none =>
    if s.boot.mode = .recovery ∧ !servedInRecovery opcode then s.reply a 2 0 0 []
    else if s.epochMismatch m then s.reply a 3 (s.host.jobTag ++ s.host.epoch) 0 []
    else f a s

/-! ### Arrival and holding (R444, R448, R581, R582) -/

/-- The message of a host command. -/
def hostMsg : Instr → Option CmdMsg
  | .identify m | .subscribe m | .jobSet m | .setEpoch m | .setHealthMap m | .setXrack m | .takeOver m | .defineWindow m
  | .deleteWindow m | .defineRing m | .ringCredit m | .registerKernel m | .submitGraph m | .stepCommand m | .stopCommand m
  | .storageTarget m _ _ _ _ | .ingot m | .restore m | .ctrlRead m | .ctrlWrite m | .updateWrite m | .activate m | .attest m
  | .bankCommand m | .wakeCommand m | .unknownOpcode m _ => some m
  | _ => none

def sameQp (h : HalfIx) (q : Nat) (i : Instr) : Bool :=
  match hostMsg i with
  | some m => m.half == h && m.qp == q
  | none => false

/-- Commands of a queue pair taken and not answered yet, but those still held. -/
def State.qpRunning (s : State) (h : HalfIx) (q : Nat) : Nat :=
  (s.host.running.filter (fun r => r.half == h && r.qp == q)).length +
  (match s.boot.update with
   | some u => if u.half = h ∧ u.qp = q then 1 else 0
   | none => 0) +
  (((match s.power.bankCmd with
     | some b => [b]
     | none => []) ++ s.power.wakeCmds).filter (fun b => b.1 == h && b.2.1 == q)).length

/-- Outstanding commands of a queue pair. -/
def State.outstanding (s : State) (h : HalfIx) (q : Nat) : Nat := s.qpRunning h q + (s.held.filter (sameQp h q)).length

/-- The RESUME ordered sets of the ports in Keep-alive (R386). -/
def State.resumeSets (s : State) : List Out :=
  cruList.flatMap (fun c => ((s.crucible c).ports.filter (fun e => e.2.mode == .keepAlive)).map (fun e => .resumeSet c (Fin.ofNat 16 e.1)))

/-- A wake is due: it starts in Banked, or as soon as Banked has been entered. -/
def State.startWake (s : State) : State :=
  match s.power.mode with
  | .banked => { s with power := { s.power with mode := .waking }, out := s.out ++ s.resumeSets }
  | .enteringBanked => { s with power := { s.power with wakeDue := true } }
  | _ => s

/-- What the module does with a command in a state other than On, by R448 and R579. -/
inductive AwayRule where
  /-- Answered in Banked. -/
  | answered
  | held
  /-- BANK: held, but answered during a wake (R582). -/
  | bank
  deriving DecidableEq, Repr

def State.holds (s : State) (r : AwayRule) : Bool :=
  match r with
  | .answered => false
  | .held => s.power.mode != .on
  | .bank => s.power.mode == .enteringBanked || s.power.mode == .banked

/-- A command arrives on a command queue pair: it meets an RNR NAK, is held, or runs. -/
def State.arriveCmd (s : State) (m : CmdMsg) (i : Instr) (away : AwayRule) (run : State → State) : State :=
  let v := s.halfAt m.half
  s.onFrames m.toFrame (frames (v.mtu m.qp) (32 + m.body.length)) (fun s =>
    match v.qp m.qp with
    | none => s
    | some q =>
      if q.kind == .command && !q.error then
        let s := s.congested m.half m.qp m.ce
        if !s.engineUp m.half || decide (s.outstanding m.half m.qp ≥ 16) then s.sendEth m.half (.rdmaReply m.qp .rnrNak)
        else
          let s := s.modHalf m.half (fun h => h.cmdBump 0)
          if s.holds away then ({ s with held := s.held ++ [i] }).startWake
          else if s.outstanding m.half m.qp > 0 then { s with held := s.held ++ [i] }
          else run s
      else s)

/-! ### Fields and windows -/

def cmdField (m : CmdMsg) (o n : Nat) : Nat := leField m.body o n

/-- The window of an id that a command may name. -/
def State.window (s : State) (id : Nat) : Option Window := s.host.windows.find? (fun w => w.id.toNat == id && w.ring.isNone)

/-- The crucible's HBM can be used: it serves, or recovery mode holds it in its ROM (R633, log 38). -/
def Crucible.stores (x : Crucible) : Bool := x.live || x.service == .rom

/-- Checks on data named in a window: the id at body offset `ow`, the range at `oo`, and then that its crucible serves. -/
def State.windowChecks (s : State) (id off len ow oo : Nat) : List Check :=
  match s.window id with
  | none => [bad true ow]
  | some w => [bad (decide (w.len < off + len)) oo]

def State.windowAway (s : State) (id : Nat) : List Check :=
  match s.window id with
  | none => []
  | some w => [⟨!(s.crucible w.cru).stores, 8, 0, cruBit w.cru⟩]

/-- The engine reads `n` bytes at `off` in a window. -/
def State.readWindow (s : State) (id off n : Nat) : List Byte × State :=
  match s.window id with
  | none => ([], s)
  | some w =>
    let (bs, x) := (s.crucible w.cru).hbmRead .portDie (w.off + off) n none
    (bs, s.putCrucible w.cru x)

/-! ### Events that wait (R449) -/

/-- Space for `n` events at the event queue pair: the oldest waiting ones are sent. -/
def Half.sendQueued (h : Half) (ix : HalfIx) : Nat → Half × List Out
  | 0 => (h, [])
  | n + 1 =>
    match h.eventQp, h.eventQueue with
    | some q, e :: es =>
      let (h', os) := (({ h with eventQueue := es }).cmdBump 2).send ix (.event q e)
      let (h'', os') := Half.sendQueued h' ix n
      (h'', os ++ os')
    | _, _ => (h, [])

/-- Waiting events leave, as far as there is space for them; then, while the flag EVENTS_LOST is set, one EVENTS_LOST event reports those
dropped (R449, R463). -/
def State.eventSpace (s : State) (h : HalfIx) (n : Nat) : State :=
  let (v, os) := (s.halfAt h).sendQueued h n
  let s := (s.putHalf h v).emit os
  if decide (v.lost > 0) && v.cmdFlags.getLsbD 2 && decide (v.eventQueue.length < 1024) && v.eventMask.getLsbD 10 then
    let e : Event := ⟨0xC00A, s.host.eventSeq, portDieSource, s.steps.oldest, leBytes 4 v.lost⟩
    let (v, os) := ({ v with lost := 0 }).post h e
    ({ s with host := { s.host with eventSeq := s.host.eventSeq + 1 } }.putHalf h v).emit os
  else s

end Sys2Proof.Machine
end

