-- ==== Sys2Proof/Machine/Hss.lean ====
section
/-!
DEFINITION. Verification of HSS signatures with the parameter sets of R624 (RFC 8554): SHA-256, n = m = 32, LMS H5 to H25, LMOTS W1
to W8, one or two levels.
-/
namespace Sys2Proof.Machine

/-- Bits of a Winternitz digit, digits, and the checksum's shift, by LMOTS type. -/
def lmotsParams (type : Nat) : Option (Nat × Nat × Nat) :=
  if type = 1 then some (1, 265, 7)
  else if type = 2 then some (2, 133, 6)
  else if type = 3 then some (4, 67, 4)
  else if type = 4 then some (8, 34, 0)
  else none

/-- Tree height, by LMS type. -/
def lmsHeight (type : Nat) : Option Nat := if 5 ≤ type ∧ type ≤ 9 then some (5 * (type - 4)) else none

def beField (bs : List Byte) (i n : Nat) : Nat := beNat ((bs.drop i).take n)

/-- Digit `i` of width `w` of a byte string. -/
def lmotsDigit (bs : List Byte) (i w : Nat) : Nat := (bs.getD (i * w / 8) 0).toNat / 2 ^ (8 - w * (i % (8 / w)) - w) % 2 ^ w

/-- The digest with its checksum. -/
def lmotsChecked (q : List Byte) (w ls : Nat) : List Byte :=
  let sum := ((List.range (256 / w)).map (fun i => 2 ^ w - 1 - lmotsDigit q i w)).sum
  q ++ beBytes 2 (sum * 2 ^ ls)

/-- Chain `i` from step `j`, `n` steps on. -/
def lmotsChain (ident : List Byte) (q i : Nat) (v : List Byte) (j : Nat) : Nat → List Byte
  | 0 => v
  | n + 1 => lmotsChain ident q i (sha256 (ident ++ beBytes 4 q ++ beBytes 2 i ++ beBytes 1 j ++ v)) (j + 1) n

/-- The candidate LMOTS key of a signature's randomiser `c` and chain values `y`. -/
def lmotsCandidate (ident : List Byte) (q : Nat) (w p ls : Nat) (c y msg : List Byte) : List Byte :=
  let d := lmotsChecked (sha256 (ident ++ beBytes 4 q ++ [0x81, 0x81] ++ c ++ msg)) w ls
  let z := (List.range p).map (fun i =>
    let a := lmotsDigit d i w
    lmotsChain ident q i ((y.drop (32 * i)).take 32) a (2 ^ w - 1 - a))
  sha256 (ident ++ beBytes 4 q ++ [0x80, 0x80] ++ z.flatten)

/-- Up the tree from node `node` along the path, to the root. -/
def lmsClimb (ident : List Byte) (node : Nat) (v path : List Byte) : Nat → List Byte
  | 0 => v
  | n + 1 =>
    let s := path.take 32
    let pair := if node % 2 = 1 then s ++ v else v ++ s
    lmsClimb ident (node / 2) (sha256 (ident ++ beBytes 4 (node / 2) ++ [0x83, 0x83] ++ pair)) (path.drop 32) n

/-- Bytes of an LMS signature, from its own type fields. -/
def lmsSigBytes (sig : List Byte) : Option Nat :=
  match lmotsParams (beField sig 4 4) with
  | none => none
  | some (_, p, _) =>
    match lmsHeight (beField sig (8 + 32 * (p + 1)) 4) with
    | none => none
    | some h => some (12 + 32 * (p + 1) + 32 * h)

/-- An LMS signature of `msg` under a 56-byte public key. -/
def lmsVerify (key msg sig : List Byte) : Bool :=
  match lmotsParams (beField key 4 4), lmsHeight (beField key 0 4) with
  | some (w, p, ls), some h =>
    let ident := (key.drop 8).take 16
    let q := beField sig 0 4
    let at_ := 8 + 32 * (p + 1)
    if key.length = 56 ∧ sig.length = at_ + 4 + 32 * h ∧ beField sig 4 4 = beField key 4 4 ∧ beField sig at_ 4 = beField key 0 4 ∧
        q < 2 ^ h then
      let kc := lmotsCandidate ident q w p ls ((sig.drop 8).take 32) ((sig.drop 40).take (32 * p)) msg
      let leaf := sha256 (ident ++ beBytes 4 (2 ^ h + q) ++ [0x82, 0x82] ++ kc)
      lmsClimb ident (2 ^ h + q) leaf (sig.drop (at_ + 4)) h == key.drop 24
    else false
  | _, _ => false

/-- An HSS signature of `msg` under a 60-byte public key. -/
def hssVerify (key msg sig : List Byte) : Bool :=
  let levels := beField key 0 4
  let rest := sig.drop 4
  if key.length ≠ 60 ∨ beField sig 0 4 + 1 ≠ levels then false
  else if levels = 1 then lmsVerify (key.drop 4) msg rest
  else if levels = 2 then
    match lmsSigBytes rest with
    | none => false
    | some n =>
      let next := (rest.drop n).take 56
      lmsVerify (key.drop 4) next (rest.take n) && lmsVerify next msg (rest.drop (n + 56))
  else false

end Sys2Proof.Machine
end

