-- ==== Sys2Proof/Machine/Boot.lean ====
section
/-!
DEFINITION. Boot: verifying a component (R623–R626), the port-die ROM (R628, R629, R632, R633) and a crucible's ROM (R312, R630).
-/
namespace Sys2Proof.Machine

/-! ### Verifying a component (R623–R625) -/

/-- `n` bytes at slot offset `o`; flash never written reads 0xFF. -/
def slotRead (slot : List Byte) (o n : Nat) : List Byte :=
  let bs := (slot.drop o).take n
  bs ++ List.replicate (n - bs.length) 0xFF

def headerBytes : Nat := 4096

/-- A descriptor. -/
structure Component where
  kind : Byte
  off : Nat
  len : Nat
  sigOff : Nat
  sigLen : Nat
  digest : List Byte
  deriving DecidableEq, Repr

/-- Descriptor k of a header. -/
def componentOf (h : List Byte) (k : Nat) : Component :=
  let o := 128 + 64 * k
  ⟨h.getD o 0, leField h (o + 4) 4, leField h (o + 8) 4, leField h (o + 12) 4, leField h (o + 16) 4, (h.drop (o + 32)).take 32⟩

def zeroRange (h : List Byte) (o n : Nat) : Bool := ((h.drop o).take n).all (· == 0)

/-- The vendor key names parameter sets that the module accepts (R624). -/
def keyForm (key : List Byte) : Bool :=
  (beField key 0 4 == 1 || beField key 0 4 == 2) && (lmsHeight (beField key 4 4)).isSome && (lmotsParams (beField key 8 4)).isSome

/-- The header's own fields are as R623 has them. -/
def headerOk (h : List Byte) : Bool :=
  let len := leField h 16 4
  h.take 4 == [0x44, 0x4E, 0x33, 0x32] && leField h 4 2 == 1 && leField h 6 2 == 2 && decide (leField h 12 2 ≤ 256) &&
    zeroRange h 14 2 && decide (8192 ≤ len) && decide (len ≤ 67108864) && zeroRange h 34 30 && keyForm ((h.drop 64).take 60) &&
    zeroRange h 124 4 && zeroRange h 256 3840

/-- Descriptor k is as R623 has it. -/
def descriptorOk (h : List Byte) (k : Nat) : Bool :=
  let c := componentOf h k
  let len := leField h 16 4
  let o := 128 + 64 * k
  c.kind.toNat == k + 1 && zeroRange h (o + 1) 3 && zeroRange h (o + 20) 12 && decide (c.off % 4096 = 0) && decide (4096 ≤ c.off) &&
    decide (1 ≤ c.len) && decide (c.len ≤ (if k = 0 then 16777216 else 33554432)) && decide (c.off + c.len ≤ len) &&
    decide (4096 ≤ c.sigOff) && decide (c.sigOff + c.sigLen ≤ len) &&
    (decide (c.off + c.len ≤ c.sigOff) || decide (c.sigOff + c.sigLen ≤ c.off))

/-- Check component k of a slot: 0, or the code of the first check that fails (R625). -/
def verifyComponent (otp slot : List Byte) (k : Nat) : W16 :=
  let h := slotRead slot 0 headerBytes
  let c := componentOf h k
  if !(headerOk h && descriptorOk h k) then 1
  else if sha256 ((h.drop 64).take 60) != (otp.drop 0x20).take 32 then 2
  else if leField h 12 2 < fusedVersion otp then 3
  else if sha256 (slotRead slot c.off c.len) != c.digest then 4
  else if !hssVerify ((h.drop 64).take 60) (h.take 128 ++ (h.drop (128 + 64 * k)).take 64) (slotRead slot c.sigOff c.sigLen) then 5
  else 0

/-- What runs once component k of a slot has been started. -/
def imageOf (slot : List Byte) (number k : Nat) : RunImage :=
  let h := slotRead slot 0 headerBytes
  ⟨number, BitVec.ofNat 32 (leField h 8 4), leField h 12 2, BitVec.ofNat 32 (leField h 20 4),
   [BitVec.ofNat 16 (leField h 24 2), BitVec.ofNat 16 (leField h 26 2), BitVec.ofNat 16 (leField h 28 2)],
   BitVec.ofNat 32 (leField h 30 4), (componentOf h k).digest⟩

def Boot.slot (b : Boot) (n : Nat) : List Byte := if n = 0 then b.slotA else b.slotB

/-- VERSION of the image in a slot; 0 when its header is unreadable. -/
def Boot.slotVersion (b : Boot) (n : Nat) : W32 :=
  let h := slotRead (b.slot n) 0 headerBytes
  if headerOk h then BitVec.ofNat 32 (leField h 8 4) else 0

/-- A verification; one that fails is counted (R649). -/
def State.verify (s : State) (n k : Nat) : W16 × State :=
  let code := verifyComponent s.boot.otp (s.boot.slot n) k
  (code, if code = 0 then s else s.secBump 1)

/-! ### Settings (R437, R609, R610, R632) -/

/-- Allowed prefixes of a CONFIG payload. -/
def prefixesOf (bs : List Byte) : List (Nat × Nat × W128) :=
  (List.range (bs.getD 25 0).toNat).map (fun i =>
    let o := 32 + 20 * i
    let addr := (bs.drop (o + 4)).take 16
    let fam := (bs.getD o 0).toNat
    (fam, (bs.getD (o + 1) 0).toNat, BitVec.ofNat 128 (leNat (if fam = 4 then addr.take 4 else addr))))

/-- The settings of a half take effect. -/
def Half.loadSettings (h : Half) (r : Option Rec) : Half :=
  match r with
  | none => h
  | some r =>
    let bs := r.payload
    let flags := bs.getD 5 0
    let h := { h with net :=
      ⟨if flags.getLsbD 0 then some (BitVec.ofNat 32 (leField bs 0 4)) else none,
       if flags.getLsbD 1 then some (BitVec.ofNat 128 (leField bs 8 16)) else none, prefixesOf bs⟩ }
    let h := h.writeVlan (BitVec.ofNat 32 (leField bs 352 4))
    { h with pfcEnable := bs.getD 358 0, pcps := BitVec.ofNat 9 (leField bs 356 2) }

/-- A current CONFIG record that R610's layout describes. -/
def StoreBlock.setting (t : StoreBlock) (g : Nat) : Option Rec :=
  match t.current 0x08 g with
  | some r => if r.format = 1 then some r else none
  | none => none

/-- At a module power-up the settings are taken from the store. -/
def State.loadSettings (s : State) : State :=
  let policy := match s.store.setting 2 with
    | some r => r.payload.getD 0 0 == 1
    | none => false
  { s with half := ⟨s.half.h0.loadSettings (s.store.setting 0), s.half.h1.loadSettings (s.store.setting 1)⟩,
           boot := { s.boot with policy := policy } }

/-- Defaults of a group. -/
def defaultSetting (g : Nat) : List Byte := if g < 2 then List.replicate 356 0 ++ leBytes 4 0x000C009E else [0]

/-- The firmware resets a group whose record its image does not read. -/
def State.checkSetting (s : State) (i : RunImage) (g : Nat) : State :=
  let want := i.settings.getD g 1
  match s.store.current 0x08 g with
  | some r =>
    if r.format = want then s
    else
      let t := s.store.enqueue ⟨0x08, BitVec.ofNat 32 g, want, defaultSetting g, .nothing⟩
      let body := [BitVec.ofNat 8 g, 0] ++ leBytes 2 r.format.toNat ++ leBytes 2 want.toNat
      { s with store := t.addHistory 4 (historyEntry 6 0xFF (s.power.aon.toNat / 25000000) s.steps.oldest.toNat body) }
  | none => s

/-! ### Training and recovery (R312, R313, R633) -/

/-- The repairs recorded for a crucible (R316). -/
def State.recordedRepairs (s : State) (c : Cru) : List LaneRepair :=
  match s.store.current 0x04 c.val with
  | some r => repairsOf r.payload
  | none => []

/-- The half of a pseudo-channel that lane `l` lies in: data lanes 0 to 15, ECC lanes 32 and 33 and spare 36 in half 0. -/
def laneHalf (l : Nat) : BitVec 1 := if l < 16 ∨ l = 32 ∨ l = 33 ∨ l = 36 then 0 else 1

/-- The repair that uses a half's spare. -/
def repairOf (rs : List LaneRepair) (stack : Fin 2) (ch : Nat) (half : BitVec 1) : Option LaneRepair :=
  rs.find? (fun r => r.stack == stack && r.channel == BitVec.ofNat 5 ch && r.half == half)

/-- Lane `l` carries a symbol: a working lane that is not replaced, or a spare in use. -/
def carries (rs : List LaneRepair) (stack : Fin 2) (ch l : Nat) : Bool :=
  match repairOf rs stack ch (laneHalf l) with
  | some r => 36 ≤ l || r.lane.toNat != l
  | none => decide (l < 36)

/-- Steps 2 and 3 of R312 at one rate: each failing lane is repaired with its half's spare, if that is free, and the spare is tested in
its turn (R315). The repairs after it, and whether every pseudo-channel passes. -/
def trainRate (stack : Fin 2) (rate : BitVec 2) (step : W48) (rs : List LaneRepair) (first again : List Nat) : List LaneRepair × Bool :=
  let (rs', ok) := first.foldl (fun (a : List LaneRepair × Bool) n =>
    let ch := n / 38 % 32
    let l := n % 38
    if !carries a.1 stack ch l || (decide (36 ≤ l) && !carries rs stack ch l) then a
    else if (repairOf a.1 stack ch (laneHalf l)).isSome then (a.1, false)
    else (a.1 ++ [⟨stack, BitVec.ofNat 5 ch, laneHalf l, BitVec.ofNat 6 l, rate, step⟩], a.2)) (rs, true)
  (rs', ok && !again.any (fun n =>
    let ch := n / 38 % 32
    let l := n % 38
    decide (36 ≤ l) && carries rs' stack ch l && !carries rs stack ch l))

/-- A stack trains at 9.6, 8.0 and 6.4 Gbit/s in turn, until every pseudo-channel passes; test j of training `i` finds what it finds. -/
def trainStack (i : Nat) (stack : Fin 2) (step : W48) (rs : List LaneRepair) : List (BitVec 2) → StackStatus × List LaneRepair
  | [] => (⟨3, 3⟩, rs)
  | rate :: slower =>
    let j := 6 * stack.val + 2 * rate.toNat
    match trainRate stack rate step rs (Config.laneTest i j) (Config.laneTest i (j + 1)) with
    | (rs', true) => (⟨2, rate⟩, rs')
    | (rs', false) => trainStack i stack step rs' slower

/-- Both stacks of a crucible, from the recorded repairs. -/
def State.training (s : State) (c : Cru) (i : Nat) : StackStatus × StackStatus × List LaneRepair :=
  let (a, rs) := trainStack i 0 s.steps.oldest (s.recordedRepairs c) [0, 1, 2]
  let (b, rs) := trainStack i 1 s.steps.oldest rs [0, 1, 2]
  (a, b, rs)

/-- The payload of an HBM_REPAIR record (R603). -/
def repairBytes (c : Cru) (rs : List LaneRepair) : List Byte :=
  leBytes 4 rs.length ++ (rs.map (fun r =>
    [BitVec.ofNat 8 (2 * c.val + r.stack.val), r.channel.setWidth 8, r.half.setWidth 8, r.lane.setWidth 8, r.rate.setWidth 8, 0] ++
      leBytes 6 r.step.toNat)).flatten

/-- Training `i` keeps the crucible out of service: a stack has failed, or a new repair cannot be recorded (R312, R316). -/
def State.trainFails (s : State) (c : Cru) (i : Nat) : Bool :=
  let (a, b, rs) := s.training c i
  a.state == 3 || b.state == 3 || (rs != s.recordedRepairs c && !s.store.accepts)

/-- The clocks start, the repairs are applied and the stacks train; new repairs are committed to the map before the crucible serves. -/
def State.trainStacks (s : State) (c : Cru) : State :=
  let (i, s) := s.fresh
  let (a, b, rs) := s.training c i
  let failed := s.trainFails c i
  let (t, _) := if rs = s.recordedRepairs c then (s.store, true)
                else s.store.commitNow s.power.aon 0x04 c.val (repairBytes c rs)
  let s := { s with store := t }
  let x := s.crucible c
  let y := { x with hbm := { x.hbm with repairs := rs, stack0 := a, stack1 := b }, loaded := true,
                    pwr := { x.pwr with coreLock := true, hbmLock := true, serdesLock := true } }
  if failed then
    (s.putCrucible c { y with service := .outOfService, hang := { y.hang with booting := false } }).crucibleEvent c 2
  else s.putCrucible c y

/-- A crucible that recovery mode holds in its ROM, its ports Disabled. -/
def Crucible.held (x : Crucible) : Crucible :=
  let y := x.resetKept.mapPorts (fun p n => p.renew n)
  { y with service := .rom, told := false, hang := { y.hang with booting := false } }

/-- Recovery mode. -/
def State.recover (s : State) (reason : W16) : State :=
  let s := { s with boot := { s.boot with mode := .recovery, image := none, romUp := true, lastReason := reason, loaded := true,
                                          trial := none, activation := none } }.secBump 4
  cruList.foldl (fun s c => (s.atCrucible c Crucible.held).trainStacks c) s

/-! ### The port-die firmware starts (R629, R632, R636) -/

/-- 120 s in always-on ticks (R635). -/
def trialTicks : Nat := 3000000000

/-- An activation whose port die has restarted: the trial image checks the crucibles' versions, and the first crucible restarts. A ROM
that fell back to another image has ended it. -/
def State.activationBoots (s : State) (i : RunImage) : State :=
  match s.boot.activation with
  | none => s
  | some a =>
    if a.stage ≠ 2 then s
    else if s.boot.mode ≠ .trial then { s with boot := { s.boot with activation := none } }
    else if cruList.any (fun c => (s.crucible c).live && (match (s.crucible c).fw with
        | some f => decide (f.version.toNat < i.compat.toNat)
        | none => false)) then s.failActivation 6
    else s.nextRestart a 0

/-- Events that waited for the restart leave. -/
def State.wakeEvents (s : State) : State :=
  let s := s.modHalf 0 (fun h => { h with eventBlocked := false })
  let s := s.modHalf 1 (fun h => { h with eventBlocked := false })
  (s.eventSpace 0 1024).eventSpace 1 1024

/-- The ROM starts the port-die component of a slot, as a trial or not. The boot of a confirmed image raises v (R627). -/
def State.bootImage (s : State) (slot : Nat) (trial : Bool) (reason : W16) : State :=
  let i := imageOf (s.boot.slot slot) slot 0
  let s := { s with boot := { s.boot with mode := if trial then .trial else .stable, image := some i, romUp := false, lastReason := reason,
                                          loaded := true, trial := if trial then some trialTicks else none } }
  let s := (List.range 3).foldl (fun s g => s.checkSetting i g) s
  let s := if !trial && s.slotState.confirmed.toNat == slot then s.raiseFuses else s
  s.wakeEvents.activationBoots i

/-! ### The ROM's choice (R629) -/

/-- A slot other than the confirmed one is tried. -/
def State.bootOther (s : State) (st : SlotState) : State :=
  let n := 1 - st.active
  let st := { st with confirmed := 0xFF, active := n, trial := true, boots := 1, trialVersion := s.boot.slotVersion n }
  match s.commitSlot st with
  | (s, false) => s.recover st.reason
  | (s, true) =>
    let s := { s with boot := { s.boot with reasonKept := false } }
    match s.verify n 0 with
    | (code, s) => if code = 0 then s.bootImage n true st.reason else s.recover code

/-- The stable slot is booted, or what follows when it fails. -/
def State.bootStable (s : State) (st : SlotState) : State :=
  match s.verify st.active 0 with
  | (code, s) =>
    if code = 0 then s.bootImage st.active false st.reason
    else if s.boot.policy then s.recover code
    else s.bootOther { st with reason := code }

/-- The failure code of a trial that has run unconfirmed: what was committed for it; after a cut none is stated, a free value (log 36). -/
def State.trialReason (s : State) (st : SlotState) : W16 × State :=
  if s.boot.reasonKept then (st.reason, s)
  else
    let (i, s) := s.fresh
    (BitVec.ofNat 16 (Config.freeNat i), s)

/-- A trial has failed, with this code. -/
def State.trialFailed (s : State) (st : SlotState) (code : W16) : State :=
  let s := s.secBump 3
  if s.boot.policy || st.confirmed == 0xFF then s.recover code
  else
    let st : SlotState := { st with active := st.confirmed.toNat, trial := false, boots := 0, trialVersion := 0, reason := code }
    match s.commitSlot st with
    | (s, true) => s.bootStable st
    | (s, false) => s.recover code

/-- The ROM chooses. A commit that cannot be made durable leaves the image after it unbooted (log 39). -/
def State.chooseSlot (s : State) : State :=
  let st := s.slotState
  if !st.trial then s.bootStable st
  else if st.boots ≠ 0 then
    match s.trialReason st with
    | (code, s) => s.trialFailed st code
  else
    match s.verify st.active 0 with
    | (code, s) =>
      if code ≠ 0 then s.trialFailed st code
      else
        match s.commitSlot { st with boots := 1 } with
        | (s, true) => { s with boot := { s.boot with reasonKept := false } }.bootImage st.active true st.reason
        | (s, false) => s.recover st.reason

/-- PORT_DIE_BOOT: the port die is in its ROM. -/
def execPortDieBoot (s : State) : Host.Outcome State Fault Refusal :=
  .next (
    if s.portDieUp && s.boot.image.isNone && !s.boot.romUp then
      let s := s.openStore
      let s := if s.boot.loaded then s else s.loadSettings
      s.chooseSlot
    else s)

/-! ### A crucible's ROM (R98, R630, R631) -/

/-- RETIRED and the bindings of a CORE_MAP record (R602). -/
def Crucible.applyMap (x : Crucible) (bs : List Byte) : Crucible :=
  let ret := (List.range 528).foldl (fun m p => Store.set retiredDefault m p ((bs.getD (p / 8) 0).getLsbD (p % 8))) []
  let map := (List.range 500).foldl (fun m l => Store.set remapDefault m l (BitVec.ofNat 10 (leField bs (68 + 2 * l) 2))) []
  { x with core := { x.core with retired := ret, remap := { x.core.remap with live := map, shadow := map } } }

def State.applyCoreMap (s : State) (c : Cru) : State :=
  match s.store.current 0x03 c.val with
  | some r => if r.payload.length = 1068 then s.atCrucible c (fun x => x.applyMap r.payload) else s
  | none => s

/-- The component is started, its repair map applied; one that fails starts nothing, and fails an activation that runs (R637). -/
def State.startComponent (s : State) (c : Cru) : State :=
  let n := s.slotState.active
  match s.verify n 1 with
  | (code, s) =>
    if code = 0 then
      (s.atCrucible c (fun x => { x with fw := some (imageOf (s.boot.slot n) n 1) })).applyCoreMap c
    else match s.boot.activation with
      | some a => if 2 ≤ a.stage then s.failActivation code else s
      | none => s

/-- CRUCIBLE_BOOT: the crucible's reset is released, and the port die can carry its component. -/
def execCrucibleBoot (c : Cru) (s : State) : Host.Outcome State Fault Refusal :=
  .next (
    let x := s.crucible c
    if s.portDieUp && s.boot.image.isSome && x.service == .resetting && !x.frozen && x.fw.isNone then
      let s := s.trainStacks c
      if (s.crucible c).service = .resetting then s.startComponent c else s
    else s)

end Sys2Proof.Machine
end

