-- ==== Sys2Proof/Machine/HostSteps.lean ====
section
/-!
DEFINITION. The host commands on jobs and steps (R446–R448, R505, R508–R511): JOB_SET, SET_EPOCH and the job set's commit point,
SET_HEALTH_MAP, SET_XRACK, TAKE_OVER, STEP, STOP; IDENTIFY, SUBSCRIBE and unknown opcodes.
-/
namespace Sys2Proof.Machine

/-- An activation runs, from step 1 of R636 on. -/
def State.activating (s : State) : Bool :=
  match s.boot.activation with
  | some a => decide (2 ≤ a.stage)
  | none => false

def accessorOf (h : HalfIx) : Accessor := if h = 0 then .half0 else .half1

/-! ### IDENTIFY, SUBSCRIBE, unknown opcodes -/

def partNumber : List Byte := [0x57, 0x54, 0x2D, 0x44, 0x4E, 0x33, 0x32, 0x2D, 0x41, 0x31, 0, 0, 0, 0, 0, 0]

/-- VERSION of the port-die firmware; 0 in recovery mode. -/
def State.version (s : State) : W32 :=
  match s.boot.image with
  | some r => r.version
  | none => 0

def State.selfIndex (s : State) : Nat := if s.job.active then s.job.self.toNat else 0xFFFF

def State.serviceCount (s : State) : Nat := (cruList.filter (fun c => (s.crucible c).live)).length

def State.cmdIdentify (s : State) (m : CmdMsg) : State :=
  s.serve m 0x0001 [] (fun a s =>
    s.ok a 0 (partNumber ++ padTo 8 ((s.boot.otp.drop 0x40).take 8) ++ leBytes 4 s.version.toNat ++ leBytes 2 s.selfIndex ++
      [BitVec.ofNat 8 s.serviceCount, BitVec.ofNat 8 m.half.val]))

/-- SUBSCRIBE: the queue pair becomes its half's event queue pair; waiting events go to it. -/
def State.cmdSubscribe (s : State) (m : CmdMsg) : State :=
  s.serve m 0x0002 [(0, 8)] (fun a s =>
    let s := s.modHalf m.half (fun h =>
      { h with eventBlocked := h.eventBlocked && h.eventQp == some m.qp, eventQp := some m.qp,
               eventMask := BitVec.ofNat 64 (cmdField m 0 8) })
    let s := if (s.halfAt m.half).eventBlocked then s else s.eventSpace m.half 1024
    s.ok a 0 [])

def State.cmdUnknown (s : State) (m : CmdMsg) (opcode : W16) : State :=
  let a := s.answerOf m opcode
  match malformed m [(0, m.body.length)] with
  | some d => s.reply a 1 (BitVec.ofNat 32 d) 0 []
  | none => s.reply a 2 0 0 []

/-! ### JOB_SET and SET_EPOCH (R430, R448) -/

def modEntryOf (v : W32) : ModEntry := ⟨v.getLsbD 31, v.extractLsb' 6 10, v.extractLsb' 0 6⟩

/-- The table of `n` words, entries beyond them 0. -/
def tableOf (bs : List Byte) (n : Nat) : Store ModEntry :=
  (List.range n).foldl (fun m i => Store.set modDefault m i (modEntryOf (BitVec.ofNat 32 (leField bs (4 * i) 4)))) []

/-- A management core writes the shadow set and commits it; a commit that is pending already takes neither (R16, R19). -/
def Crucible.stageJob (x : Crucible) (f : JobSet → JobSet) : Crucible := (x.shadowJob f).jobCommit

/-- A command that waits for commit points. -/
def Running.waits (r : Running) : Bool :=
  match r.kind with
  | .jobSet .. => true
  | .graph => false

/-- Answer a JOB_SET or SET_EPOCH none of whose crucibles is awaited any more. -/
def State.endJob (s : State) (r : Running) : State :=
  match r.kind with
  | .graph => s
  | .jobSet waiting rejected epoch jobTag =>
    if waiting ≠ 0 then s
    else
      let a : AnswerTo := ⟨r.half, r.qp, r.opcode, r.tag, 0⟩
      let s := { s with host := { s.host with running := s.host.running.filter (fun q => q ≠ r) } }
      if rejected ≠ 0 then s.reply a 4 (rejected.setWidth 32) r.unavailable []
      else ({ s with host := { s.host with epoch := epoch, jobTag := jobTag.getD s.host.jobTag } }).ok a r.unavailable []

/-- The selected crucibles that serve are staged; the response waits for their commit points. -/
def State.fanJob (s : State) (m : CmdMsg) (a : AnswerTo) (epoch : W16) (jobTag : Option W16) (f : JobSet → JobSet) : State :=
  let away := s.awayMask m
  let on := (selected m).filter (fun c => !s.unavailable c)
  if s.allAway m then s.reply a 8 0 away []
  else if on.isEmpty then s.ok a away []
  else
    let s := on.foldl (fun s c => s.atCrucible c (fun x => x.stageJob f)) s
    let waiting := on.foldl (fun v c => v ||| cruBit c) 0
    { s with host := { s.host with running := s.host.running ++ [⟨m.half, m.qp, a.opcode, m.tag, away, .jobSet waiting 0 epoch jobTag⟩] } }

def State.cmdJobSet (s : State) (m : CmdMsg) : State :=
  s.serve m 0x0010 [(0, 2), (2, 2), (4, 2), (6, 2), (8, 1), (9, 1), (12, 4), (16, 8), (24, 2)] (fun a s =>
    let n := cmdField m 24 2
    let win := cmdField m 12 4
    let off := cmdField m 16 8
    s.checked a ([bad (decide (4095 < cmdField m 4 2)) 4, bad (decide (1023 < cmdField m 6 2)) 6,
        bad (decide (63 < cmdField m 8 1)) 8, bad (decide (1 < cmdField m 9 1)) 9] ++
        (if n = 0 then [] else s.windowChecks win off (4 * n) 12 16) ++ [bad (decide (4096 < n)) 24] ++
        (if n = 0 then [] else s.windowAway win) ++ [busy (s.activating || s.host.running.any Running.waits)]) (fun s =>
      let (bs, s) := if n = 0 then ([], s) else s.readWindow win off (4 * n)
      let epoch := BitVec.ofNat 16 (cmdField m 2 2)
      let tag := BitVec.ofNat 16 (cmdField m 0 2)
      s.fanJob m a epoch (some tag) (fun _ =>
        { table := tableOf bs n, epoch := epoch, tag := tag, active := cmdField m 9 1 == 1, rack := BitVec.ofNat 10 (cmdField m 6 2),
          slot := BitVec.ofNat 6 (cmdField m 8 1), self := BitVec.ofNat 12 (cmdField m 4 2) })))

/-- SET_EPOCH: only EPOCH of the shadow set is written, and the set committed. -/
def State.cmdSetEpoch (s : State) (m : CmdMsg) : State :=
  s.serve m 0x0011 [(0, 2)] (fun a s =>
    s.checked a [busy (s.host.running.any Running.waits)] (fun s =>
      let epoch := BitVec.ofNat 16 (cmdField m 0 2)
      s.fanJob m a epoch none (fun j => { j with epoch := epoch })))

/-- A crucible's commit point has passed, or will not come: the commands that wait for it. -/
def State.jobAnswered (s : State) (c : Cru) (rejected away : Bool) : State :=
  let b := cruBit c
  let rs := s.host.running.map (fun r =>
    match r.kind with
    | .graph => r
    | .jobSet waiting rej e t =>
      if waiting.getLsbD c.val then
        { r with kind := .jobSet (waiting &&& ~~~b) (if rejected then rej ||| b else rej) e t,
                 unavailable := if away then r.unavailable ||| b else r.unavailable }
      else r)
  let s := { s with host := { s.host with running := rs } }
  rs.foldl State.endJob s

/-- Crucibles that no longer serve are awaited no more (R59). -/
def State.settleJobs (s : State) : State :=
  cruList.foldl (fun s c => if s.unavailable c then s.jobAnswered c false true else s) s

/-- A Fenced module that enters Held has first discarded the work of its unchecked steps, as steps 3 to 6 of R500 do (R508, R511, log 136). -/
def State.fencedHeld (s : State) : State :=
  let t := s.steps
  let s := { s with steps := t.rewind t.oldest 0 }
  let s := cruList.foldl (fun s c => s.drainCrucible (t.updated t.oldest) c) s
  s.rerunPrologue.enterHeld

/-- What the agent's accepted job set does to the module's steps (R448, R508, R511, R516). -/
def State.jobTaken (s : State) (old new : JobSet) : State :=
  let t := s.steps
  let t := if new.active then { t with checkedValid := false, firstOpen := t.firstOpen || decide (t.next ≤ t.oldest.toNat) } else t
  let s := { s with steps := t }
  if t.mode = .fenced then
    if new.active then s.fencedHeld else { s with steps := { t with mode := .idle } }
  else if old.active ∧ new.active ∧ old.epoch ≠ new.epoch then s.epochChanged
  else s

/-- JOB_SET_COMMIT_POINT: every port of the crucible is between packets. -/
def execJobSetCommitPoint (c : Cru) (s : State) : Host.Outcome State Fault Refusal :=
  .next (
    let x := s.crucible c
    if x.live && x.xport.job.commit then
      let taken := x.xport.job.shadow.ok s.power.slotId
      let first := s.agent = some c
      let s := s.putCrucible c (x.jobPoint s.power.slotId)
      let s := if taken ∧ first then s.jobTaken x.xport.job.live x.xport.job.shadow else s
      s.jobAnswered c (!taken) false
    else s)

/-! ### SET_HEALTH_MAP (R285, R305, R448) -/

/-- Offset of the first bad byte of a map: its entries in order, their STATE and TWIN of the values R285 gives (log 171). -/
def mapEntryFault (bs : List Byte) (prev : Option Nat) (i : Nat) : Nat → Option Nat
  | 0 => none
  | n + 1 =>
    let e := 16 + 8 * i
    let m := leField bs e 2
    let b := fun j => bs.getD (e + j) 0
    if decide (m > 4095) || (match prev with | some p => decide (m ≤ p) | none => false) then some e
    else if (b 2).toNat > 2 then some (e + 2)
    else if b 3 ≠ 0 then some (e + 3)
    else if 4096 ≤ leField bs (e + 4) 2 ∧ leField bs (e + 4) 2 ≠ 0xFFFF then some (e + 4)
    else if b 6 ≠ 0 then some (e + 6)
    else if b 7 ≠ 0 then some (e + 7)
    else mapEntryFault bs (some m) (i + 1) n

def mapFault (bs : List Byte) (current : Option HealthMap) : Option Nat :=
  let gen := leField bs 0 4
  let n := leField bs 4 2
  if (match current with | some h => decide (gen ≤ h.gen.toNat) | none => false) then some 0
  else if n < 1 ∨ 4096 < n then some 4
  else (strayByte [(0, 6)] 0 (bs.take 16)).or (mapEntryFault bs none 0 n)

def mapOf (bs : List Byte) : HealthMap :=
  ⟨BitVec.ofNat 32 (leField bs 0 4), (List.range (leField bs 4 2)).map (fun i =>
    let e := 16 + 8 * i
    ⟨leField bs e 2, bs.getD (e + 2) 0, leField bs (e + 4) 2⟩)⟩

/-- Active modules and their twins. -/
def HealthMap.active (h : HealthMap) : List (Nat × Nat) :=
  (h.entries.filter (fun e => e.state == 1)).map (fun e => (e.module_, e.twin))

/-- Steps that have not started are dropped: the module stops at the next step boundary. -/
def Steps.stop (t : Steps) : Steps :=
  { t with queue := (t.queue.filter (fun q => decide (q.first < t.next))).map (fun q => { q with count := min q.count (t.next - q.first) }),
           queuedEnd := t.next, mode := if t.mode = .running ∧ t.next ≤ t.oldest.toNat then .idle else t.mode }

/-- A placement that waits to be acted on is made from the map as it was, and takes the new HEALTH_GEN too (R305). -/
def State.renewNext (s : State) (old new : HealthMap) : State :=
  match s.tundish.next with
  | some (some p, n) =>
    if old.active = new.active ∧ p.healthGen = old.gen then
      { s with tundish := { s.tundish with next := some (some { p with healthGen := new.gen }, n) } }
    else s
  | _ => s

/-- A new map is accepted: one with the same active list and twins leaves the placement as it is; any other stops the module at the
step boundary (R305). -/
def State.takeMap (s : State) (h : HealthMap) : State :=
  let old := s.tundish.health
  let s := { s with tundish := { s.tundish with health := some h } }
  match s.tundish.placement, old with
  | some p, some g =>
    if g.active = h.active ∧ p.healthGen = g.gen then { s with tundish := { s.tundish with placement := some { p with healthGen := h.gen } } }.renewNext g h
    else { s with steps := s.steps.stop }.renewNext g h
  | _, _ => s

def State.cmdSetHealthMap (s : State) (m : CmdMsg) : State :=
  s.serve m 0x0012 [(0, 4), (8, 8), (16, 4)] (fun a s =>
    let win := cmdField m 0 4
    let off := cmdField m 8 8
    let len := cmdField m 16 4
    s.checked a (s.windowChecks win off len 0 8 ++ [bad (decide (len < 16)) 16] ++ s.windowAway win) (fun s =>
      let (bs, s) := s.readWindow win off len
      s.checked a ([bad (decide (len ≠ 16 + 8 * leField bs 4 2)) 16] ++
          (match mapFault bs s.tundish.health with
           | some d => [bad true (0x80000000 + d)]
           | none => [])) (fun s =>
        let h := mapOf bs
        (s.takeMap h).ok a 0 (leBytes 4 h.gen.toNat))))

/-! ### SET_XRACK (R431, R448) -/

def State.cmdSetXrack (s : State) (m : CmdMsg) : State :=
  s.serve m 0x0013 [(0, 2), (2, 2)] (fun a s =>
    s.checked a [bad (decide (4095 < cmdField m 0 2)) 0] (fun s =>
      let away := s.awayMask m
      let on := (selected m).filter (fun c => !s.unavailable c)
      let burst := BitVec.ofNat 16 (cmdField m 2 2)
      let s' := on.foldl (fun s c => s.atCrucible c (fun x =>
        (x.shadowXrack (fun _ => ⟨BitVec.ofNat 12 (cmdField m 0 2), burst⟩)).xrackCommit)) s
      if s.allAway m then s.reply a 8 0 away []
      else if burst.toNat < 5 ∧ !on.isEmpty then s'.reply a 4 ((on.foldl (fun v c => v ||| cruBit c) (0 : BitVec 4)).setWidth 32) away []
      else s'.ok a away []))

/-! ### TAKE_OVER (R505, R512) -/

/-- The health map names `twin` as the twin of `lost`. -/
def State.twinNamed (s : State) (lost twin : Nat) : Bool :=
  match s.tundish.health with
  | some h => h.entries.any (fun e => e.module_ == lost && e.state == 1 && e.twin == twin)
  | none => false

/-- TAKE_OVER. Whether the twin is Held is the twin's to say: a free value (log 30). -/
def State.cmdTakeOver (s : State) (m : CmdMsg) : State :=
  s.serve m 0x0014 [(0, 2), (2, 2)] (fun a s =>
    let lost := cmdField m 0 2
    let twin := cmdField m 2 2
    let (i, s) := s.fresh
    s.checked a [bad (!(s.job.active && s.job.self.toNat == lost)) 0, bad (!(s.twinNamed lost twin && Config.freeBool i)) 2,
        busy s.steps.takeover.isSome] (fun s =>
      ({ s with steps := { s.steps with takeover := some ⟨lost, twin⟩ } }).ok a 0 []))

/-- A unit takes the twin's bytes, and so does its riser (R505 step 2, log 24). -/
def Crucible.takeUnit (x : Crucible) (i u : Nat) : Crucible :=
  let y := x.replaceUnit i u
  { y with riser := { y.riser with units := Store.set unitDefault y.riser.units u .copied } }

def State.takeUnits (s : State) (step : W48) (c : Cru) : State :=
  let s := s.atCrucible c (fun x => x.armRiser step)
  (List.range (s.crucible c).riser.unitTotal).foldl (fun s u =>
    let (i, s) := s.fresh
    s.atCrucible c (fun x => x.takeUnit i u)) s

/-- TAKEOVER_COPY_DONE: the copies and the placement are done, or one of them has failed. The twin's oldest unchecked step is the
twin's: a free value (log 30). -/
def execTakeoverCopyDone (ok : Bool) (s : State) : Host.Outcome State Fault Refusal :=
  .next (
    match s.steps.takeover with
    | none => s
    | some _ =>
      let (i, s) := s.fresh
      let step := BitVec.ofNat 48 (Config.free64 i).toNat
      let s := { s with steps := { s.steps with takeover := none } }
      if ok && s.tundish.placement.isSome then
        let s := cruList.foldl (fun s c => if (s.crucible c).live then s.takeUnits step c else s) s
        let t := s.steps
        ({ s with host := s.host.dropSteps,
                  steps := { t.rewind t.oldest 0 with
                                    oldest := step, next := step.toNat, queuedEnd := step.toNat, queue := [], firstOpen := false,
                                    checked := step - 1, everChecked := decide (step ≠ 0), mode := .held } }).stepStatus 6 step
      else s.stepStatus 7 step)

/-! ### STEP and STOP (R448, R490, R509, R540) -/

/-- FIRST is one the module accepts. -/
def Steps.firstOk (t : Steps) (first : Nat) : Bool :=
  if t.mode = .held then first == t.oldest.toNat || first == t.oldest.toNat + 1
  else match t.firstFixed with
    | some n => first == n
    | none => t.firstOpen || first == t.queuedEnd

/-- STEP commands none of whose steps has started. -/
def Steps.queued (t : Steps) : Nat := (t.queue.filter (fun q => decide (t.next ≤ q.first))).length

/-- The placement accepted last: that of the steps to come. -/
def Tundish.accepted (t : Tundish) : Option Placement :=
  match t.next with
  | some (p, _) => p
  | none => t.placement

/-- The module's placement is one under the current health map, and its shards are sound (R305, R540). -/
def State.placed (s : State) : Bool :=
  match s.tundish.accepted, s.tundish.health with
  | some p, some h => p.healthGen == h.gen && !s.tundish.shardsBad
  | _, _ => false

/-- The regulator section of the body, at job start (R295). -/
def Placement.regulators (p : Placement) : HbmRegs :=
  let put := fun (d : Nat → Byte) (k : Nat) => (List.range 16).foldl (fun m i => Store.set d m i (p.body.getD (128 + 2 * i + k) 0)) []
  ⟨put shareDefault 0, put ceilDefault 1⟩

/-- Every live crucible commits the placement's regulator section (R295). -/
def State.commitRegulators (s : State) : State :=
  match s.tundish.placement with
  | none => s
  | some p => s.eachLive (fun _ x => (x.shadowReg (fun _ => p.regulators)).hbmRegCommit)

/-- The module's first step: it is `first`, the risers are armed for it and the regulators staged. A new job, whose state no restore gave,
starts with m and u at +0 (R269); it gets a run number of its own. -/
def State.openSteps (s : State) (first : Nat) : State :=
  let new := s.steps.firstFixed.isNone
  let (i, s) := s.fresh
  let s := { s with host := s.host.dropSteps,
                    steps := { s.steps.dropPasses with
                                                       oldest := BitVec.ofNat 48 first, next := first, queuedEnd := first, queue := [],
                                                       gen := 0, genNext := 0, children := [], forwarded := [], drained := [],
                                                       firstOpen := false, firstFixed := none, runId := i } }
  match s.tundish.placement with
  | none => s
  | some p =>
    let s := if new && p.training then s.eachLive (fun _ x => x.zeroMoments) else s
    (s.eachLive (fun _ x => x.armRiser (BitVec.ofNat 48 first))).commitRegulators

/-- A Held module starts again, at its oldest unchecked step u or, with u checked, at u + 1. It is a job's start too (R295). -/
def State.leaveHeld (s : State) (first : Nat) : State :=
  let s := if first = s.steps.oldest.toNat then s else s.stepDone
  let s := { s with steps := { s.steps with next := first, queuedEnd := first, queue := [], firstOpen := false, firstFixed := none } }
  (s.eachLive (fun _ x => if x.riser.armed then x else x.armRiser (BitVec.ofNat 48 first))).commitRegulators

/-- A STEP command is queued. -/
def State.queueStep (s : State) (q : StepCmd) : State :=
  let t := s.steps
  { s with steps := { t with queue := t.queue ++ [q], queuedEnd := q.first + q.count,
                             mode := if t.mode = .idle ∨ t.mode = .held then StepMode.running else t.mode } }

def nonFinite (v : W32) : Bool := v.extractLsb' 23 8 == 0xFF

def State.cmdStep (s : State) (m : CmdMsg) : State :=
  s.serve m 0x0040 [(0, 8), (8, 4), (12, 4)] (fun a s =>
    let first := cmdField m 0 8
    let count := cmdField m 8 4
    let eta := BitVec.ofNat 32 (cmdField m 12 4)
    s.checked a [bad (decide (2 ^ 48 - 1 < first + count) || !s.steps.firstOk first) 0, bad (nonFinite eta) 12,
        noJob (!s.job.active), noPlacement (!s.placed),
        busy (s.activating || s.restore.isSome || s.steps.takeover.isSome || decide (4 ≤ s.steps.queued))] (fun s =>
      if count = 0 then s.ok a 0 []
      else
        let s := if s.steps.mode = .held then s.leaveHeld first
                 else if s.steps.firstOpen || s.steps.firstFixed.isSome then s.openSteps first
                 else s
        ({ s with tundish := { s.tundish with stepTaken := true } }.queueStep ⟨first, count, eta⟩).ok a 0 []))

/-- STOP: the steps that have started are the last. -/
def State.cmdStop (s : State) (m : CmdMsg) : State :=
  s.serve m 0x0041 [] (fun a s =>
    ({ s with steps := s.steps.stop }).ok a 0 (leBytes 8 (s.steps.next - 1)))

end Sys2Proof.Machine
end

