-- ==== Sys2Proof/Machine/HostWindows.lean ====
section
/-!
DEFINITION. Windows, rings and control access by host commands (R448, R451–R455, R549); RDMA from the host (R42, R442, R443, R454) and
the entries of output rings (R455).
-/
namespace Sys2Proof.Machine

/-! ### Numbers the module chooses: free, but unused (log 31) -/

/-- The first number at or above `v`, below 2^32, that is not in use. -/
def unusedFrom (used : List Nat) (v : Nat) : Nat → Nat
  | 0 => v
  | n + 1 => if v ∈ used then unusedFrom used ((v + 1) % 2 ^ 32) n else v

def unused (used : List Nat) (i : Nat) : Nat := unusedFrom used (Config.free32 i).toNat used.length

/-- A new window: its id and RKEY. -/
def State.addWindow (s : State) (c : Cru) (access : BitVec 2) (off len : Nat) (ring : Option Nat) : Window × State :=
  let (i, s) := s.fresh
  let (j, s) := s.fresh
  let ws := s.host.windows
  let w : Window := ⟨BitVec.ofNat 32 (unused (ws.map (fun w => w.id.toNat)) i), BitVec.ofNat 32 (unused (ws.map (fun w => w.rkey.toNat)) j),
    c, access, off, len, ring⟩
  (w, { s with host := { s.host with windows := ws ++ [w] } })

/-! ### DEFINE_WINDOW, DELETE_WINDOW (R451, R549) -/

def hostAreaLow : Nat := 0x20000000
def hostAreaHigh : Nat := 0x40000000
/-- The two hang-record slots end the host area (R546). -/
def hangSlots : Nat := 0x3F800000

def State.cmdDefineWindow (s : State) (m : CmdMsg) : State :=
  s.serve m 0x0020 [(0, 1), (1, 1), (8, 8), (16, 8)] (fun a s =>
    let c := cmdField m 0 1
    let access := cmdField m 1 1
    let off := cmdField m 8 8
    let len := cmdField m 16 8
    s.checked a [bad (decide (3 < c)) 0, bad (decide (3 < access)) 1,
        bad (decide (off % pageSize ≠ 0) || decide (off < hostAreaLow) || decide (hostAreaHigh ≤ off) ||
             decide (hostAreaHigh < off + len) ||
             (decide (2 ≤ access) && decide (hangSlots < off + len))) 8,
        bad (decide (len % pageSize ≠ 0) || decide (len < pageSize) || decide (2 ^ 36 < len)) 16,
        noResource (decide (1024 ≤ s.host.windows.length)) 1024] (fun s =>
      let (w, s) := s.addWindow (Fin.ofNat 4 c) (BitVec.ofNat 2 access) off len none
      s.ok a 0 (leBytes 4 w.id.toNat ++ leBytes 4 w.rkey.toNat)))

def State.cmdDeleteWindow (s : State) (m : CmdMsg) : State :=
  s.serve m 0x0021 [(0, 4)] (fun a s =>
    let id := cmdField m 0 4
    s.checked a [bad (s.window id).isNone 0] (fun s =>
      ({ s with host := { s.host with windows := s.host.windows.filter (fun w => w.id.toNat ≠ id) } }).ok a 0 []))

/-! ### DEFINE_RING, RING_CREDIT (R452, R453, R455) -/

def State.ring (s : State) (n : Nat) : Option Ring := s.host.rings.find? (fun r => r.num == n)

def State.modRing (s : State) (n : Nat) (f : Ring → Ring) : State :=
  { s with host := { s.host with rings := s.host.rings.map (fun r => if r.num = n then f r else r) } }

def State.cmdDefineRing (s : State) (m : CmdMsg) : State :=
  s.serve m 0x0022 [(0, 1), (1, 1), (4, 4), (8, 4), (12, 4), (16, 4), (24, 8), (32, 4)] (fun a s =>
    let num := cmdField m 0 1
    let output := cmdField m 1 1 == 1
    let slots := cmdField m 4 4
    let size := cmdField m 8 4
    let per := cmdField m 12 4
    let qpn := cmdField m 16 4
    s.checked a [bad (s.ring num).isSome 0, bad (decide (1 < cmdField m 1 1)) 1, bad (decide (slots < 2) || decide (65536 < slots)) 4,
        bad (decide (size % 64 ≠ 0) || decide (size < 64) || decide (67108864 < size) || decide (8 * 2 ^ 30 < slots * size)) 8,
        bad (decide (slots / 2 < per)) 12, bad ((s.halfAt m.half).qp qpn).isNone 16,
        noResource (!output && decide (1024 ≤ s.host.windows.length)) 1024] (fun s =>
      let r : Ring := ⟨num, output, m.half, slots, size, per, qpn, cmdField m 24 8, BitVec.ofNat 32 (cmdField m 32 4),
        s.steps.next - s.steps.oldest.toNat, 0, 0, [], none⟩
      let s := { s with host := { s.host with rings := s.host.rings ++ [r] } }
      let home := BitVec.ofNat 8 (num % 4)
      if output then s.ok a 0 (List.replicate 8 0 ++ [home])
      else
        let (w, s) := s.addWindow (Fin.ofNat 4 num) 2 0 (slots * size) (some num)
        s.ok a 0 (leBytes 4 w.id.toNat ++ leBytes 4 w.rkey.toNat ++ [home])))

/-- RING_CREDIT: FREED[31:0] extends HOST_FREED. -/
def State.cmdRingCredit (s : State) (m : CmdMsg) : State :=
  s.serve m 0x0023 [(0, 1), (4, 4)] (fun a s =>
    let num := cmdField m 0 1
    match s.ring num with
    | none => s.checked a [bad true 0] id
    | some r =>
      let up := (BitVec.ofNat 32 (cmdField m 4 4) - BitVec.ofNat 32 r.freed).toNat
      s.checked a [bad (!r.output) 0, bad (decide (2 ^ 31 ≤ up)) 4] (fun s =>
        (s.modRing num (fun r => { r with freed := r.freed + up })).ok a 0 []))

/-! ### CTRL_READ, CTRL_WRITE (R52–R59, R448) -/

def ctrlSpaceOf (sp c : Nat) : CtrlSpace := if sp = 2 then .crucible (Fin.ofNat 4 c) else .portDie (Fin.ofNat 4 c)

def ctrlChecks (m : CmdMsg) : List Check :=
  let sp := cmdField m 0 1
  [bad (sp != 2 && sp != 3) 0, bad (decide (3 < cmdField m 1 1)) 1, bad (decide (256 < cmdField m 2 2)) 2]

/-- The response to a control access: an unavailable crucible is reported (R59). -/
def State.ctrlAnswer (s : State) (a : AnswerTo) (away : Bool) (c : Nat) (body : List Byte) : State :=
  if away then s.reply a 8 0 (cruBit (Fin.ofNat 4 c)) body else s.ok a 0 body

/-- `n` words read one after another. -/
def State.ctrlReads (s : State) (v : Accessor) (sp : CtrlSpace) (off : Nat) : Nat → List Byte × State
  | 0 => ([], s)
  | n + 1 =>
    let (w, s) := if off < 0x1000000 then s.ctrlReadWord v sp off else (0, s)
    let (bs, s) := State.ctrlReads s v sp (off + 4) n
    (leBytes 4 w.toNat ++ bs, s)

def State.ctrlWrites (s : State) (v : Accessor) (sp : CtrlSpace) (off : Nat) (bs : List Byte) : Nat → State
  | 0 => s
  | n + 1 =>
    let s := if off < 0x1000000 then s.ctrlWriteWord v sp off (BitVec.ofNat 32 (leField bs 0 4)) else s
    State.ctrlWrites s v sp (off + 4) (bs.drop 4) n

/-- The control access names a crucible that does not answer, and asks for work. -/
def State.ctrlAway (s : State) (m : CmdMsg) : Bool :=
  cmdField m 0 1 == 2 && s.unavailable (Fin.ofNat 4 (cmdField m 1 1)) && cmdField m 2 2 != 0

def State.cmdCtrlRead (s : State) (m : CmdMsg) : State :=
  s.serve m 0x0060 [(0, 1), (1, 1), (2, 2), (4, 4)] (fun a s =>
    s.checked a (ctrlChecks m) (fun s =>
      let (bs, s) := s.ctrlReads (accessorOf m.half) (ctrlSpaceOf (cmdField m 0 1) (cmdField m 1 1)) (cmdField m 4 4) (cmdField m 2 2)
      s.ctrlAnswer a (s.ctrlAway m) (cmdField m 1 1) bs))

def State.cmdCtrlWrite (s : State) (m : CmdMsg) : State :=
  s.serve m 0x0061 [(0, 1), (1, 1), (2, 2), (4, 4), (8, 4 * cmdField m 2 2)] (fun a s =>
    s.checked a (ctrlChecks m) (fun s =>
      let away := s.ctrlAway m
      let s := s.ctrlWrites (accessorOf m.half) (ctrlSpaceOf (cmdField m 0 1) (cmdField m 1 1)) (cmdField m 4 4) (m.body.drop 8)
        (cmdField m 2 2)
      s.ctrlAnswer a away (cmdField m 1 1) []))

/-! ### RDMA from the host (R442, R443, R454) -/

def State.rdmaAnswer (s : State) (h : HalfIx) (q : Nat) (r : RdmaReply) : State := s.sendEth h (.rdmaReply q r)

/-- A message of `n` bytes arrives on a queue pair that works; one marked CE is answered with a CNP. -/
def State.onQp (s : State) (f : Frame) (q n : Nat) (g : Qp → State → State) : State :=
  s.onFrames f (frames ((s.halfAt f.half).mtu q) n) (fun s =>
    match (s.halfAt f.half).qp q with
    | some v => if v.error then s else g v (s.congested f.half q f.ce)
    | none => s)

/-- The error state of a queue pair that serves no storage target. -/
def State.breakQp (s : State) (h : HalfIx) (q : Nat) : State :=
  s.modHalf h (fun v =>
    let v := v.modQp q (fun p => { p with error := true })
    if v.eventQp = some q then { v with eventQp := none } else v)

/-- RDMA READ responses of a queue pair that wait (R438). -/
def Half.readsWaiting (h : Half) (q : Nat) : Nat :=
  (h.waits.filter (fun o => match o.msg with
    | .rdmaReply n (.data _) => n == q
    | _ => false)).length

/-- How an RDMA access of `n` bytes is met: a NAK, or the window it may use and the HBM offset it starts at. -/
def State.rdmaGate (s : State) (h : HalfIx) (rkey : W32) (off n : Nat) (right : Nat) : RdmaReply ⊕ (Window × Nat) :=
  if !s.engineUp h then .inl .rnrNak
  else if 2 ^ 31 < n then .inl .invalidRequestNak
  else match s.host.windows.find? (fun w => w.rkey == rkey) with
  | none => .inl .remoteAccessNak
  | some w =>
    if decide (w.len < off + n) || !w.access.getLsbD right then .inl .remoteAccessNak
    else
      let x := s.crucible w.cru
      if x.service = .outOfService then .inl .remoteOpNak
      else if !x.stores ∨ s.power.mode ≠ .on then .inl .rnrNak
      else match w.ring with
        | none => .inr (w, w.off + off)
        | some r =>
          match s.ring r with
          | some v =>
            match v.base with
            | some b => .inr (w, b + off)
            | none => .inl .rnrNak
          | none => .inl .rnrNak

/-- A refused access is counted when it breaks R442; an invalid request puts the queue pair into the error state (R442, log 153). -/
def State.refuse (s : State) (h : HalfIx) (q : Nat) (r : RdmaReply) : State :=
  let s := (s.modHalf h (fun v => if r = .remoteAccessNak then v.ethBump 6 else v)).rdmaAnswer h q r
  if r = .invalidRequestNak then s.breakQp h q else s

/-- Data enters a crucible's HBM by the port-die link. -/
def State.rdmaInto (s : State) (f : Frame) (r : RdmaReq) (done : State → Window → State) : State :=
  let h := f.half
  s.onQp f r.qp r.data.length (fun _ s =>
    match s.rdmaGate h r.rkey r.offset r.data.length 1 with
    | .inl n => s.refuse h r.qp n
    | .inr (w, a) => (done (s.atCrucible w.cru (fun x => x.hbmWrite .portDie a r.data none)) w).rdmaAnswer h r.qp .ack)

/-- RDMA_WRITE. -/
def execRdmaWrite (f : Frame) (r : RdmaReq) (s : State) : Host.Outcome State Fault Refusal := .next (s.rdmaInto f r (fun s _ => s))

/-- The only sequence from FREED to FREED + SLOTS − 1 whose low 24 bits are `v`. -/
def Ring.extend (r : Ring) (v : Nat) : Option Nat :=
  let s := r.freed + (v + 2 ^ 24 - r.freed % 2 ^ 24) % 2 ^ 24
  if s < r.freed + r.slots then some s else none

/-- An announcement: a sequence of the ring whose window was written, or an immediate that is discarded and counted. -/
def State.announce (s : State) (h : HalfIx) (w : Window) (imm : W32) : State :=
  let num := imm.toNat / 2 ^ 24
  let drop := s.modHalf h (fun v => v.ethBump 7)
  match s.ring num with
  | none => drop
  | some r =>
    if w.ring ≠ some num ∨ r.output then drop
    else match r.extend (imm.toNat % 2 ^ 24) with
      | none => drop
      | some q => s.modRing num (fun r => if q ∈ r.seqs then r else { r with seqs := r.seqs ++ [q] })

/-- RDMA_WRITE_WITH_IMMEDIATE. -/
def execRdmaWriteWithImmediate (f : Frame) (r : RdmaReq) (imm : W32) (s : State) : Host.Outcome State Fault Refusal :=
  .next (s.rdmaInto f r (fun s w => s.announce f.half w imm))

/-- RDMA_READ, at most 16 of a queue pair outstanding (R440). -/
def execRdmaRead (f : Frame) (r : RdmaReq) (length : Nat) (s : State) : Host.Outcome State Fault Refusal :=
  let h := f.half
  .next (s.onQp f r.qp 0 (fun _ s =>
    if 16 ≤ (s.halfAt h).readsWaiting r.qp then s.refuse h r.qp .invalidRequestNak
    else match s.rdmaGate h r.rkey r.offset length 0 with
      | .inl n => s.refuse h r.qp n
      | .inr (w, a) =>
        let (bs, x) := (s.crucible w.cru).hbmRead .portDie a length none
        (s.putCrucible w.cru x).rdmaAnswer h r.qp (.data bs)))

/-- DATA_QP_SEND: a data queue pair posts no receive buffers. -/
def execDataQpSend (f : Frame) (qp : Nat) (s : State) : Host.Outcome State Fault Refusal :=
  .next (s.onQp f qp 0 (fun v s => if v.kind = .data then s.refuse f.half qp .invalidRequestNak else s))

/-- SEND_WITHOUT_RECEIVE_BUFFER: a 17th command meets an RNR NAK, and nothing is kept of it (R444). -/
def execSendWithoutReceiveBuffer (f : Frame) (qp : Nat) (s : State) : Host.Outcome State Fault Refusal :=
  .next (s.onQp f qp 0 (fun v s => if v.kind = .command ∧ 16 ≤ s.outstanding f.half qp then s.rdmaAnswer f.half qp .rnrNak else s))

/-! ### Output rings (R455) -/

/-- OUTPUT_ENTRY_SEND: the oldest entry of a checked step goes to the host, within its credit. -/
def execOutputEntrySend (ring : Fin 256) (s : State) : Host.Outcome State Fault Refusal :=
  .next (
    match s.ring ring.val with
    | none => s
    | some r =>
      match r.seqs, r.base, (s.halfAt r.half).qp r.qpn with
      | q :: rest, some b, some v =>
        let c : Cru := Fin.ofNat 4 r.num
        if r.output && decide (q < r.freed + r.slots) && s.steps.mode != .fenced && s.hears r.half && s.engineUp r.half && !v.error &&
            (s.crucible c).live && s.power.mode == .on then
          let o := (q % r.slots) * r.slotBytes
          let (bs, x) := (s.crucible c).hbmRead .portDie (b + o) r.slotBytes none
          let s := (s.putCrucible c x).modRing r.num (fun r => { r with seqs := rest })
          s.sendEth r.half (.ringEntry r.qpn (r.remote + o) r.rkey (BitVec.ofNat 32 (r.num * 2 ^ 24 + q % 2 ^ 24)) bs)
        else s
      | _, _, _ => s)

end Sys2Proof.Machine
end

