-- ==== Sys2Proof/Machine/GraphOps.lean ====
section
/-!
DEFINITION. Graph bodies: their checks and the part of a placement that the rules fix (spec/08).
-/
namespace Sys2Proof.Machine

/-! ### Records of a body (R278–R283) -/

abbrev Body := List Byte

def Body.nTensors (b : Body) : Nat := leField b 16 4
def Body.nOps (b : Body) : Nat := leField b 20 4
def Body.nKeep (b : Body) : Nat := leField b 24 4
def Body.nHints (b : Body) : Nat := leField b 28 4
def Body.stages (b : Body) : Nat := leField b 32 2
def Body.replicas (b : Body) : Nat := leField b 34 2
def Body.training (b : Body) : Bool := leField b 39 1 == 1

def tensorAt (i : Nat) : Nat := 160 + 32 * i
def Body.opAt (b : Body) (j : Nat) : Nat := tensorAt b.nTensors + 64 * j
def Body.keepAt (b : Body) (i : Nat) : Nat := b.opAt b.nOps + 4 * i
def Body.hintAt (b : Body) (i : Nat) : Nat := b.keepAt b.nKeep + 16 * i

/-- A tensor record. -/
structure TensorRec where
  format : Nat
  kind : Nat
  rank : Nat
  dims : List Nat
  source : Nat
  deriving DecidableEq, Repr

def Body.tensor (b : Body) (i : Nat) : TensorRec :=
  let o := tensorAt i
  ⟨leField b o 1, leField b (o + 1) 1, leField b (o + 2) 1, (List.range 4).map (fun k => leField b (o + 4 + 4 * k) 4), leField b (o + 20) 4⟩

def TensorRec.shape (t : TensorRec) : List Nat := t.dims.take t.rank
def TensorRec.cols (t : TensorRec) : Nat := t.dims.getD (t.rank - 1) 0
def TensorRec.rows (t : TensorRec) : Nat := (t.dims.take (t.rank - 1)).foldl (· * ·) 1
/-- Element size in bits (R78). -/
def TensorRec.bits (t : TensorRec) : Nat :=
  if t.format = 3 ∨ t.format = 4 then 4 else if t.format = 5 ∨ t.format = 6 then 16 else if t.format = 7 then 32 else 8

/-- An operator record. -/
structure OpRec where
  code : Nat
  nIn : Nat
  nOut : Nat
  flags : Nat
  ins : List Nat
  outs : List Nat
  params : List Byte
  deriving DecidableEq, Repr

def unusedSlot : Nat := 0xFFFFFFFF

def Body.op (b : Body) (j : Nat) : OpRec :=
  let o := b.opAt j
  ⟨leField b o 2, leField b (o + 2) 1, leField b (o + 3) 1, leField b (o + 4) 4, (List.range 6).map (fun k => leField b (o + 8 + 4 * k) 4),
   (List.range 2).map (fun k => leField b (o + 32 + 4 * k) 4), (b.drop (o + 40)).take 24⟩

def OpRec.used (p : OpRec) : List Nat := (p.ins.take p.nIn).filter (· ≠ unusedSlot)
def OpRec.made (p : OpRec) : List Nat := p.outs.take p.nOut

def Body.hint (b : Body) (i : Nat) : Hint :=
  let o := b.hintAt i
  ⟨leField b o 1, leField b (o + 1) 1, leField b (o + 4) 4, leField b (o + 8) 4, leField b (o + 12) 4⟩

/-! ### The causes of R284 that the body alone shows -/

/-- The first index below `n` for which `f` holds. -/
def firstIx (n : Nat) (f : Nat → Bool) : Option Nat := (List.range n).find? f

/-- Codes of rows 0x0001 to 0x0030, with N_IN at least and at most, N_OUT, and the listed bytes of PARAMS. -/
def opTable : List (Nat × Nat × Nat × Nat × Fields) :=
  [(0x0001, 2, 2, 1, []), (0x0002, 2, 2, 1, []), (0x0003, 2, 2, 1, []), (0x0004, 2, 2, 1, []), (0x0005, 1, 1, 1, []),
   (0x0010, 1, 1, 1, [(0, 4)]), (0x0011, 1, 3, 1, [(0, 4)]), (0x0012, 1, 2, 1, [(0, 4)]), (0x0020, 3, 3, 1, [(0, 24)]),
   (0x0030, 2, 2, 1, [])]

def opRow (code : Nat) : Option (Nat × Nat × Nat × Fields) := (opTable.find? (fun r => r.1 == code)).map (·.2)

/-- KIND of a hint, VALUE1 unless it names a module, and bytes 2 and 3. -/
def Body.hintBad (b : Body) (i : Nat) : Bool :=
  let h := b.hint i
  decide (h.kind < 1) || decide (5 < h.kind) || leField b (b.hintAt i + 2) 2 != 0 || (h.v1 != 0 && !(h.kind == 1 && h.v0 == 2)) ||
    ((h.kind == 3 || h.kind == 4) && h.target != 0)

/-- A non-zero reserved field of a record: its index. PARAMS of a user kernel are its own: any bytes are accepted (log 161, DESIGN CHOICE). -/
def Body.reservedBad (b : Body) : Option Nat :=
  if leField b 6 2 ≠ 0 ∨ leField b 56 40 ≠ 0 then some 0
  else
    (firstIx b.nTensors (fun i =>
      let t := b.tensor i
      leField b (tensorAt i + 3) 1 != 0 || leField b (tensorAt i + 24) 8 != 0 || (t.kind != 0 && t.kind != 4 && t.source != 0))).or <|
    (firstIx b.nOps (fun j =>
      let p := b.op j
      decide (1 < p.flags) || (match opRow p.code with
        | some (_, _, _, fs) => (strayByte fs 0 p.params).isSome
        | none => false))).or <|
    firstIx b.nHints b.hintBad

/-- FORMAT. `len` is LENGTH of the command. -/
def Body.formatBad (b : Body) (len : Nat) (version : W32) : Option Nat :=
  let n := leField b 0 4
  if n ≠ len ∨ n ≠ b.hintAt b.nHints ∨ n < 256 ∨ 67108864 < n ∨ leField b 4 2 ≠ 1 ∨ leField b 8 4 ≠ version.toNat ∨
      sha256 (b.take 96 ++ b.drop 128) ≠ (b.drop 96).take 32 then some 0
  else b.reservedBad

/-- FP32 positive, finite and normal. -/
def positiveNormal (v : Nat) : Bool := decide (0x00800000 ≤ v) && decide (v < 0x7F800000)
/-- FP32 finite and not negative. -0 is taken as not negative (log 121, DEDUCED). -/
def finiteNonNegative (v : Nat) : Bool := decide (v < 0x7F800000) || v == 0x80000000

/-- The parameters of stream attention (R235, R282), and RING = G. -/
def attentionBad (p : List Byte) (g : Nat) : Bool :=
  let f := leField p
  let t := f 0 4
  decide (10485760 < t) || decide (2 ^ 24 < f 4 4 + t) || decide (f 8 4 < 1) || decide (2 ^ 24 < f 8 4) ||
    !positiveNormal (f 12 4) || decide (f 16 2 < 1) || decide (256 < f 16 2) || (f 18 1 != 64 && f 18 1 != 128) ||
    (f 19 1 != 5 && f 19 1 != 1) || (f 20 1 != 5 && f 20 1 != 7) || decide (2 < f 21 1) ||
    (f 22 1 != 0 && f 22 1 != 1 && f 22 1 != 0xFF) || decide (f 23 1 < 1) || decide (64 < f 23 1) || f 23 1 != g

/-- A parameter of an operator outside its range. -/
def OpRec.limitBad (p : OpRec) (g : Nat) : Bool :=
  decide (6 < p.nIn) || decide (2 < p.nOut) ||
    (p.code == 0x0010 && !positiveNormal (leField p.params 0 4)) ||
    ((p.code == 0x0011 || p.code == 0x0012) && !finiteNonNegative (leField p.params 0 4)) ||
    (p.code == 0x0020 && attentionBad p.params g)

/-- A hint's values outside their ranges. -/
def Body.hintLimit (b : Body) (h : Hint) : Bool :=
  decide (1 < h.binding) || (h.kind == 1 && (decide (b.nTensors ≤ h.target) || decide (2 < h.v0) || (h.v0 == 2 && decide (4096 ≤ h.v1)))) ||
    (h.kind == 2 && (decide (b.nOps ≤ h.target) || decide (b.stages ≤ h.v0))) || (h.kind == 3 && decide (1 < h.v0)) ||
    (h.kind == 4 && (decide (h.v0 < 16) || decide (480 < h.v0) || h.v0 % 16 != 0)) ||
    (h.kind == 5 && (decide (b.nOps ≤ h.target) || (b.op h.target).code != 0x20 || decide (1 < h.v0)))

/-- A ring that a tensor names is defined, and of the right direction (R452, log 33). -/
def TensorRec.ringBad (t : TensorRec) (rings : List Ring) : Bool :=
  (t.kind == 0 || t.kind == 4) && !rings.any (fun r => r.num == t.source && r.output == (t.kind == 4))

/-- LIMIT. -/
def Body.limitBad (b : Body) (g : Nat) (rings : List Ring) : Option Nat :=
  if b.nTensors < 1 ∨ 1048576 < b.nTensors ∨ b.nOps < 1 ∨ 262144 < b.nOps ∨ b.nTensors < b.nKeep ∨ 65536 < b.nHints ∨ b.stages < 1 ∨
      256 < b.stages ∨ b.replicas < 1 ∨ 4096 < b.replicas ∨ 4096 < leField b 36 2 ∨ 2 < leField b 38 1 ∨ 1 < leField b 39 1 ∨
      b.nOps < b.stages then some 0
  else
    (firstIx b.nTensors (fun i => (b.tensor i).dims.any (fun d => decide (2 ^ 31 < d)) || (b.tensor i).ringBad rings)).or <|
    (firstIx b.nOps (fun j => (b.op j).limitBad g)).or <|
    firstIx b.nHints (fun i => b.hintLimit (b.hint i))

/-- A tensor record that breaks R279. -/
def TensorRec.bad (t : TensorRec) : Bool :=
  decide (7 < t.format) || decide (4 < t.kind) || decide (t.rank < 1) || decide (4 < t.rank) || (t.dims.drop t.rank).any (· ≠ 0)

/-- The shapes of an operator's tensors match (R281). Their formats are not compared with FMT and OUT: the spec names no cause for that
(log 122, DESIGN CHOICE). -/
def OpRec.shapeOk (p : OpRec) (t : Nat → TensorRec) : Bool :=
  let i := fun k => t (p.ins.getD k 0)
  let y := t (p.outs.getD 0 0)
  let vec := fun (k : Nat) => p.ins.getD k unusedSlot == unusedSlot || ((i k).rows == 1 && (i k).cols == (i 0).cols)
  if p.code = 1 ∨ p.code = 2 then
    (i 1).rank == 2 && (i 0).cols == (i 1).rows && y.rows == (i 0).rows && y.cols == (i 1).cols
  else if p.code = 3 ∨ p.code = 4 then (i 0).shape == (i 1).shape && (i 0).shape == y.shape
  else if p.code = 5 ∨ p.code = 0x10 then (i 0).shape == y.shape
  else if p.code = 0x11 ∨ p.code = 0x12 then (i 0).shape == y.shape && vec 1 && vec 2
  else if p.code = 0x20 then
    let w := leField p.params 16 2 * leField p.params 18 1
    [i 0, i 1, i 2, y].all (fun v => v.rows == leField p.params 0 4 && v.cols == w)
  else if p.code = 0x30 then (i 0).shape == (i 1).shape && y.rows * y.cols == 1 && y.format == 7
  else true

/-- Every tensor an operator names exists. -/
def OpRec.namesOk (p : OpRec) (n : Nat) : Bool := (p.used ++ p.made).all (fun i => decide (i < n))

/-- TENSOR. -/
def Body.tensorBad (b : Body) : Option Nat :=
  (firstIx b.nTensors (fun i => (b.tensor i).bad)).or <|
  firstIx b.nOps (fun j => (b.op j).namesOk b.nTensors && !(b.op j).shapeOk b.tensor)

/-- An operator record that breaks R280 and R281, given the tensors produced before it. -/
def OpRec.bad (p : OpRec) (n : Nat) (t : Nat → TensorRec) (made : List Nat) : Bool :=
  let counts := match opRow p.code with
    | some (lo, hi, out, _) => decide (lo ≤ p.nIn) && decide (p.nIn ≤ hi) && p.nOut == out
    | none => decide (0x8000 ≤ p.code)
  let slots := (p.ins.drop p.nIn).all (· == unusedSlot) && (p.outs.drop p.nOut).all (· == unusedSlot) &&
    (p.ins.take p.nIn).zipIdx.all (fun (v, k) => v != unusedSlot || ((p.code == 0x11 || p.code == 0x12) && k != 0))
  let inputs := p.used.all (fun i => decide ((t i).kind ≤ 2) || decide (i ∈ made))
  let outputs := p.made.all (fun i => ((t i).kind == 3 || (t i).kind == 4) && !decide (i ∈ made)) && decide p.made.Nodup
  let weight := fun (k : Nat) => (t (p.ins.getD k 0)).kind == 1 || (t (p.ins.getD k 0)).kind == 2
  let kinds := (p.code != 1 || weight 1) && (p.code != 2 || (!weight 0 && !weight 1))
  !(counts && slots && p.namesOk n && inputs && outputs && kinds)

/-- The first operator that breaks its rules, or the first tensor of KIND 3 or 4 never produced. -/
def Body.opsBad (b : Body) (made : List Nat) (j : Nat) : Nat → Option Nat
  | 0 => firstIx b.nTensors (fun i => ((b.tensor i).kind == 3 || (b.tensor i).kind == 4) && !decide (i ∈ made))
  | n + 1 => if (b.op j).bad b.nTensors b.tensor made then some j else Body.opsBad b (made ++ (b.op j).made) (j + 1) n

/-- KEEP. -/
def Body.keepBad (b : Body) : Option Nat :=
  let k := fun i => leField b (b.keepAt i) 4
  firstIx b.nKeep (fun i => decide (b.nTensors ≤ k i) || (decide (0 < i) && decide (k i ≤ k (i - 1))) ||
    !((b.tensor (k i)).kind == 3 || (b.tensor (k i)).kind == 4))

/-- HINT_CONFLICT: the later of two binding hints that disagree. -/
def Body.conflict (b : Body) : Option Nat :=
  firstIx b.nHints (fun i => (b.hint i).binding == 1 && (List.range i).any (fun j =>
    let p := b.hint i
    let q := b.hint j
    q.binding == 1 && q.kind == p.kind && q.target == p.target && (q.v0 != p.v0 || q.v1 != p.v1)))

/-! ### The shape of the job (R286) -/

/-- Stage and member of the module at position i of the active list. -/
def roleAt (s g i : Nat) : Nat × Nat := (i % (s * g) / g, i % g)

def groupSize (n s r : Nat) : Nat := if s * r = 0 then 0 else n / (s * r)

/-- A module of the map that breaks R286. -/
def twinBad (act : List (Nat × Nat)) (s g i : Nat) : Bool :=
  match act[i]? with
  | none => false
  | some (m, t) =>
    match act.findIdx? (fun e => e.1 == t) with
    | none => true
    | some j => t == m || (act.getD j (0, 0)).2 != m || roleAt s g i == roleAt s g j

/-- HEALTH: the map's fault, by module. -/
def Body.healthBad (b : Body) (map : Option HealthMap) : Option Nat :=
  match map with
  | none => some 0
  | some h =>
    let act := h.active
    let s := b.stages
    let r := b.replicas
    if leField b 12 4 ≠ h.gen.toNat ∨ act.isEmpty ∨ act.length % (s * r) ≠ 0 then some 0
    else if b.training then
      (firstIx act.length (twinBad act s (groupSize act.length s r))).map (fun i => (act.getD i (0, 0)).1)
    else none

/-- KERNEL. -/
def Body.kernelBad (b : Body) (ks : List Kernel) : Option Nat :=
  firstIx b.nOps (fun j =>
    let p := b.op j
    decide (0x8000 ≤ p.code) &&
      (match ks.find? (fun k => k.code.toNat == p.code) with
       | none => true
       | some k => b.training && p.flags % 2 == 0 && !ks.any (fun q => q.code == k.backward && decide (0x8000 ≤ q.code.toNat))))

/-- The rules of R324, over the 32-byte section. -/
def regulatorsBad (p : List Byte) : Bool :=
  let share := fun i => (p.getD (2 * i) 0).toNat
  let ceil := fun i => (p.getD (2 * i + 1) 0).toNat
  (List.range 16).any (fun i => decide (ceil i < share i)) || decide (230 < ((List.range 16).map share).sum) || ceil 0 == 0

/-- A cause with its DETAIL. -/
def causeOf (code : Byte) (d : Option Nat) : Option (Byte × Nat) := d.map (fun n => (code, n))

/-- The first cause of R284 that the body, the map and the registrations alone show. -/
def State.bodyCause (s : State) (b : Body) (len : Nat) (version : W32) : Option (Byte × Nat) :=
  let n := match s.tundish.health with
    | some h => h.active.length
    | none => 0
  let g := groupSize n b.stages b.replicas
  (causeOf 0x01 (b.formatBad len version)).or <| (causeOf 0x02 (b.limitBad g s.host.rings)).or <| (causeOf 0x03 b.tensorBad).or <|
  (causeOf 0x04 (b.opsBad [] 0 b.nOps)).or <| (causeOf 0x05 b.keepBad).or <| (causeOf 0x06 b.conflict).or <|
  (causeOf 0x08 (b.healthBad s.tundish.health)).or <| (causeOf 0x0B (b.kernelBad s.tundish.kernels)).or <|
  causeOf 0x0C (if regulatorsBad ((b.drop 128).take 32) then some 0 else none)

/-! ### What the rules fix of a placement (R287, R289, R290, R292) -/

/-- Operators of a stage. -/
def stageOps (starts : List Nat) (nOps stage : Nat) : List Nat :=
  let lo := starts.getD stage 0
  let hi := starts.getD (stage + 1) nOps
  (List.range (hi - lo)).map (lo + ·)

/-- Tensors of a KIND used in a stage, in increasing index. -/
def Body.stageTensors (b : Body) (starts : List Nat) (stage kind : Nat) : List Nat :=
  let used := ((stageOps starts b.nOps stage).map (fun j => (b.op j).used)).flatten
  (List.range b.nTensors).filter (fun i => (b.tensor i).kind == kind && decide (i ∈ used))

/-- First column and columns that member k of g holds (R287). -/
def memberCols (cols g k : Nat) : Nat × Nat :=
  let c := (cols + 63) / 64
  let lo := min cols (64 * (c * k / g))
  (lo, min cols (64 * (c * (k + 1) / g)) - lo)

/-- Parameter groups of a member's part of a tensor (R289). -/
def TensorRec.groups (t : TensorRec) (g k : Nat) : Nat := (t.rows * (memberCols t.cols g k).2 + 16383) / 16384

/-- 64 KiB units of a member's part of a frozen tensor (R527). -/
def TensorRec.frozenUnits (t : TensorRec) (g k : Nat) : Nat :=
  ((t.rows * (memberCols t.cols g k).2 * t.bits + 7) / 8 + 65535) / 65536

def Body.shardGroups (b : Body) (starts : List Nat) (g stage member : Nat) : Nat :=
  ((b.stageTensors starts stage 1).map (fun i => (b.tensor i).groups g member)).sum

/-- The frozen tensors that region 4 holds for a stage: none in a forward-only job, whose regions 2 to 5 are empty (R292). -/
def Body.frozenTensors (b : Body) (starts : List Nat) (stage : Nat) : List Nat := if b.training then b.stageTensors starts stage 2 else []

def Body.frozenUnits (b : Body) (starts : List Nat) (g stage member : Nat) : Nat :=
  ((b.frozenTensors starts stage).map (fun i => (b.tensor i).frozenUnits g member)).sum

/-- Crucible c's part of `n` things (R289): the first one and how many. -/
def quarter (n c : Nat) : Nat × Nat := (n * c / 4, n * (c + 1) / 4 - n * c / 4)

def quarters (n : Nat) : List Nat := (List.range 4).map (fun c => (quarter n c).2)

/-- Start of region 4 of a crucible. -/
def Riser.region4 (r : Riser) : Nat := toPage (r.region3 + 2 * (r.own + r.twin) * 1024)

end Sys2Proof.Machine
end

