-- ==== Sys2Proof/Machine/Tensor.lean ====
section
/-!
DEFINITION. Tensor instructions (R137–R144): opcodes 0x80 to 0x88, and the steps of the tensor queue: weight load, stream start, row
entry and drain (R155–R172, R651). A weight load goes access by access, a streamed row enters and is written, as its command says.
-/
namespace Sys2Proof.Machine

/-! ### Flags (R137) -/

def flagZero (f : Byte) : Bool := f.getLsbD 7
def flagStats (f : Byte) : Bool := f.getLsbD 6
def flagSr (f : Byte) : Bool := f.getLsbD 5
def flagScale (f : Byte) : Bool := f.getLsbD 4
def flagBscaled (f : Byte) : Bool := f.getLsbD 3
def flagIntrows (f : Byte) : Bool := f.getLsbD 2

/-! ### Issue -/

/-- The starting accumulator row sRROW + ROWOFF, in 64 bits (R137). -/
def startRow (p : PhysCore) (f : FmtQT) : Nat := (p.sreg f.rrow + f.rowoff.setWidth 64).toNat

/-- The weight formats a tld.w may expand (R138, R194). -/
def badAux (d : W128) : Bool :=
  (descFormat d == 3 && (descAuxMode d == 0 || descAuxMode d == 3)) ||
  (descFormat d == 4 && (descAuxMode d == 0 || descAuxMode d == 2))

/-- Bytes of the table or scale records of a 4-bit weight tile (R195, R196). -/
def auxBytes (d : W128) : Nat :=
  if descAuxMode d = 0 then 0 else if descAuxMode d = 1 then 16 else 8 * logicalRows d

def tensorEntry (tb : TallyBlock) (g : LogCore) (p : PhysCore) (f : FmtQT) (opc : Byte) (op : TensorOp) (row loadId : Nat)
    (none_ : Bool) : TensorEntry :=
  { op := op, word := instrWord opc f.bits, seq := BitVec.ofNat 32 p.seq, pc := p.pc, tally := tallyFieldWord tb g f.tally, desc := p.treg f.ta, row := row,
    flags := f.flags, asOff := p.areg f.as, loadId := loadId, phase := if none_ then .complete else .queued,
    rowsDone := 0, rowBuf := [], chain := [] }

/-- DESCRIPTOR with the descriptor's index (R79, R104). -/
def descFault (bad : Bool) (ta : BitVec 5) : Option (Byte × W32) := if bad then some (0x05, ta.setWidth 32) else none

/-- tld.w (R138, R139, R197). One with K or N of 0 makes no access and is complete as it enters (R162, R166). -/
def execTldW (k : CoreId) (f : FmtQT) (s : State) : Host.Outcome State Fault Refusal :=
  let tb := (s.crucible k.cru).tally
  .next (s.issue k 0x80 f.bits fun g p =>
    let d := p.treg f.ta
    let bad := badDesc d || decide (logicalRows d > 32) || decide (logicalCols d > 64)
      || (is4Bit (descFormat d) && descTranspose d) || badAux d
    ⟨decide (f.resv ≠ 0) || decide (f.rrow ≠ 0) || decide (f.rowoff ≠ 0) || decide (f.as ≠ 0) || decide (f.flags ≠ 0)
        || badReg16 f.ta,
     tallyFieldFault tb g f.tally, p.seqNext,
     [descFault bad f.ta,
      if !descEmpty d && decide (descAuxBase d + auxBytes d > 0x100000) then some (0x03, detail32 (descAuxBase d)) else none,
      seqLimit p],
     let e := tensorEntry tb g p f 0x80 .load 0 (p.lastLoad.id + 1) (descEmpty d)
     enterTensor g p e⟩)

/-- The operand formats a tmac accepts for X (R140). -/
def macX (m : MacKind) (f : BitVec 4) : Bool :=
  match m with
  | .i8 => f == 0
  | .f8 => f == 1 || f == 2
  | .bf16 => f == 5
  | .f16 => f == 6
  | .f32 => f == 7

/-- The weight formats and AUX_MODEs a tmac accepts (R140). -/
def macW (m : MacKind) (f : BitVec 4) (aux : BitVec 2) : Bool :=
  match m with
  | .i8 => f == 0 || (f == 3 && (aux == 1 || aux == 2))
  | .f8 => f == 1 || f == 2 || (f == 4 && (aux == 1 || aux == 3)) || (f == 3 && aux == 1)
  | .bf16 => f == 5
  | .f16 => f == 6
  | .f32 => f == 7

/-- A range of accumulator rows out of bounds (R76, R144), with the start row in DETAIL. -/
def accFault (start rows : Nat) : Option (Byte × W32) :=
  if start > 511 ∨ start + rows > 512 then some (0x04, detail32 start) else none

/-- A tmac (R138–R141, R144). One with M, K or N of 0 does no work and is complete as it enters (R125, R166). -/
def issueMac (s : State) (k : CoreId) (op : Byte) (m : MacKind) (f : FmtQT) : State :=
  let tb := (s.crucible k.cru).tally
  s.issue k op f.bits fun g p =>
    let d := p.treg f.ta
    let start := startRow p f
    let none_ := descEmpty d || p.lastLoad.k == 0 || p.lastLoad.n == 0
    let bad := badDesc d || decide (logicalRows d > 512) || decide (logicalCols d ≠ p.lastLoad.k)
      || (is4Bit (descFormat d) && descTranspose d) || !macX m (descFormat d) || !macW m p.lastLoad.format p.lastLoad.aux
    ⟨decide (f.resv ≠ 0) || decide (f.as ≠ 0) || decide (f.flags.extractLsb' 0 7 ≠ 0) || badReg16 f.ta,
     tallyFieldFault tb g f.tally, p.seqNext,
     [descFault bad f.ta, if none_ then none else accFault start (logicalRows d), seqLimit p],
     enterTensor g p (tensorEntry tb g p f op (.mac m) start p.lastLoad.id none_)⟩

def execTmacI8 (k : CoreId) (f : FmtQT) (s : State) : Host.Outcome State Fault Refusal := .next (issueMac s k 0x81 .i8 f)
def execTmacF8 (k : CoreId) (f : FmtQT) (s : State) : Host.Outcome State Fault Refusal := .next (issueMac s k 0x82 .f8 f)
def execTmacBf16 (k : CoreId) (f : FmtQT) (s : State) : Host.Outcome State Fault Refusal := .next (issueMac s k 0x83 .bf16 f)
def execTmacF16 (k : CoreId) (f : FmtQT) (s : State) : Host.Outcome State Fault Refusal := .next (issueMac s k 0x84 .f16 f)
def execTmacF32 (k : CoreId) (f : FmtQT) (s : State) : Host.Outcome State Fault Refusal := .next (issueMac s k 0x85 .f32 f)

/-- Scale bytes of a row: one per block of 32 columns (R143). -/
def scaleBytes (d : W128) : Nat := (descCols d + 31) / 32

/-- Bytes of a drain's AS area (R143). -/
def asBytes (flags : Byte) (d : W128) : Nat :=
  if flagStats flags then 8 * descRows d
  else if flagScale flags || flagBscaled flags then scaleBytes d * descRows d
  else 0

/-- The ILLEGAL conditions of a tdrain (R137, R142, R143), the descriptor's included. -/
def drainIllegal (f : FmtQT) (d : W128) : Bool :=
  let fl := f.flags
  let useAs := flagStats fl || flagScale fl || flagBscaled fl
  decide (f.resv ≠ 0) || flagZero fl || decide (fl.extractLsb' 0 2 ≠ 0) || badReg16 f.ta || badReg16 f.as
    || (flagSr fl && (descFormat d == 7 || (descFormat d == 8 && flagIntrows fl)))
    || (flagStats fl && (flagScale fl || flagBscaled fl)) || (flagScale fl && flagBscaled fl)
    || (useAs && flagIntrows fl) || (decide (f.as ≠ 0) && !useAs)

/-- tdrain (R142–R144). -/
def execTdrain (k : CoreId) (f : FmtQT) (s : State) : Host.Outcome State Fault Refusal :=
  let tb := (s.crucible k.cru).tally
  .next (s.issue k 0x88 f.bits fun g p =>
    let d := p.treg f.ta
    let start := startRow p f
    let none_ := descEmpty d
    let a := (p.areg f.as).toNat
    let useAs := flagStats f.flags || flagScale f.flags || flagBscaled f.flags
    let bad := badDesc d || decide (descRows d > 512) || decide (descCols d > 64) || descTranspose d
      || descFormat d == 3 || descFormat d == 4 || descFormat d == 9
    ⟨drainIllegal f d, tallyFieldFault tb g f.tally, p.seqNext,
     [descFault bad f.ta,
      if useAs && !none_ && (decide (a ≥ 0x100000) || decide (a + asBytes f.flags d > 0x100000)
          || (flagStats f.flags && decide (a % 4 ≠ 0))) then some (0x03, detail32 a) else none,
      if none_ then none else accFault start (descRows d), seqLimit p],
     enterTensor g p (tensorEntry tb g p f 0x88 .drain start p.lastLoad.id none_)⟩)

/-! ### Ranges and order within the queue (R159, R163, R165, R167, R169, R170) -/

def TensorEntry.isLoad (e : TensorEntry) : Bool := e.op == .load
def TensorEntry.isDrain (e : TensorEntry) : Bool := e.op == .drain
def TensorEntry.isMac (e : TensorEntry) : Bool := !e.isLoad && !e.isDrain
/-- Not started, or started and not complete. -/
def TensorEntry.open_ (e : TensorEntry) : Bool := e.phase == .queued || e.phase == .running

/-- Two byte ranges [a, b) and [c, d) share a byte. -/
def overlap (r t : Nat × Nat) : Bool := decide (r.1 < t.2) && decide (t.1 < r.2)

def tileRange (d : W128) : Nat × Nat := if descEmpty d then (0, 0) else (descBase d, descEnd d)

/-- Ranges a load or tmac reads: the tile, and a load's table or scale records. -/
def readRanges (e : TensorEntry) : List (Nat × Nat) :=
  if e.isLoad && !descEmpty e.desc && descAuxMode e.desc != 0 then
    [tileRange e.desc, (descAuxBase e.desc, descAuxBase e.desc + auxBytes e.desc)]
  else [tileRange e.desc]

/-- Ranges a drain writes (R143): no tile under SCALE; the AS area under STATS and SCALE. -/
def drainWrites (e : TensorEntry) : List (Nat × Nat) :=
  (if flagScale e.flags then [] else [tileRange e.desc]) ++
  (if flagStats e.flags || flagScale e.flags then [(e.asOff.toNat, e.asOff.toNat + asBytes e.flags e.desc)] else [])

def rangesMeet (a b : List (Nat × Nat)) : Bool := a.any (fun r => b.any (overlap r))

/-- An earlier drain not yet done writes what `e` reads (R170). -/
def behindDrain (earlier : List TensorEntry) (e : TensorEntry) : Bool :=
  earlier.any (fun d => d.isDrain && d.open_ && rangesMeet (drainWrites d) (readRanges e))

/-- An earlier drain has still to read accumulator row `r` (R165, R651). -/
def rowHeld (earlier : List TensorEntry) (r : Nat) : Bool :=
  earlier.any (fun d => d.isDrain && d.open_ && decide (d.row + d.rowsDone ≤ r) && decide (r < d.row + descRows d.desc))

/-- The first entry that satisfies `q`, with the entries before it and its position. -/
def findEntry (q : TensorEntry → Bool) : List TensorEntry → List TensorEntry → Option (List TensorEntry × TensorEntry)
  | _, [] => none
  | before, e :: rest => if q e then some (before, e) else findEntry q (before ++ [e]) rest

def PhysCore.setTensor (p : PhysCore) (i : Nat) (e : TensorEntry) : PhysCore := { p with tq := listSet p.tq i e }
def PhysCore.dropTensor (p : PhysCore) (i : Nat) : PhysCore := { p with tq := listDrop p.tq i }

/-! ### Weight load (R159, R194–R198) -/

/-- An expanded 4-bit code with its counts, or a code as it is; `aux` is the table, or the scale record of row k. -/
def expandCode (aux : List W32) (m : Memory) (d : W128) (k n : Nat) : Conv :=
  let code := tileAt m d k n
  match (descAuxMode d).toNat with
  | 1 => ⟨(aux.getD code 0).toNat, 0, 0⟩
  | 2 =>
    let q : Int := (BitVec.ofNat 4 code).toInt
    let z : Int := ((aux.getD (2 * (n / 32)) 0).setWidth 8).toInt
    let sc : Int := ((aux.getD (2 * (n / 32) + 1) 0).toNat : Int)
    let v := (q - z) * sc
    if v > 127 then ⟨127, 1, 0⟩ else if v < -128 then ⟨128, 1, 0⟩ else ⟨(BitVec.ofInt 8 v).toNat, 0, 0⟩
  | 3 =>
    let e := aux.getD (n / 32) 0
    if e = 0xFF then ⟨0x7E, 0, 0⟩
    else convert (.flt fmtE5m2) none (fpScale ((e.toNat : Int) - 127) (fpDecode fmtE2m1 code))
  | _ => ⟨code, 0, 0⟩

/-- What one access of a weight load reads (R161): the table, the scale record of a row, a row, or the words of up to 32 stored rows of
a transposed tile that hold `rowGroup` logical rows. The table comes first and a row's record just before its row (log 147). -/
inductive LoadAccess where
  | table
  | scales (k : Nat)
  | row (k : Nat)
  | block (k n : Nat)
  deriving DecidableEq, Repr

/-- Logical rows one access serves: 8 / b under TRANSPOSE, else 1 (R161). -/
def rowGroup (d : W128) : Nat := if descTranspose d then 64 / formatBits (descFormat d) else 1

/-- Access i of a weight load. -/
def loadAccess (d : W128) (i : Nat) : LoadAccess :=
  if descTranspose d then
    let groups := (logicalRows d + rowGroup d - 1) / rowGroup d
    .block (i % groups * rowGroup d) (i / groups * 32)
  else match (descAuxMode d).toNat with
    | 0 => .row i
    | 1 => if i = 0 then .table else .row (i - 1)
    | _ => if i % 2 = 0 then .scales (i / 2) else .row (i / 2)

/-- The accesses of a weight load (R161). -/
def loadAccesses (d : W128) : Nat :=
  if descEmpty d then 0
  else if descTranspose d then (logicalCols d + 31) / 32 * ((logicalRows d + rowGroup d - 1) / rowGroup d)
  else match (descAuxMode d).toNat with
    | 0 => logicalRows d
    | 1 => logicalRows d + 1
    | _ => 2 * logicalRows d

/-- Logical row k of a weight tile, columns a to b − 1. -/
def expandRow (aux : List W32) (m : Memory) (d : W128) (k a b : Nat) : List Conv :=
  (List.range (b - a)).map (fun j => expandCode aux m d k (a + j))

/-- The integer significand of a code in a set's format, or of an operand, which has no table or scales (R465). -/
def codeSignificand (w : BitVec 4) (h : BitVec 2) (code : W32) : Int :=
  match w.toNat, h.toNat with
  | 3, 1 | 4, 1 => significandOf fmtE4m3 code.toNat
  | 4, _ => significandOf fmtE5m2 code.toNat
  | 3, _ | 0, _ => (code.setWidth 8).toInt
  | 1, _ => significandOf fmtE4m3 code.toNat
  | 2, _ => significandOf fmtE5m2 code.toNat
  | 5, _ => significandOf fmtBf16 code.toNat
  | 6, _ => significandOf fmtFp16 code.toNat
  | 7, _ => ((significand32 code).getD 0 : Nat)
  | _, _ => code.toInt

/-- The residue of a cell's code, or of an operand. -/
def residueCode (w : BitVec 4) (h : BitVec 2) (code : W32) : BitVec 3 := mod7 (codeSignificand w h code)

/-- The cells of row k from column n on put into a set, with their residues. -/
def WeightSet.put (w : WeightSet) (k n : Nat) : List Conv → WeightSet
  | [] => w
  | c :: cs =>
    let v := BitVec.ofNat 32 c.code
    WeightSet.put { w with cells := Store.set zero32 w.cells (64 * k + n) v,
                           res := Store.set zero3 w.res (64 * k + n) (residueCode w.format w.aux v) } k (n + 1) cs

def sumSat (cs : List Conv) : Nat := cs.foldl (fun n c => n + c.sat) 0
def sumFlush (cs : List Conv) : Nat := cs.foldl (fun n c => n + c.flush) 0

/-- Bytes as words. -/
def byteWords (bs : List Byte) : List W32 := bs.map (fun (b : Byte) => b.setWidth 32)

/-- Access a of a weight load: the table or record held from now on, the set, and the counts (R161, R194, R210). -/
def loadOne (m : Memory) (d : W128) (a : LoadAccess) (aux : List W32) (w : WeightSet) : List W32 × WeightSet × Nat × Nat :=
  match a with
  | .table => (byteWords (Memory.readBytes m (descAuxBase d) 16), w, 0, 0)
  | .scales k => (byteWords (Memory.readBytes m (descAuxBase d + 8 * k) 8), w, 0, 0)
  | .row k =>
    let r := expandRow aux m d k 0 (logicalCols d)
    (aux, w.put k 0 r, sumSat r, sumFlush r)
  | .block k n =>
    (aux, (List.range (min (rowGroup d) (logicalRows d - k))).foldl
      (fun w i => w.put (k + i) n (expandRow aux m d (k + i) n (min (n + 32) (logicalCols d)))) w, 0, 0)

/-- The bytes an access reads hold no parity error (R468). -/
def PhysCore.loadAgrees (p : PhysCore) (d : W128) (a : LoadAccess) : Bool :=
  let b := formatBits (descFormat d)
  match a with
  | .table => p.parityAgrees (descAuxBase d) 16
  | .scales k => p.parityAgrees (descAuxBase d + 8 * k) 8
  | .row k => p.parityAgrees (descBase d + k * descStride d) (rowBytes (descFormat d) (logicalCols d))
  | .block k n =>
    (List.range (min 32 (logicalCols d - n))).all (fun i =>
      p.parityAgrees (descBase d + (n + i) * descStride d + k * b / 8) (min (rowGroup d) (logicalRows d - k) * b / 8))

/-- The set that stands by while a load fills it: the load's shape, without cells at its first access. -/
def PhysCore.fillStandby (p : PhysCore) (e : TensorEntry) : WeightSet :=
  if e.rowsDone = 0 then
    let sh := loadShapeOf e
    ⟨sh.id, sh.k, sh.n, sh.format, sh.aux, [], []⟩
  else p.standby

/-- `n` further accesses of the load at place i of the queue; a parity error ends them at its access with a mismatch (R468 to R470). -/
def Crucible.loadMore (x : Crucible) (l i : Nat) : Nat → Crucible × Bool
  | 0 => (x, true)
  | n + 1 =>
    let p := x.phys l
    match p.tq[i]? with
    | none => (x, true)
    | some e =>
      let a := loadAccess e.desc e.rowsDone
      if p.loadAgrees e.desc a then
        let (aux, w, sat, flush) := loadOne p.scratch e.desc a (e.rowBuf.headD []) (p.fillStandby e)
        let e' := { e with rowsDone := e.rowsDone + 1, rowBuf := [aux], phase := .running }
        ((x.putPhys l { p.setTensor i e' with standby := w, standbyFull := false }).addCounts l e.seq sat flush).loadMore l i n
      else (x, false)

/-- A check of the tensor entry at place i fails: the first of the step is counted and `redone` stands in the queue; at the second the
operation stops and the core is retired (R469, R470). -/
def Crucible.failTensor (x : Crucible) (l i : Nat) (redone : TensorEntry) (unit : BitVec 4) : Crucible :=
  let p := x.phys l
  if x.firstMismatch l then (x.putPhys l (p.setTensor i redone)).countMismatch l unit 2 redone.seq
  else (x.putPhys l (p.dropTensor i)).retireFault l unit srcTensor redone.pc redone.seq

/-- UNIT of a parity error (R482). -/
def unitParity : BitVec 4 := 5

/-- WEIGHT_LOAD_START: the oldest tld.w not done makes accesses into the standby set: its first once the previous load is done, the
tmac that is to activate the previous set has started, and no earlier drain still writes its range (R159, R170). Another command may
come before the rest, which a further WEIGHT_LOAD_START makes (R161); `failed` is nature's. The set is ready after the last access
(R162, R166). -/
def Crucible.weightLoad (x : Crucible) (l : Nat) (accesses : Option Nat) (failed : Option (BitVec 4)) : Crucible :=
  let p := x.phys l
  match findEntry (fun e => e.isLoad && e.open_) [] p.tq with
  | none => x
  | some (before, e) =>
    let waits := e.phase == .queued &&
      ((p.standbyFull && before.any (fun b => b.isMac && b.phase == .queued && b.loadId == p.standby.id)) || behindDrain before e)
    if x.live && !waits then
      let i := before.length
      let left := loadAccesses e.desc - e.rowsDone
      let (y, agrees) := x.loadMore l i (min left (accesses.getD left))
      match (y.phys l).tq[i]? with
      | none => y
      | some e' =>
        if !agrees then y.failTensor l i e' unitParity
        else if e'.rowsDone < loadAccesses e.desc then
          match failed with
          | some u => y.failTensor l i e' u
          | none => y
        else
          let q := y.phys l
          y.putPhys l { q.setTensor i { e' with phase := .complete, rowBuf := [] } with standby := q.fillStandby e', standbyFull := true }
    else x

def execWeightLoadStart (k : LoadRun) (s : State) : Host.Outcome State Fault Refusal :=
  .next (s.atCrucible k.cru (fun x => x.weightLoad k.core.val k.accesses k.failed))

/-! ### Streaming (R156, R160, R163, R165, R172, R191–R193) -/

/-- TMAC_STREAM_START: the oldest waiting tmac starts once its set is loaded, the tmac before it has entered its rows, its row 0 may
enter and no earlier drain still writes its operand. It activates the set if that stands by (R160). When a fault has dropped the last
tld.w before it loaded (R105) and the core runs again, a tmac is checked against that tld.w and streams with the set that is active: the
spec does not say which set it uses (log 116, DESIGN CHOICE). -/
def Crucible.streamStart (x : Crucible) (l : Nat) : Crucible :=
  let p := x.phys l
  match findEntry (fun e => e.isMac && e.phase == .queued) [] p.tq with
  | none => x
  | some (before, e) =>
    let waits := before.any (fun b => (b.isMac || b.isLoad) && b.open_) || rowHeld before e.row || behindDrain before e
    if x.live && !waits then
      let p' := p.setTensor before.length { e with phase := .running }
      x.putPhys l (if p.standbyFull && p.standby.id == e.loadId then
        { p' with active := p.standby, standby := WeightSet.empty, standbyFull := false } else p')
    else x

def execTmacStreamStart (k : CoreId) (s : State) : Host.Outcome State Fault Refusal :=
  .next (s.atCrucible k.cru (fun x => x.streamStart k.core.val))

/-- Logical row i of X. -/
def operandRow (m : Memory) (d : W128) (i : Nat) : List W32 :=
  (List.range (logicalCols d)).map (fun k => BitVec.ofNat 32 (tileAt m d i k))

/-- The rows that the access of row i reads. -/
def readGroup (m : Memory) (d : W128) (i : Nat) : List (List W32) :=
  (List.range (min (rowGroup d) (logicalRows d - i))).map (fun j => operandRow m d (i + j))

/-- The value of a cell's code for its set (R194). -/
def weightVal (w : WeightSet) (code : W32) : FpVal :=
  match w.format.toNat, w.aux.toNat with
  | 3, 1 => fpDecode fmtE4m3 code.toNat
  | 4, 1 => fpDecode fmtE4m3 code.toNat
  | 4, _ => fpDecode fmtE5m2 code.toNat
  | _, _ => formatVal w.format code.toNat

/-- One stage of an INT32 chain: the sum and whether it reached a limit (R192), which a sum does that would pass it and is held at it; one
that lands on the limit exactly has not (log 164, DESIGN CHOICE). -/
def intStage (r : Int × Bool) (t : Int) : Int × Bool :=
  let v := r.1 + t
  if v > 2147483647 then (2147483647, true) else if v < -2147483648 then (-2147483648, true) else (v, r.2)

/-- The INT32 chain of one output word (R156, R192). Expanded codes are read as INT8 (R194). -/
def intChain (w : WeightSet) (n : Nat) (acc : W32) : Nat → List W32 → Int × Bool → Int × Bool
  | _, [], r => r
  | k, x :: xs, r =>
    intChain w n acc (k + 1) xs
      (intStage r ((x.setWidth 8).toInt * ((Store.get zero32 w.cells (64 * k + n)).setWidth 8).toInt))

/-- The FP32 chain of one output word (R156, R191, R193). -/
def fpChain (kind : MacKind) (xf : BitVec 4) (w : WeightSet) (n : Nat) : Nat → List W32 → W32 → W32
  | _, [], r => r
  | k, x :: xs, r =>
    let a := formatVal xf x.toNat
    let b := weightVal w (Store.get zero32 w.cells (64 * k + n))
    let t := if kind = .f32 then fp32Product a b else fpMul a b
    fpChain kind xf w n (k + 1) xs (fp32Of (fpAdd (fp32 r) t))

/-- Output word n of a streamed row, and what it adds to the saturated count. -/
def chainWord (kind : MacKind) (xf : BitVec 4) (w : WeightSet) (row : List W32) (acc : W32) (n : Nat) : W32 × Nat :=
  if kind = .i8 then
    let r := intChain w n acc 0 row (acc.toInt, false)
    (BitVec.ofInt 32 r.1, if r.2 then 1 else 0)
  else (fpChain kind xf w n 0 row acc, 0)

/-- The words of a streamed row. -/
def chainRow (kind : MacKind) (e : TensorEntry) (p : PhysCore) (row : List W32) (r : Nat) : List (W32 × Nat) :=
  (List.range p.active.n).map (fun n =>
    chainWord kind (descFormat e.desc) p.active row (if flagZero e.flags then 0 else p.accWord r n) n)

/-- The exact significand product of a cell; of tmac.f32 the three partial products that it forms (R193). -/
def cellProduct (kind : MacKind) (sx sw : Int) : Int :=
  if kind = .f32 then
    let hx := sx / 4096
    let hw := sw / 4096
    hx * hw * 2 ^ 24 + (hx * (sw - 4096 * hw) + (sx - 4096 * hx) * hw) * 2 ^ 12
  else sx * sw

/-- What the cell predicts of it, from the residues of its operand and of its weight; of tmac.f32 the sum of the partial products'
residues, each shifted (R466). -/
def cellPredicts (kind : MacKind) (sx sw : Int) (rx rw : BitVec 3) : BitVec 3 :=
  if kind = .f32 then
    let hx := mod7 (sx / 4096)
    let hw := mod7 (sw / 4096)
    let lx := mod7 (rx.toNat - 4096 * hx.toNat)
    let lw := mod7 (rw.toNat - 4096 * hw.toNat)
    residueSum (residueProduct hx hw) (residueSum (residueProduct hx lw) (residueProduct lx hw) 0 0) 24 12
  else residueProduct rx rw

/-- The products of a row against the predictions, with the residues that the set holds beside its cells (R465, R466). -/
def productsAgree (kind : MacKind) (xf : BitVec 4) (w : WeightSet) (row : List W32) : Bool :=
  (row.zipIdx).all (fun e => (List.range w.n).all (fun n =>
    let sx := codeSignificand xf 0 e.1
    let sw := codeSignificand w.format w.aux (Store.get zero32 w.cells (64 * e.2 + n))
    cellPredicts kind sx sw (mod7 sx) (Store.get zero3 w.res (64 * e.2 + n)) == mod7 (cellProduct kind sx sw)))

/-- The first check of a row: its products, and the accumulator row that the chain reads (R466). -/
def PhysCore.rowAgrees (p : PhysCore) (kind : MacKind) (e : TensorEntry) (row : List W32) (r : Nat) : Bool :=
  productsAgree kind (descFormat e.desc) p.active row && (flagZero e.flags || p.accAgrees r p.active.n)

/-- The rows of X that the access of row i reads hold no parity error (R468). -/
def PhysCore.operandAgrees (p : PhysCore) (d : W128) (i : Nat) : Bool :=
  let b := formatBits (descFormat d)
  if descTranspose d then
    (List.range (logicalCols d)).all (fun k =>
      p.parityAgrees (descBase d + k * descStride d + i * b / 8) (min (rowGroup d) (logicalRows d - i) * b / 8))
  else p.parityAgrees (descBase d + i * descStride d) (rowBytes (descFormat d) (logicalCols d))

/-- The row that enters next. -/
def TensorEntry.nextRow (e : TensorEntry) : Nat := e.rowsDone + e.chain.length

/-- The operand rows held once the next row's access, when it needs one, is made (R161, R172). -/
def PhysCore.operands (p : PhysCore) (e : TensorEntry) : List (List W32) :=
  if e.chain.length < e.rowBuf.length then e.rowBuf else e.rowBuf ++ readGroup p.scratch e.desc e.nextRow

/-- The next row of a tmac enters the chain: its operand, when the array does not hold it, and its accumulator row are read (R163,
R164). -/
def PhysCore.enterRow (p : PhysCore) (kind : MacKind) (e : TensorEntry) : TensorEntry :=
  let r := e.row + e.nextRow
  let buf := p.operands e
  { e with rowBuf := buf,
           chain := e.chain ++ [⟨chainRow kind e p (buf.getD e.chain.length []) r, p.rowAgrees kind e (buf.getD e.chain.length []) r⟩] }

/-- UNIT of the accumulator's check bits at a chain read (R482). -/
def unitChain : BitVec 4 := 0
def unitDrain : BitVec 4 := 1

/-- A row of the tmac fails its check: it and every row that entered after it are discarded, and enter again with the operands that the
array holds (R172). -/
def Crucible.failRow (x : Crucible) (l i : Nat) (e : TensorEntry) (unit : BitVec 4) : Crucible :=
  x.failTensor l i { e with chain := [] } unit

/-- The oldest row in the chain is checked and written (R164, R171). -/
def Crucible.writeRow (x : Crucible) (l i : Nat) (kind : MacKind) (e : TensorEntry) : Crucible :=
  match e.chain with
  | [] => x
  | c :: cs =>
    if c.agreed then
      let r := e.row + e.rowsDone
      let done := e.rowsDone + 1
      let e' := { e with rowsDone := done, rowBuf := e.rowBuf.tail, chain := cs,
                         phase := if done ≥ logicalRows e.desc then .complete else .running }
      let p' := ((x.phys l).setTensor i e').setAcc r 0 (c.words.map Prod.fst)
      (x.putPhys l (if kind = .i8 then p'.markInt r 0 (c.words.map Prod.fst) else p')).addCounts l e.seq
        (c.words.foldl (fun n o => n + o.2) 0) 0
    else x.failRow l i e unitChain

/-- The rows in the chain, `n` at most, are checked and written. -/
def Crucible.writeRows (x : Crucible) (l i : Nat) (kind : MacKind) : Nat → Crucible
  | 0 => x
  | n + 1 =>
    match (x.phys l).tq[i]? with
    | some e => (x.writeRow l i kind e).writeRows l i kind n
    | none => x

/-- ROW_ENTRY: a row of the streaming tmac enters, or the oldest that has entered is written, or its check fails. A row enters while
no earlier drain has still to read its accumulator row (R165, R651), and its operand read finds no parity error (R468). -/
def Crucible.rowEntry (x : Crucible) (l : Nat) (run : RowRun) : Crucible :=
  let p := x.phys l
  match findEntry (fun e => e.isMac && e.phase == .running) [] p.tq with
  | none => x
  | some (before, e) =>
    let i := before.length
    let may := decide (e.nextRow < logicalRows e.desc) && !rowHeld before (e.row + e.nextRow)
    let agrees := decide (e.chain.length < e.rowBuf.length) || p.operandAgrees e.desc e.nextRow
    match e.op with
    | .mac kind =>
      let e' := p.enterRow kind e
      if !x.live then x
      else match run with
        | .whole =>
          if !may then x
          else if agrees then (x.putPhys l (p.setTensor i e')).writeRows l i kind e'.chain.length
          else x.failTensor l i e unitParity
        | .enter => if !may then x else if agrees then x.putPhys l (p.setTensor i e') else x.failTensor l i e unitParity
        | .write => if rowHeld before (e.row + e.rowsDone) then x else x.writeRow l i kind e
        | .fail u =>
          if e.chain.isEmpty then (if may then x.failRow l i e' u else x) else x.failRow l i e u
    | _ => x

def execRowEntry (k : CoreId) (run : RowRun) (s : State) : Host.Outcome State Fault Refusal :=
  .next (s.atCrucible k.cru (fun x => x.rowEntry k.core.val run))

/-! ### Drain (R142, R143, R167–R170, R199–R207) -/

/-- An accumulator word as a drain reads it. -/
def drainVal (flags : Byte) (w : W32) : FpVal := if flagIntrows flags then intVal 32 w.toNat else fp32 w

/-- Element n of a drained row j, `scales` its row's block scales. A BSCALED drain of FP32 words to FP32 scales each word (R202): its
NaNs are then canonical (log 115). -/
def drainElem (g : Nat) (step : W48) (scales : List Byte) (e : TensorEntry) (j n : Nat) (w : W32) : Conv :=
  let f := descFormat e.desc
  let d := formatDest f
  let rand := if flagSr e.flags then some (srRand g step e.seq (j * descCols e.desc + n)) else none
  if flagBscaled e.flags then
    convertScaled d rand (scales.getD (n / 32) 0) (drainVal e.flags w)
  else if (f == 7 && !flagIntrows e.flags) || (f == 8 && flagIntrows e.flags) then ⟨w.toNat, 0, 0⟩
  else convert d rand (drainVal e.flags w)

/-- A row's elements, in order. -/
def drainConvs (g : Nat) (step : W48) (scales : List Byte) (e : TensorEntry) (j : Nat) (ws : List W32) : List Conv :=
  (List.range ws.length).map (fun n => drainElem g step scales e j n (ws.getD n 0))

def elemBytes (f : BitVec 4) (cs : List Conv) : List Byte :=
  (cs.map (fun (c : Conv) => leBytes (formatBits f / 8) c.code)).flatten

/-- The sequential FP32 sum of a row, in increasing column (R143, R146). -/
def fpSum : List W32 → W32
  | [] => 0
  | w :: ws => ws.foldl fp32Add (fp32Canon w)

/-- The FP32 maximum of a row (R143, R188). -/
def fpMaximum : List W32 → W32
  | [] => 0
  | w :: ws => ws.foldl fp32Max (fp32Max w w)

/-- The block scales of a row (R201). -/
def rowScales (d : Dest) (ws : List W32) : Nat → List Byte
  | 0 => []
  | n + 1 => blockScale d (ws.take 32) :: rowScales d (ws.drop 32) n

/-- The scale bytes that a BSCALED drain reads for row j (R168). -/
def drainScales (m : Memory) (e : TensorEntry) (j : Nat) : List Byte :=
  if flagBscaled e.flags then Memory.readBytes m (e.asOff.toNat + j * scaleBytes e.desc) (scaleBytes e.desc) else []

/-- The tile row j of a drain, or its scales, with its counts; `scales` is what it has read of them. -/
def Crucible.drainRow (x : Crucible) (c : Cru) (l : Nat) (e : TensorEntry) (j : Nat) (scales : List Byte) : Crucible :=
  let p := x.phys l
  let ws := (List.range (descCols e.desc)).map (p.accWord (e.row + j))
  let f := descFormat e.desc
  if flagScale e.flags then
    x.queueWrite l e.seq (e.asOff.toNat + j * scaleBytes e.desc) (rowScales (formatDest f) ws (scaleBytes e.desc))
  else
    let cs := drainConvs (c.val * 500 + l) p.step scales e j ws
    (x.queueWrite l e.seq (descBase e.desc + j * descStride e.desc) (elemBytes f cs)).addCounts l e.seq (sumSat cs) (sumFlush cs)

/-- The maximum and the sum of row j, 64 cycles after its tile row (R143, R168). -/
def Crucible.drainStats (x : Crucible) (l : Nat) (e : TensorEntry) (j : Nat) : Crucible :=
  if flagStats e.flags then
    let ws := (List.range (descCols e.desc)).map ((x.phys l).accWord (e.row + j))
    (x.queueWrite l e.seq (e.asOff.toNat + 4 * j) (leBytes 4 (fpMaximum ws).toNat)).queueWrite l e.seq
      (e.asOff.toNat + 4 * descRows e.desc + 4 * j) (leBytes 4 (fpSum ws).toNat)
  else x

/-- The row a drain works on in cycle `t`, when the rows from `slip` on come 5 cycles late (R466). -/
def drainSlot (slip t : Nat) : Option Nat := if t < slip then some t else if slip + 5 ≤ t then some (t - 5) else none

/-- Cycles between the read of a row's scales and its write: 5 under BSCALED (R168). -/
def drainLag (e : TensorEntry) : Nat := if flagBscaled e.flags then 5 else 0

/-- `n` cycles of a drain of rows 0 to b − 1 from cycle `t` on (R168): a row's scales are read, into `ahead` with those of the rows
before it not yet written; a tile row is written; the statistics of the row 64 cycles before it are written. Within one cycle the
scales are read first, and the tile row is written before the statistics (log 148, DESIGN CHOICE). -/
def Crucible.drainCycles (x : Crucible) (c : Cru) (l : Nat) (e : TensorEntry) (slip b t : Nat) (ahead : List (List Byte)) :
    Nat → Crucible × List (List Byte)
  | 0 => (x, ahead)
  | n + 1 =>
    let lag := drainLag e
    let ahead := match drainSlot (slip + lag) t with
      | some j => if j < b then ahead ++ [drainScales (x.phys l).scratch e j] else ahead
      | none => ahead
    let (x, ahead) := match if lag ≤ t then drainSlot slip (t - lag) else none with
      | some j => if j < b then (x.drainRow c l e j (ahead.headD []), ahead.tail) else (x, ahead)
      | none => (x, ahead)
    let x := match if 64 ≤ t then drainSlot slip (t - 64) else none with
      | some j => if j < b then x.drainStats l e j else x
      | none => x
    Crucible.drainCycles x c l e slip b (t + 1) ahead n

/-- The words of a drained row agree with their check bits, and its scales hold no parity error (R466, R468). -/
def PhysCore.drainAgrees (p : PhysCore) (e : TensorEntry) (j : Nat) : Bool :=
  p.accAgrees (e.row + j) (descCols e.desc) &&
    (!flagBscaled e.flags || p.parityAgrees (e.asOff.toNat + j * scaleBytes e.desc) (scaleBytes e.desc))

/-- The row whose check fails: nature's, or the first that the stored bits give away. -/
def PhysCore.drainFails (p : PhysCore) (e : TensorEntry) (mismatch : Option (Nat × BitVec 4)) : Option (Nat × BitVec 4) :=
  let stored := (List.range (descRows e.desc - e.rowsDone)).find? (fun j => !p.drainAgrees e (e.rowsDone + j))
  match stored, mismatch with
  | some j, some (i, u) => if i < e.rowsDone + j then some (i, u) else some (e.rowsDone + j, unitDrain)
  | some j, none => some (e.rowsDone + j, unitDrain)
  | none, m => m

/-- The rows of a later tmac in the chain that a drain has to read again first leave it, to enter once more (R651). -/
def TensorEntry.giveBack (rows : List TensorEntry) (e : TensorEntry) : TensorEntry :=
  if e.isMac && e.phase == .running then
    { e with chain := e.chain.take (((List.range e.chain.length).find? (fun i => rowHeld rows (e.row + e.rowsDone + i))).getD
                                     e.chain.length) }
  else e

/-- DRAIN_START: the oldest drain not yet done reads, converts and writes its rows, once every tmac issued before it has left the
chain, earlier drains are done, and no earlier load still reads what it writes. `mismatch` is nature's: the row whose check fails and
the unit. The first of the step is counted and a further DRAIN_START reads that row again, 5 cycles late like those after it; at the
second, the rows before it are written and the core is retired (R466, R470). -/
def Crucible.drainStart (x : Crucible) (c : Cru) (l : Nat) (mismatch : Option (Nat × BitVec 4)) : Crucible :=
  let p := x.phys l
  match findEntry (fun e => e.isDrain && e.open_) [] p.tq with
  | none => x
  | some (before, e) =>
    let i := before.length
    let waits := before.any (fun b => b.isMac && b.open_)
      || before.any (fun b => b.isLoad && b.open_ && rangesMeet (readRanges b) (drainWrites e))
    let rows := descRows e.desc
    let again := e.phase == .running
    let slip := if again then e.rowsDone else rows
    let at_ := if again then e.rowsDone + drainLag e else 0
    let ahead := e.rowBuf.map (List.map (fun (w : W32) => w.setWidth 8))
    if x.live && !waits then
      match p.drainFails e mismatch with
      | some (j, u) =>
        if e.rowsDone ≤ j && j < rows then
          if x.firstMismatch l then
            let stop := j + drainLag e + (if again then 5 else 0)
            let (y, ahead) := x.drainCycles c l e slip rows at_ ahead (stop - at_)
            let e' := { e with rowsDone := j, phase := .running, rowBuf := ahead.map byteWords }
            let y := y.failTensor l i e' u
            y.modPhys l (fun q => { q with tq := q.tq.map (TensorEntry.giveBack [e']) })
          else
            (x.drainCycles c l e slip j at_ ahead (j + 74)).1.failTensor l i e u
        else x
      | none =>
        let y := (x.drainCycles c l e slip rows at_ ahead (rows + 74)).1
        y.putPhys l ((y.phys l).setTensor i { e with rowsDone := rows, phase := .complete, rowBuf := [] })
    else x

def execDrainStart (k : CoreId) (mismatch : Option (Nat × BitVec 4)) (s : State) : Host.Outcome State Fault Refusal :=
  .next (s.atCrucible k.cru (fun x => x.drainStart k.cru k.core.val mismatch))

end Sys2Proof.Machine
end

