-- ==== Sys2Proof/Machine/Vector.lean ====
section
/-!
DEFINITION. Vector and row instructions (R145–R147; R185–R190): opcodes 0x90 to 0xBA, and the step of the vector queue (R85).
-/
namespace Sys2Proof.Machine

/-! ### Issue -/

def vectorEntry (tb : TallyBlock) (g : LogCore) (p : PhysCore) (op : Byte) (f : FmtQV) (at_ : Nat) : VectorEntry :=
  { op := op, word := instrWord op f.bits, seq := BitVec.ofNat 32 p.seq, pc := p.pc, tally := tallyFieldWord tb g f.tally, vd := f.vd, va := f.va, vb := f.vb,
    vc := f.vc, sr := f.sr == 1, at_ := at_, scalar := (p.sreg f.va).setWidth 32, phase := .queued }

/-- Issue of a vector instruction: its unused fields, its address condition and its entry. -/
def issueVector (s : State) (k : CoreId) (op : Byte) (f : FmtQV) (illegal : Bool) (cond : PhysCore → Option (Byte × W32))
    (at_ : PhysCore → Nat) : State :=
  let tb := (s.crucible k.cru).tally
  s.issue k op f.bits fun g p =>
    ⟨decide (f.resv ≠ 0) || illegal, tallyFieldFault tb g f.tally, p.seqNext, [cond p, seqLimit p],
     enterVector g p (vectorEntry tb g p op f (at_ p))⟩

/-- Three-operand forms: which of VD, VA, VB, VC are used; SR and IMM are not. -/
def laneIllegal (f : FmtQV) (useB useC : Bool) : Bool :=
  f.sr == 1 || decide (f.imm ≠ 0) || (!useB && decide (f.vb ≠ 0)) || (!useC && decide (f.vc ≠ 0))

def issueLane (s : State) (k : CoreId) (op : Byte) (f : FmtQV) (useB useC : Bool) : State :=
  issueVector s k op f (laneIllegal f useB useC) (fun _ => none) (fun _ => 0)

/-- The accumulator row sA + IMM[9:0], in 64 bits. -/
def vaccRow (p : PhysCore) (f : FmtQV) : Nat := (p.sreg f.va + f.imm.setWidth 64).toNat

/-- A row above 511 is ACC_ADDRESS with the row in DETAIL (R76, R145). -/
def vaccCond (f : FmtQV) (p : PhysCore) : Option (Byte × W32) :=
  if vaccRow p f > 511 then some (0x04, detail32 (vaccRow p f)) else none

/-- aA + IMM, modulo 2^48 (R147). -/
def vecAddr (f : FmtQV) (p : PhysCore) : Nat := (p.areg f.va + f.imm.setWidth 48).toNat

def vecAddrCond (size : Nat) (f : FmtQV) (p : PhysCore) : Option (Byte × W32) :=
  if badScratch (vecAddr f p) size then some (0x03, detail32 (vecAddr f p)) else none

/-- A vector load: VB, VC and SR unused. -/
def issueLoad (s : State) (k : CoreId) (op : Byte) (size : Nat) (f : FmtQV) : State :=
  issueVector s k op f (f.sr == 1 || badReg16 f.va || decide (f.vb ≠ 0) || decide (f.vc ≠ 0)) (vecAddrCond size f) (vecAddr f)

/-- A vector store: VD and VB unused, SR only for narrowing. -/
def issueStore (s : State) (k : CoreId) (op : Byte) (size : Nat) (srOk : Bool) (f : FmtQV) : State :=
  issueVector s k op f ((!srOk && f.sr == 1) || badReg16 f.va || decide (f.vd ≠ 0) || decide (f.vb ≠ 0)) (vecAddrCond size f)
    (vecAddr f)

/-- vacc.rd: vD := accumulator row sA + IMM[9:0], bit for bit. -/
def execVaccRd (k : CoreId) (f : FmtQV) (s : State) : Host.Outcome State Fault Refusal :=
  .next (issueVector s k 0xa0 f (f.sr == 1 || decide (f.imm.toNat ≥ 1024) || decide (f.vb ≠ 0) || decide (f.vc ≠ 0)) (vaccCond f)
    (fun p => vaccRow p f))

/-- vacc.wr: accumulator row sA + IMM[9:0] := vC, bit for bit. -/
def execVaccWr (k : CoreId) (f : FmtQV) (s : State) : Host.Outcome State Fault Refusal :=
  .next (issueVector s k 0xa1 f (f.sr == 1 || decide (f.imm.toNat ≥ 1024) || decide (f.vd ≠ 0) || decide (f.vb ≠ 0)) (vaccCond f)
    (fun p => vaccRow p f))

/-- vbcast: every lane := sA[31:0]. -/
def execVbcast (k : CoreId) (f : FmtQV) (s : State) : Host.Outcome State Fault Refusal :=
  .next (issueLane s k 0xa2 f false false)

def execVaddF32 (k : CoreId) (f : FmtQV) (s : State) : Host.Outcome State Fault Refusal :=
  .next (issueLane s k 0xa8 f true false)

def execVsubF32 (k : CoreId) (f : FmtQV) (s : State) : Host.Outcome State Fault Refusal :=
  .next (issueLane s k 0xa9 f true false)

def execVmulF32 (k : CoreId) (f : FmtQV) (s : State) : Host.Outcome State Fault Refusal :=
  .next (issueLane s k 0xaa f true false)

def execVfmaF32 (k : CoreId) (f : FmtQV) (s : State) : Host.Outcome State Fault Refusal :=
  .next (issueLane s k 0xab f true true)

def execVmaxF32 (k : CoreId) (f : FmtQV) (s : State) : Host.Outcome State Fault Refusal :=
  .next (issueLane s k 0xac f true false)

def execVminF32 (k : CoreId) (f : FmtQV) (s : State) : Host.Outcome State Fault Refusal :=
  .next (issueLane s k 0xad f true false)

def execVabsF32 (k : CoreId) (f : FmtQV) (s : State) : Host.Outcome State Fault Refusal :=
  .next (issueLane s k 0xae f false false)

def execVnegF32 (k : CoreId) (f : FmtQV) (s : State) : Host.Outcome State Fault Refusal :=
  .next (issueLane s k 0xaf f false false)

def execVexp2F32 (k : CoreId) (f : FmtQV) (s : State) : Host.Outcome State Fault Refusal :=
  .next (issueLane s k 0xb0 f false false)

def execVlog2F32 (k : CoreId) (f : FmtQV) (s : State) : Host.Outcome State Fault Refusal :=
  .next (issueLane s k 0xb1 f false false)

def execVrcpF32 (k : CoreId) (f : FmtQV) (s : State) : Host.Outcome State Fault Refusal :=
  .next (issueLane s k 0xb2 f false false)

def execVrsqrtF32 (k : CoreId) (f : FmtQV) (s : State) : Host.Outcome State Fault Refusal :=
  .next (issueLane s k 0xb3 f false false)

def execVrowMax (k : CoreId) (f : FmtQV) (s : State) : Host.Outcome State Fault Refusal :=
  .next (issueLane s k 0xb8 f false false)

def execVrowSum (k : CoreId) (f : FmtQV) (s : State) : Host.Outcome State Fault Refusal :=
  .next (issueLane s k 0xb9 f false false)

def execVrowAmax (k : CoreId) (f : FmtQV) (s : State) : Host.Outcome State Fault Refusal :=
  .next (issueLane s k 0xba f false false)

def execVldF32 (k : CoreId) (f : FmtQV) (s : State) : Host.Outcome State Fault Refusal :=
  .next (issueLoad s k 0x90 256 f)

def execVldBf16 (k : CoreId) (f : FmtQV) (s : State) : Host.Outcome State Fault Refusal :=
  .next (issueLoad s k 0x91 128 f)

def execVldF16 (k : CoreId) (f : FmtQV) (s : State) : Host.Outcome State Fault Refusal :=
  .next (issueLoad s k 0x92 128 f)

def execVldE4m3 (k : CoreId) (f : FmtQV) (s : State) : Host.Outcome State Fault Refusal :=
  .next (issueLoad s k 0x93 64 f)

def execVldE5m2 (k : CoreId) (f : FmtQV) (s : State) : Host.Outcome State Fault Refusal :=
  .next (issueLoad s k 0x94 64 f)

def execVldI8 (k : CoreId) (f : FmtQV) (s : State) : Host.Outcome State Fault Refusal :=
  .next (issueLoad s k 0x95 64 f)

def execVstF32 (k : CoreId) (f : FmtQV) (s : State) : Host.Outcome State Fault Refusal :=
  .next (issueStore s k 0x98 256 false f)

def execVstBf16 (k : CoreId) (f : FmtQV) (s : State) : Host.Outcome State Fault Refusal :=
  .next (issueStore s k 0x99 128 true f)

def execVstF16 (k : CoreId) (f : FmtQV) (s : State) : Host.Outcome State Fault Refusal :=
  .next (issueStore s k 0x9a 128 true f)

def execVstE4m3 (k : CoreId) (f : FmtQV) (s : State) : Host.Outcome State Fault Refusal :=
  .next (issueStore s k 0x9b 64 true f)

def execVstE5m2 (k : CoreId) (f : FmtQV) (s : State) : Host.Outcome State Fault Refusal :=
  .next (issueStore s k 0x9c 64 true f)

def execVstI8 (k : CoreId) (f : FmtQV) (s : State) : Host.Outcome State Fault Refusal :=
  .next (issueStore s k 0x9d 64 true f)

/-! ### The vector unit (R85, R145–R147) -/

/-- The memory format of a load or store opcode, as a FORMAT code. -/
def vecFormat (op : Byte) : BitVec 4 :=
  match op.toNat % 8 with
  | 0 => 7
  | 1 => 5
  | 2 => 6
  | 3 => 1
  | 4 => 2
  | _ => 0

/-- A memory element widened to FP32, exactly; an FP32 element is moved bit for bit (R147, R185). -/
def widen (f : BitVec 4) (code : Nat) : W32 := if f = 7 then BitVec.ofNat 32 code else fp32Of (formatVal f code)

/-- The lanes a load writes. -/
def loadLanes (m : Memory) (f : BitVec 4) (a : Nat) : List W32 :=
  let b := formatBits f / 8
  (List.range 64).map (fun i => widen f (leNat (Memory.readBytes m (a + i * b) b)))

/-- The elements a store writes (R147, R199, R205). -/
def storeConvs (g : Nat) (step : W48) (e : VectorEntry) (f : BitVec 4) (ws : List W32) : List Conv :=
  if f = 7 then ws.map (fun (w : W32) => ⟨w.toNat, 0, 0⟩)
  else (List.range ws.length).map (fun i =>
    convert (formatDest f) (if e.sr then some (srRand g step e.seq i) else none) (fp32 (ws.getD i 0)))

def lanes1 (p : PhysCore) (e : VectorEntry) (r : W32 → W32) : List W32 := (p.vreg e.va).map r
def lanes2 (p : PhysCore) (e : VectorEntry) (r : W32 → W32 → W32) : List W32 := List.zipWith r (p.vreg e.va) (p.vreg e.vb)
def lanes3 (p : PhysCore) (e : VectorEntry) (r : W32 → W32 → W32 → W32) : List W32 :=
  (List.range 64).map (fun i => r (p.lane e.va i) (p.lane e.vb i) (p.lane e.vc i))

/-- The lanes of a register-to-register result; an opcode outside the list never enters the queue. -/
def vecResult (p : PhysCore) (e : VectorEntry) : List W32 :=
  match e.op.toNat with
  | 0xA0 => p.accRow e.at_
  | 0xA2 => List.replicate 64 e.scalar
  | 0xA8 => lanes2 p e fp32Add
  | 0xA9 => lanes2 p e fp32Sub
  | 0xAA => lanes2 p e fp32Mul
  | 0xAB => lanes3 p e fp32Fma
  | 0xAC => lanes2 p e fp32Max
  | 0xAD => lanes2 p e fp32Min
  | 0xAE => lanes1 p e fp32Abs
  | 0xAF => lanes1 p e fp32Neg
  | 0xB0 => lanes1 p e fp32Exp2
  | 0xB1 => lanes1 p e fp32Log2
  | 0xB2 => lanes1 p e fp32Rcp
  | 0xB3 => lanes1 p e fp32Rsqrt
  | 0xB8 => List.replicate 64 (fpMaximum (p.vreg e.va))
  | 0xB9 => List.replicate 64 (fpSum (p.vreg e.va))
  | 0xBA => List.replicate 64 (fpMaximum (lanes1 p e fp32Abs))
  | _ => loadLanes p.scratch (vecFormat e.op) e.at_

/-- The operation writes the scratchpad. -/
def VectorEntry.isStore (e : VectorEntry) : Bool := decide (0x98 ≤ e.op.toNat) && decide (e.op.toNat ≤ 0x9D)

/-- The whole effect of a vector operation. -/
def Crucible.vectorRun (x : Crucible) (c : Cru) (l : Nat) (e : VectorEntry) : Crucible :=
  let p := x.phys l
  if e.isStore then
    let f := vecFormat e.op
    let cs := storeConvs (c.val * 500 + l) p.step e f (p.vreg e.vc)
    (x.queueWrite l e.seq e.at_ (elemBytes f cs)).addCounts l e.seq (sumSat cs) (sumFlush cs)
  else if e.op = 0xA1 then x.putPhys l (p.setAcc e.at_ 0 (p.vreg e.vc))
  else x.putPhys l (p.setLanes e.vd 0 (vecResult p e))

/-- The oldest vector operation not yet run, with its position. -/
def nextVector (i : Nat) : List VectorEntry → Option (Nat × VectorEntry)
  | [] => none
  | e :: rest => if e.phase == .queued then some (i, e) else nextVector (i + 1) rest

/-- The registers whose residues the operation's prediction uses (R466). -/
def VectorEntry.predicts (e : VectorEntry) : List (BitVec 5) :=
  match e.op.toNat with
  | 0xA8 | 0xA9 | 0xAA => [e.va, e.vb]
  | 0xAB => [e.va, e.vb, e.vc]
  | 0xB9 => [e.va]
  | 0x99 | 0x9A | 0x9B | 0x9C | 0x9D => [e.vc]
  | _ => []

/-- The unit whose check the stored bits fail: a lane's residue, or the parity of a loaded byte (R466, R468). -/
def VectorEntry.storedFail (e : VectorEntry) (p : PhysCore) : Option (BitVec 4) :=
  if e.predicts.any (fun r => !p.lanesAgree r) then some 2
  else if decide (0x90 ≤ e.op.toNat) && decide (e.op.toNat ≤ 0x95) && !p.parityAgrees e.at_ (64 * (formatBits (vecFormat e.op) / 8)) then
    some 5
  else none

/-- VECTOR_OP_START: the oldest waiting vector operation runs, after every earlier one has finished its writes (R85). `mismatch` is
nature's: its results are discarded and it runs again, or the core is retired (R466, R470). -/
def Crucible.vectorStart (x : Crucible) (c : Cru) (l : Nat) (mismatch : Option (BitVec 4)) : Crucible :=
  let p := x.phys l
  match nextVector 0 p.vq with
  | none => x
  | some (i, e) =>
    if x.live then
      match (e.storedFail p).or mismatch with
      | some u =>
        if x.firstMismatch l then x.countMismatch l u 2 e.seq
        else (x.putPhys l { p with vq := listDrop p.vq i }).retireFault l u srcVector e.pc e.seq
      | none =>
        (x.putPhys l { p with vq := listSet p.vq i { e with phase := .complete } }).vectorRun c l e
    else x

def execVectorOpStart (k : CoreId) (mismatch : Option (BitVec 4)) (s : State) : Host.Outcome State Fault Refusal :=
  .next (s.atCrucible k.cru (fun x => x.vectorStart k.cru k.core.val mismatch))

end Sys2Proof.Machine
end

