-- ==== Sys2Proof/Machine/Kernels.lean ====
section
/-!
DEFINITION. The kernel library: rows and their reductions, softmax, normalisation, the lane-wise operators and the products that a
placed operator computes, each step rounding as its instruction does (R156, R173, R176, R223–R234, R281).
-/
namespace Sys2Proof.Machine

/-! ### Rows and reductions (R224, R225) -/

def negInf32 : W32 := 0xFF800000
def one32 : W32 := 0x3F800000

/-- `q` vectors of 64 lanes of a row, the spare lanes of the last holding `fill`. -/
def rowVecs (fill : W32) : Nat → List W32 → List (List W32)
  | 0, _ => []
  | q + 1, xs => (xs.take 64 ++ List.replicate (64 - xs.length) fill) :: rowVecs fill q (xs.drop 64)

/-- A row of n words as ⌈n / 64⌉ vectors: element j in lane j mod 64 of vector j / 64 (R224). -/
def rowLanes (fill : W32) (xs : List W32) : List (List W32) := rowVecs fill ((xs.length + 63) / 64) xs

/-- A chain of lane-wise operations over vectors, from the first one. -/
def laneChain (f : W32 → W32 → W32) : List (List W32) → List W32
  | [] => []
  | v :: vs => vs.foldl (List.zipWith f) v

def lanes3With (f : W32 → W32 → W32 → W32) (a b c : List W32) : List W32 := List.zipWith (fun (p : W32 × W32) w => f p.1 p.2 w) (a.zip b) c

def rowMax (xs : List W32) : W32 := fpMaximum (laneChain fp32Max (rowLanes negInf32 xs))

def rowSum (xs : List W32) : W32 := fpSum (laneChain fp32Add (rowLanes 0 xs))

def dotLanes : List (List W32 × List W32) → List W32
  | [] => []
  | (x, y) :: ps => ps.foldl (fun w (p : List W32 × List W32) => lanes3With fp32Fma p.1 p.2 w) (List.zipWith fp32Mul x y)

def rowDot (xs ys : List W32) : W32 := fpSum (dotLanes ((rowLanes 0 xs).zip (rowLanes 0 ys)))

/-! ### Constants (R228) -/

def log2e : W32 := 0x3FB8AA3B
def kappa (tau : W32) : W32 := fp32Mul tau log2e
/-- 1 / n, correctly rounded. -/
def invN (n : Nat) : W32 := rcpNearest false n 0

/-! ### Softmax (R229–R231) -/

/-- A softmax row before its conversion, and its row statistics. -/
structure SoftRow where
  y : List W32
  m : W32
  l : W32
  deriving DecidableEq, Repr

def softmaxRow (tau : W32) (xs : List W32) : SoftRow :=
  let m := fp32Mul (kappa tau) (rowMax xs)
  let e := xs.map (fun x => fp32Exp2 (fp32Fma x (kappa tau) (fp32Neg m)))
  let sum := rowSum e
  ⟨e.map (fun v => fp32Mul v (fp32Rcp sum)), m, fp32Log2 sum⟩

/-- A row's statistics as they stand in memory: m first, 8 bytes (R230). -/
def statBytes (m l : W32) : List Byte := leBytes 4 m.toNat ++ leBytes 4 l.toNat

/-- dx of a softmax row, from the kept y and dy (R231). -/
def softmaxGrad (tau : W32) (y dy : List W32) : List W32 :=
  let d := rowDot dy y
  List.zipWith (fun g v => fp32Mul (fp32Mul (fp32Sub g d) v) tau) dy y

/-! ### Normalisation (R232–R234) -/

/-- Normalisation statistics: μ (0 for RMS normalisation, which has none) and r. -/
structure NormStats where
  mu : W32
  r : W32
  deriving DecidableEq, Repr

/-- Step 2 of R232. -/
def normCentre (layer : Bool) (mu : W32) (xs : List W32) : List W32 := if layer then xs.map (fun x => fp32Sub x mu) else xs

/-- Steps 1 to 4. -/
def normStats (layer : Bool) (eps : W32) (xs : List W32) : NormStats :=
  let k := invN xs.length
  let mu := if layer then fp32Mul (rowSum xs) k else 0
  let d := normCentre layer mu xs
  ⟨mu, fp32Rsqrt (fp32Add (fp32Mul (rowDot d d) k) eps)⟩

/-- Steps 2 and 5. -/
def normH (layer : Bool) (st : NormStats) (xs : List W32) : List W32 := (normCentre layer st.mu xs).map (fun d => fp32Mul d st.r)

/-- Step 6; an absent γ or β skips its part. -/
def normOut (gamma beta : Option (List W32)) (h : List W32) : List W32 :=
  match gamma, beta with
  | some g, some b => lanes3With fp32Fma h g b
  | some g, none => List.zipWith fp32Mul h g
  | none, some b => List.zipWith fp32Add h b
  | none, none => h

/-- dx of a normalised row (R233). -/
def normGrad (layer : Bool) (st : NormStats) (gamma : Option (List W32)) (xs dy : List W32) : List W32 :=
  let h := normH layer st xs
  let g := match gamma with
    | some c => List.zipWith fp32Mul dy c
    | none => dy
  let a := rowSum g
  let b := rowDot g h
  let w := h.map (fun v => fp32Mul (if layer then fp32Fma v b a else fp32Mul v b) (invN xs.length))
  List.zipWith (fun p q => fp32Mul (fp32Sub p q) st.r) g w

/-! ### Chains of products (R156, R176, R191–R193, R223, R257) -/

def chainLimit : Nat := 2 ^ 20
def chainBlock : Nat := 65536

/-- The first `m` blocks of 65,536 terms, the last one holding what remains. -/
def chainBlocks {α : Type} : Nat → List α → List (List α)
  | 0, _ => []
  | m + 1, ts => ts.take chainBlock :: chainBlocks m (ts.drop chainBlock)

/-- A sum in increasing order of its terms: one chain, or above 2^20 terms blocks of 65,536, each started with ZERO, whose results one
FP32 chain adds in increasing order (R223). -/
def chainSum {α : Type} (stage : W32 → α → W32) (ts : List α) : W32 :=
  if ts.length ≤ chainLimit then ts.foldl stage 0
  else fpSum ((chainBlocks ((ts.length + chainBlock - 1) / chainBlock) ts).map (fun b => b.foldl stage 0))

/-- Blocks of a contraction of `n` terms, each with a drain of its own (R223): none when it is not split. -/
def blockDrains (n : Nat) : Nat := if n ≤ chainLimit then 0 else (n + chainBlock - 1) / chainBlock

/-- A stage of an FP32 chain over exact operands; FP32 operands are multiplied in three passes. -/
def productStage (f32 : Bool) (r : W32) (t : W32 × W32) : W32 :=
  let a := fp32 t.1
  let b := fp32 t.2
  fp32Of (fpAdd (fp32 r) (if f32 then fp32Product a b else fpMul a b))

/-- The integer that an FP32 word holds. -/
def wordInt (w : W32) : Int :=
  match fp32 w with
  | .fin neg m e => signedInt neg (if 0 ≤ e then shiftUp m e else m / 2 ^ (-e).toNat)
  | _ => 0

/-- The contraction of a streamed row with a stationary column, of formats `fx` and `fw`: INT8 sums are exact integers (R192). -/
def contract (fx fw : Nat) (xs ws : List W32) : FpVal :=
  if fx = 0 ∧ (fw = 0 ∨ fw = 3) then
    let t := (xs.zip ws).foldl (fun r (p : W32 × W32) => intStage r (wordInt p.1 * wordInt p.2)) (0, false)
    .fin (decide (t.1 < 0)) t.1.natAbs 0
  else fp32 (chainSum (productStage (fx == 7 && fw == 7)) (xs.zip ws))

/-! ### Tensors as matrices of FP32 words -/

/-- A tensor's rows; each element is the FP32 word of its value. -/
abbrev Mat := List (List W32)

def Mat.col (m : Mat) (j : Nat) : List W32 := m.map (fun r => r.getD j 0)
def Mat.transpose (m : Mat) (cols : Nat) : Mat := (List.range cols).map m.col
/-- Columns lo to lo + n − 1. -/
def Mat.cut (m : Mat) (lo n : Nat) : Mat := m.map (fun r => (r.drop lo).take n)
def Mat.zip (f : W32 → W32 → W32) (a b : Mat) : Mat := List.zipWith (List.zipWith f) a b

/-- The code of a value in a FORMAT, to nearest even or with a random word (R185, R199, R205). No conversion to a 4-bit FORMAT is
stated (log 134). -/
def narrowCode (f : Nat) (rand : Option Nat) (v : FpVal) : Nat :=
  if f = 3 ∨ f = 4 then Config.fourBit f (fp32Of v) % 16
  else if f = 7 then (fp32Of v).toNat
  else (convert (formatDest (BitVec.ofNat 4 f)) rand v).code

/-- A value narrowed to a FORMAT and widened again. -/
def narrowVal (f : Nat) (rand : Option Nat) (v : FpVal) : W32 := widen (BitVec.ofNat 4 f) (narrowCode f rand v)

/-- A word narrowed to a FORMAT to nearest even; FP32 stays as it is. -/
def narrowWord (f : Nat) (w : W32) : W32 := if f = 7 then w else narrowVal f none (fp32 w)

def Mat.narrow (f : Nat) (m : Mat) : Mat := m.map (fun r => r.map (narrowWord f))

/-- X · W with W of `cols` columns, each element one contraction, narrowed to FORMAT `fy` (R156, R173). -/
def matProduct (fx fw fy cols : Nat) (x w : Mat) : Mat :=
  let wt := w.transpose cols
  x.map (fun r => wt.map (fun c => if fy = 7 then fp32Of (contract fx fw r c) else narrowVal fy none (contract fx fw r c)))

/-! ### Lane-wise operators and the loss (R281) -/

def siluWord (x : W32) : W32 := fp32Mul x (fp32Rcp (fp32Add one32 (fp32Exp2 (fp32Mul (fp32Neg x) log2e))))

/-- Row sums of MSE_LOSS, by row. -/
def mseRows (y t : Mat) : List W32 :=
  List.zipWith (fun a b => rowSum (List.zipWith (fun p q => fp32Mul (fp32Sub p q) (fp32Sub p q)) a b)) y t

/-- MSE_LOSS over rows of n columns: each member's row sums added in increasing row index, the members' partials in increasing member
index (R288), times inv_n, where n is the row length (R228). -/
def mseLoss (n : Nat) (parts : List (List W32)) : W32 :=
  fp32Mul (fpSum ((parts.filter (fun p => !p.isEmpty)).map fpSum)) (invN n)

def mseGrad (n : Nat) (y t : Mat) : Mat := Mat.zip (fun p q => fp32Mul (fp32Sub p q) (fp32Mul 0x40000000 (invN n))) y t

end Sys2Proof.Machine
end

