-- ==== Sys2Proof/Machine/Attention.lean ====
section
/-!
DEFINITION. Streamed attention: positions and masks, spans, the visit order, the chunk update, the finish of a row, the ring, the two
backward kernels and the amounts of memory and traffic (R235–R252).
-/
namespace Sys2Proof.Machine

/-- The parameters of a STREAM_ATTENTION operator, with the layout it uses (R235, R282). -/
structure Attn where
  tokens : Nat
  p0 : Nat
  window : Nat
  tau : W32
  heads : Nat
  dim : Nat
  fmt : Nat
  out : Nat
  mask : Nat
  folded : Bool
  ring : Nat
  deriving DecidableEq, Repr

/-- The layout Tundish chooses where the parameters leave it open: folded under causal masks (R237). -/
def layoutChoice (mask layout : Nat) : Bool := if layout = 0xFF then mask == 1 || mask == 2 else layout == 1

/-- The parameters; `layout` is that of a hint that is followed. -/
def attnOf (p : List Byte) (layout : Option Nat) : Attn :=
  let f := leField p
  ⟨f 0 4, f 4 4, f 8 4, BitVec.ofNat 32 (f 12 4), f 16 2, f 18 1, f 19 1, f 20 1, f 21 1,
   layoutChoice (f 21 1) (if f 22 1 = 0xFF then layout.getD 0xFF else f 22 1), f 23 1⟩

/-! ### Positions and masks (R236) -/

/-- The 24-bit position of token i. -/
def Attn.position (a : Attn) (i : Nat) : BitVec 24 := BitVec.ofNat 24 (a.p0 + i)

/-- Key k is unmasked for query q. Tokens at T or above do not exist. -/
def Attn.sees (a : Attn) (q k : Nat) : Bool :=
  let pq := (a.position q).toNat
  let pk := (a.position k).toNat
  decide (q < a.tokens) && decide (k < a.tokens) &&
    (if a.mask = 0 then true else if a.mask = 1 then decide (pk ≤ pq) else decide (pq < pk + a.window) && decide (pk ≤ pq))

/-! ### Blocks, spans and the visit order (R237–R239) -/

def blockTokens : Nat := 4096
def Attn.blocks (a : Attn) : Nat := (a.tokens + 4095) / 4096

/-- Blocks lo to hi − 1 that exist. -/
def Attn.blockRange (a : Attn) (lo hi : Nat) : List Nat := (List.range (min hi a.blocks - lo)).map (lo + ·)

/-- The blocks that rank r holds, in increasing position. -/
def Attn.span (a : Attn) (r : Nat) : List Nat :=
  if a.folded then
    let g := (a.blocks + 2 * a.ring - 1) / (2 * a.ring)
    a.blockRange (r * g) (r * g + g) ++ a.blockRange ((2 * a.ring - 1 - r) * g) ((2 * a.ring - r) * g)
  else
    let b := (a.blocks + a.ring - 1) / a.ring
    a.blockRange (r * b) (r * b + b)

/-- The rank that rank r sends to: its successor, or in the key kernel's ring, which runs the other way, its predecessor (R237, R249). -/
def Attn.next (a : Attn) (back : Bool) (r : Nat) : Nat := if back then (r + a.ring - 1) % a.ring else (r + 1) % a.ring

/-- The rank that holds a token. -/
def Attn.rankOf (a : Attn) (i : Nat) : Nat := ((List.range a.ring).find? (fun r => decide (i / blockTokens ∈ a.span r))).getD 0

/-- The crucible, of every rank, that computes head h (R238). -/
def headCrucible (h : Nat) : Cru := Fin.ofNat 4 h

/-- The span that rank r works on at ring step j: (r - j) mod RING, or (r + j) mod RING in the key kernel's ring (R239, R249). -/
def Attn.spanAt (a : Attn) (back : Bool) (r j : Nat) : Nat := if back then (r + j) % a.ring else (r + a.ring - j % a.ring) % a.ring

/-- Tokens 64 t to 64 t + 63 that exist: a query tile, or the keys of a chunk. -/
def Attn.group64 (a : Attn) (t : Nat) : List Nat := (List.range (min 64 (a.tokens - 64 * t))).map (64 * t + ·)

/-- Chunks of a block, in increasing position. -/
def Attn.chunks (a : Attn) (b : Nat) : List Nat := ((List.range 64).map (64 * b + ·)).filter (fun t => decide (64 * t < a.tokens))

/-- Some pair of a query tile and a chunk is unmasked. -/
def Attn.anySeen (a : Attn) (tile chunk : Nat) : Bool := (a.group64 tile).any (fun q => (a.group64 chunk).any (a.sees q))

/-- Some pair of a query tile and a chunk is masked; a key lane that does not exist is. -/
def Attn.anyMasked (a : Attn) (tile chunk : Nat) : Bool :=
  (a.group64 tile).any (fun q => (List.range 64).any (fun i => !a.sees q (64 * chunk + i)))

/-- The chunks of a span that a query tile takes, in the visit order: a chunk whose every pair is masked is skipped. -/
def Attn.spanChunks (a : Attn) (tile span : Nat) : List Nat := ((a.span span).map a.chunks).flatten.filter (a.anySeen tile)

/-- The visit order of a query tile (R239). -/
def Attn.visits (a : Attn) (tile : Nat) : List Nat :=
  let r := a.rankOf (64 * tile)
  ((List.range a.ring).map (fun j => a.spanChunks tile (a.spanAt false r j))).flatten

/-! ### The update for one chunk (R240, R241) -/

/-- What a query row carries: its maximum, its 64 lane sums, its accumulator row. -/
structure AttnRow where
  m : W32
  lam : List W32
  o : List W32
  deriving DecidableEq, Repr

def AttnRow.start (d : Nat) : AttnRow := ⟨negInf32, List.replicate 64 0, List.replicate d 0⟩

/-- One head's tensors, by token. -/
structure HeadData where
  q : Mat
  k : Mat
  v : Mat
  deriving DecidableEq, Repr

/-- A row by token number; a token without one has none. -/
def matRow (m : Mat) (i : Nat) : List W32 := m.getD i []

/-- The score of a key: a chain over d in increasing index. -/
def score (q k : List W32) : W32 := (q.zip k).foldl (productStage false) 0

/-- A score as the chunk update uses it: in a chunk with masked pairs the mask is added. -/
def Attn.maskedScore (a : Attn) (h : HeadData) (masked : Bool) (q k : Nat) : W32 :=
  let s := score (matRow h.q q) (matRow h.k k)
  if masked then fp32Add s (if a.sees q k then 0 else negInf32) else s

/-- α and the p lanes of a row for its scores, and the row with m and λ moved on. -/
def AttnRow.weigh (x : AttnRow) (tau : W32) (fmt : Nat) (scores : List W32) : W32 × List W32 × AttnRow :=
  let mc := fp32Mul (kappa tau) (fpMaximum scores)
  if mc = negInf32 then (one32, scores.map (fun _ => 0), x)
  else
    let m := fp32Max x.m mc
    let alpha := fp32Exp2 (fp32Sub x.m m)
    let e := scores.map (fun s => fp32Exp2 (fp32Fma s (kappa tau) (fp32Neg m)))
    (alpha, e.map (narrowWord fmt), { x with m := m, lam := List.zipWith (fun l v => fp32Fma l alpha v) x.lam e })

/-- One chunk for one query row. α = 1 skips the rescale, whose multiplication is exact; the rescale comes before the P · V product
(R241). A key at T or above has no V row, and adds no term. -/
def Attn.chunkRow (a : Attn) (h : HeadData) (masked : Bool) (chunk q : Nat) (x : AttnRow) : AttnRow :=
  let scores := (List.range 64).map (fun i => a.maskedScore h masked q (64 * chunk + i))
  let (alpha, p, x) := x.weigh a.tau a.fmt scores
  let o := if alpha = one32 then x.o else x.o.map (fun v => fp32Mul v alpha)
  let keys := (a.group64 chunk).map (matRow h.v)
  { x with o := o.mapIdx (fun k r => (p.zip (keys.map (fun v => v.getD k 0))).foldl (productStage false) r) }

/-- A query row through its tile's visit order: one accumulation from the first P · V product on, over however many keys it visits. R223
lets no chain pass 2^20 terms, and R240 states no blocks for this one: the model follows R240 (log 157, DESIGN CHOICE). -/
def Attn.runRow (a : Attn) (h : HeadData) (q : Nat) : AttnRow :=
  (a.visits (q / 64)).foldl (fun x c => a.chunkRow h (a.anyMasked (q / 64) c) c q x) (AttnRow.start a.dim)

/-! ### The finish of a row (R242) -/

/-- O in FORMAT OUT, and (m, l). -/
def AttnRow.finish (x : AttnRow) (out : Nat) : SoftRow :=
  let sum := fpSum x.lam
  let rho := fp32Rcp sum
  ⟨x.o.map (fun v => narrowWord out (fp32Mul v rho)), x.m, fp32Log2 sum⟩

/-- One head: O and the statistics of every query row. -/
def Attn.headForward (a : Attn) (h : HeadData) : List SoftRow := (List.range a.tokens).map (fun q => (a.runRow h q).finish a.out)

/-- Columns of head h. -/
def Attn.headCut (a : Attn) (m : Mat) (h : Nat) : Mat := m.cut (h * a.dim) a.dim

def Attn.headData (a : Attn) (q k v : Mat) (h : Nat) : HeadData := ⟨a.headCut q h, a.headCut k h, a.headCut v h⟩

/-- Matrices of equal row count set side by side. -/
def Mat.beside (ms : List Mat) (rows : Nat) : Mat := (List.range rows).map (fun i => (ms.map (fun m => matRow m i)).flatten)

/-- The operator forward, all heads in increasing order: O, and the statistics by head. -/
def Attn.forward (a : Attn) (q k v : Mat) : Mat × List (List SoftRow) :=
  let hs := (List.range a.heads).map (fun h => a.headForward (a.headData q k v h))
  (Mat.beside (hs.map (fun rows => rows.map SoftRow.y)) a.tokens, hs)

/-! ### The ring (R243–R246) -/

/-- What a crucible of a rank does for one head's ring in turn. -/
inductive RingAct where
  /-- Take a slot-free signal of the successor's slot. -/
  | takeFree (slot : Nat)
  /-- Send a block's data, by xcopy.2d, into a slot of the same crucible of a rank: its K and V, or in the key kernel's ring its Q, dO,
  m, l and D. -/
  | sendBlock (block slot dest : Nat)
  | fence
  /-- Signal the block-arrival tally of a rank. -/
  | signalArrival (block dest : Nat)
  /-- Take the arrival signal of a block, which then stands in a slot. -/
  | awaitBlock (block slot : Nat)
  /-- Multicast a chunk with xcast.core to the cores of a wave whose tiles need it, and compute it. -/
  | chunk (chunk : Nat) (tiles : List Nat)
  /-- A wave's running state comes from HBM, and goes back to it, bit for bit. -/
  | restoreWave (tiles : List Nat)
  | saveWave (step : Nat) (tiles : List Nat)
  /-- Tell a rank that a slot is free. -/
  | signalFree (slot dest : Nat)
  deriving DecidableEq, Repr

/-- The slot computed on at ring step j: none for the home span (R243). -/
def ringSlot (j : Nat) : Option Nat := if j = 0 then none else some (j % 2)

/-- Slot-free signals held at the start of the operator: one for each slot (R245). -/
def slotsFree : List Nat := [0, 1]

/-- Waves of up to 500 query tiles, one per logical core (R246). -/
def waves : Nat → List Nat → List (List Nat)
  | 0, _ => []
  | n + 1, ts => ts.take 500 :: waves n (ts.drop 500)

/-- A crucible's query tiles: by increasing head, then increasing position, as head × tiles of the sequence + tile. -/
def Attn.tilesOf (a : Attn) (r : Nat) (c : Cru) : List Nat :=
  let n := (a.tokens + 63) / 64
  let mine := ((List.range n).filter (fun t => decide (t / 64 ∈ a.span r)))
  (((List.range a.heads).filter (fun h => headCrucible h == c)).map (fun h => mine.map (h * n + ·))).flatten

/-- Forwarding at ring step j: block by block in increasing position, each with its fence and its signal (R244). A received block goes
on once it has arrived. -/
def Attn.forwardSpan (a : Attn) (back : Bool) (r j : Nat) : List RingAct :=
  if j + 1 < a.ring then
    .takeFree ((j + 1) % 2) :: ((a.span (a.spanAt back r j)).map (fun b =>
      (if j = 0 then [] else [RingAct.awaitBlock b (j % 2)]) ++
        [.sendBlock b ((j + 1) % 2) (a.next back r), .fence, .signalArrival b (a.next back r)])).flatten
  else []

/-- Ring step j of a crucible: the forwarding, each wave over the whole span, and the free signal to the predecessor. -/
def Attn.ringStep (a : Attn) (back : Bool) (r : Nat) (c : Cru) (j : Nat) : List RingAct :=
  let n := (a.tokens + 63) / 64
  let ts := a.tilesOf r c
  let span := a.span (a.spanAt back r j)
  let meets := fun (t k : Nat) => if back then a.anySeen k t else a.anySeen t k
  let work := ((waves ((ts.length + 499) / 500) ts).map (fun w =>
    [RingAct.restoreWave w] ++ ((span.map a.chunks).flatten.filterMap (fun k =>
      let need := w.filter (fun t => meets (t % n) k)
      if need.isEmpty then none else some (.chunk k need))) ++ [.saveWave j w])).flatten
  a.forwardSpan back r j ++ (if j = 0 ∨ j + 1 < a.ring then [] else span.map (fun b => .awaitBlock b (j % 2))) ++ work ++
    (match ringSlot j with
     | some s => if j + 2 < a.ring then [.signalFree s (a.next (!back) r)] else []
     | none => [])

/-- The crucible's program for one pass of the ring: the forward pass and the query kernel, or with `back` the key kernel. -/
def Attn.ringProgram (a : Attn) (back : Bool) (r : Nat) (c : Cru) : List RingAct := ((List.range a.ring).map (a.ringStep back r c)).flatten

/-- The chunks that a program computes for a tile, in order. -/
def ringChunks (p : List RingAct) (tile : Nat) : List Nat :=
  p.filterMap (fun act => match act with
    | .chunk k ts => if tile ∈ ts then some k else none
    | _ => none)

/-! ### Backward (R247–R249) -/

/-- p, and g, of a (row, key) pair; D, m and l are the row's. A masked pair has +0 for both (R248). -/
def Attn.pair (a : Attn) (h : HeadData) (dO : Mat) (st : SoftRow) (d : W32) (q k : Nat) : W32 × W32 :=
  if a.sees q k then
    let s := score (matRow h.q q) (matRow h.k k)
    let p := fp32Exp2 (fp32Sub (fp32Fma s (kappa a.tau) (fp32Neg st.m)) st.l)
    let dp := score (matRow dO q) (matRow h.v k)
    (p, fp32Mul (fp32Mul (fp32Sub dp d) p) a.tau)
  else (0, 0)

/-- A head's D by query row: rowdot(dO, O), with O as it was kept (R247). -/
def rowD (dO : Mat) (st : List SoftRow) : List W32 := List.zipWith (fun g (r : SoftRow) => rowDot g r.y) dO st

/-- A row of sums of w × x over `ws`, in order, one chain for each column (R176). -/
def chainRows (n : Nat) (ws : List (W32 × List W32)) : List W32 :=
  (List.range n).map (fun k => chainSum (productStage false) (ws.map (fun w => (w.1, w.2.getD k 0))))

/-- How p or g of a pair enters a product whose operand format is FMT: not stated (log 127). A masked pair enters as +0. -/
def Attn.operand (a : Attn) (q k : Nat) (w : W32) : W32 := if a.sees q k then Config.gradOperand a.fmt w else 0

/-- p and g of a pair, with the row's statistics and D. -/
def Attn.pairOf (a : Attn) (h : HeadData) (dO : Mat) (st : List SoftRow) (q k : Nat) : W32 × W32 :=
  a.pair h dO (st.getD q ⟨[], 0, 0⟩) ((rowD dO st).getD q 0) q k

/-- A row of dQ over keys, in FP32. -/
def Attn.dqRow (a : Attn) (h : HeadData) (dO : Mat) (st : List SoftRow) (keys : List Nat) (q : Nat) : List W32 :=
  chainRows a.dim (keys.map (fun k => (a.operand q k (a.pairOf h dO st q k).2, matRow h.k k)))

/-- The query kernel: dQ over keys in the visit order. -/
def Attn.headDQ (a : Attn) (h : HeadData) (dO : Mat) (st : List SoftRow) : Mat :=
  (List.range a.tokens).map (fun q => a.dqRow h dO st ((a.visits (q / 64)).map a.group64).flatten q)

/-- The queries that a key tile of rank s takes in its first `n` ring steps. As in the query kernel, 64 queries all of whose pairs are masked are skipped: the
backward products are twice the forward pass's two, for the same pairs (R250, log 134). -/
def Attn.queriesFor (a : Attn) (s tile n : Nat) : List Nat :=
  (((((List.range n).map (fun j => ((a.span (a.spanAt true s j)).map a.chunks).flatten)).flatten).filter
    (fun t => a.anySeen t tile)).map a.group64).flatten

/-- A row of dK and one of dV over queries, in FP32. -/
def Attn.dkvRow (a : Attn) (h : HeadData) (dO : Mat) (st : List SoftRow) (qs : List Nat) (k : Nat) : List W32 × List W32 :=
  let pg := qs.map (fun q => (q, a.pairOf h dO st q k))
  (chainRows a.dim (pg.map (fun e => (a.operand e.1 k e.2.2, matRow h.q e.1))),
   chainRows a.dim (pg.map (fun e => (a.operand e.1 k e.2.1, matRow dO e.1))))

/-- The key kernel: dK and dV of a head over queries, in span order and then increasing position. -/
def Attn.headDKV (a : Attn) (h : HeadData) (dO : Mat) (st : List SoftRow) : Mat × Mat :=
  let rows := (List.range a.tokens).map (fun k => a.dkvRow h dO st (a.queriesFor (a.rankOf k) (k / 64) a.ring) k)
  (rows.map Prod.fst, rows.map Prod.snd)

/-! ### What the ring carries, and what a wave leaves in HBM (R244, R246, R249) -/

/-- Codes of an even number of bits, packed from the low bits of the first byte on. -/
def packCodes (bits : Nat) : List Nat → List Byte
  | [] => []
  | [k] => leBytes ((bits + 7) / 8) k
  | k :: l :: ks => if bits = 4 then BitVec.ofNat 8 (k % 16 + 16 * (l % 16)) :: packCodes bits ks
                    else leBytes (bits / 8) k ++ packCodes bits (l :: ks)

/-- Values in a FORMAT as they stand in memory. -/
def formatBytes (f : Nat) (ws : List W32) : List Byte := packCodes (formatBits (BitVec.ofNat 4 f)) (ws.map (fun w => narrowCode f none (fp32 w)))

def wordBytes (ws : List W32) : List Byte := (ws.map (fun w => leBytes 4 w.toNat)).flatten

/-- Heads of a crucible. -/
def Attn.headsIn (a : Attn) (c : Cru) : List Nat := (List.range a.heads).filter (fun h => headCrucible h == c)

/-- Tokens of block b. -/
def Attn.tokensOf (a : Attn) (b : Nat) : List Nat :=
  (List.range (min (blockTokens * (b + 1)) a.tokens - blockTokens * b)).map (blockTokens * b + ·)

/-- The data of a block that a crucible forwards for its heads: rows of the matrices in FMT, then words of each row in FP32. -/
def Attn.blockData (a : Attn) (c : Cru) (b : Nat) (ms : List Mat) (words : Nat → Nat → List W32) : List Byte :=
  ((a.headsIn c).map (fun h =>
    (ms.map (fun m => ((a.tokensOf b).map (fun i => formatBytes a.fmt (((matRow m i).drop (h * a.dim)).take a.dim))).flatten)).flatten ++
      ((a.tokensOf b).map (fun i => wordBytes (words h i))).flatten)).flatten

/-- A query row after ring step j: the spans up to it are behind it. -/
def Attn.rowAfter (a : Attn) (h : HeadData) (j q : Nat) : AttnRow :=
  let r := a.rankOf q
  (((List.range (j + 1)).map (fun i => a.spanChunks (q / 64) (a.spanAt false r i))).flatten).foldl
    (fun x c => a.chunkRow h (a.anyMasked (q / 64) c) c q x) (AttnRow.start a.dim)

/-- Running state between waves: m, the λ lanes and O (R246, R252). -/
def AttnRow.bytes (x : AttnRow) : List Byte := leBytes 4 x.m.toNat ++ wordBytes x.lam ++ wordBytes x.o

/-- The keys that a query row has taken after ring step j. -/
def Attn.keysAfter (a : Attn) (j q : Nat) : List Nat :=
  (((List.range (j + 1)).map (fun i => a.spanChunks (q / 64) (a.spanAt false (a.rankOf q) i))).flatten.map a.group64).flatten

/-- The operator backward: dQ, dK and dV in FP32, from dO and the kept statistics. -/
def Attn.backward (a : Attn) (q k v dO : Mat) (st : List (List SoftRow)) : List Mat :=
  let hs := (List.range a.heads).map (fun h =>
    let x := a.headData q k v h
    let g := a.headCut dO h
    (a.headDQ x g (st.getD h []), a.headDKV x g (st.getD h [])))
  [Mat.beside (hs.map (fun e => e.1)) a.tokens, Mat.beside (hs.map (fun e => e.2.1)) a.tokens,
   Mat.beside (hs.map (fun e => e.2.2)) a.tokens]

/-! ### Products, memory and traffic (R250–R252) -/

/-- Query tiles and chunks that meet: a tile takes chunk c ≤ t under a causal mask, and within the window only those near it. -/
def Attn.tileChunks (a : Attn) (tile : Nat) : Nat :=
  let n := (a.tokens + 63) / 64
  if a.mask = 0 then n
  else if a.mask = 1 then tile + 1
  else min tile ((a.window + 62) / 64) + 1

/-- Tokens of a rank's span. -/
def Attn.spanTokens (a : Attn) (r : Nat) : Nat := ((a.span r).map (fun b => min blockTokens (a.tokens - blockTokens * b))).sum

/-- Tile and chunk pairs of rank r, for one head. -/
def Attn.pairs (a : Attn) (r : Nat) : Nat :=
  (((a.span r).map a.chunks).flatten.map a.tileChunks).sum

/-- Query tiles that a key tile meets. -/
def Attn.keyTiles (a : Attn) (tile : Nat) : Nat :=
  let n := (a.tokens + 63) / 64
  if a.mask = 0 then n
  else if a.mask = 1 then n - tile
  else min (n - 1 - tile) ((a.window + 62) / 64) + 1

/-- Tile and chunk pairs of the keys of rank r, for one head. -/
def Attn.keyPairs (a : Attn) (r : Nat) : Nat := (((a.span r).map a.chunks).flatten.map a.keyTiles).sum

/-- Bytes of an element of FMT. -/
def Attn.elem (a : Attn) : Nat := if a.fmt = 5 then 2 else 1

/-- Streaming cycles of one product of a tile and a chunk (R173, R251): half of the forward update's two products. -/
def Attn.productCycles (a : Attn) : Nat := 64 * (a.dim / 32) * a.elem

/-- Amounts of a rank with T_s tokens, for one head (R252): home tensors, statistics, ring slots, running state, what is sent in the
forward pass and by the query kernel, what the key kernel sends, and what the backward pass adds. -/
structure AttnAmounts where
  home : Nat
  stats : Nat
  slots : Nat
  running : Nat
  sent : Nat
  sentKey : Nat
  backward : Nat
  deriving DecidableEq, Repr

def Attn.amounts (a : Attn) (ts : Nat) : AttnAmounts :=
  let e := a.elem
  let d := a.dim
  ⟨(3 * e + 2) * d * ts, 8 * ts, 4 * e * d * ts, (4 * d + 260) * ts, (a.ring - 1) * 2 * e * d * ts, (a.ring - 1) * (2 * e * d + 12) * ts,
   4 * ts + 8 * d * ts⟩

end Sys2Proof.Machine
end

