-- ==== Sys2Proof/Machine/Plan.lean ====
section
/-!
DEFINITION. Tundish's procedure over a whole job: tilings and streaming cycles, stage cuts, schedule mode, the eight regions of every
crucible, tiles, and the hints (R173–R175, R178, R179, R223, R237, R250, R252, R259–R264, R266–R268, R287–R297, R300).
-/
namespace Sys2Proof.Machine

/-! ### Tilings and streaming cycles (R140, R173–R175) -/

def ceilDiv (a b : Nat) : Nat := (a + b - 1) / b

/-- Cycles of a row slot for operands of a FORMAT (R140). -/
def slotCycles (format : Nat) : Nat := if format = 7 then 6 else if format = 5 ∨ format = 6 then 2 else 1

/-- The ways a product is tiled (R173): its stationary tile and its streamed rows follow from it. -/
inductive Tiling where
  | forward
  | dw
  | dxA
  | dxB
  deriving DecidableEq, Repr

/-- How a tiling's tmacs run for an M × K by K × N layer: rows and columns of the matrix that gives stationary tiles of 32 × 64, whether
tld.w reads it with TRANSPOSE, whether the streamed operand is read with TRANSPOSE, and whether the accumulator holds the transpose of the
product (R173). -/
structure TilingForm where
  rows : Nat
  cols : Nat
  tileTransposed : Bool
  streamTransposed : Bool
  outTransposed : Bool
  deriving DecidableEq, Repr

def Tiling.form (t : Tiling) (m k n : Nat) : TilingForm :=
  match t with
  | .forward => ⟨k, n, false, false, false⟩
  | .dw => ⟨m, n, false, true, false⟩
  | .dxA => ⟨n, k, true, false, false⟩
  | .dxB => ⟨n, m, true, false, true⟩

/-- Streamed rows. -/
def Tiling.streamed (t : Tiling) (m k : Nat) : Nat :=
  match t with
  | .forward | .dxA => m
  | .dw | .dxB => k

/-- The tiling of dX (R174). -/
def dxTiling (m k : Nat) : Tiling := if k % 64 = 0 then .dxA else if m % 64 = 0 then .dxB else .dxA

/-- Streaming cycles of the product of an M × K by K × N layer (R173). -/
def Tiling.cycles (t : Tiling) (m k n c : Nat) : Nat :=
  let f := t.form m k n
  ceilDiv f.rows 32 * ceilDiv f.cols 64 * t.streamed m k * c

/-! ### What a stage group computes and what a member holds (R287) -/

def Body.microBatches (b : Body) : Nat := leField b 36 2
def Body.kept (b : Body) (t : Nat) : Bool := (List.range b.nKeep).any (fun i => leField b (b.keepAt i) 4 == t)
def TensorRec.isEmpty (t : TensorRec) : Bool := t.rows * t.cols == 0
/-- An operator on an empty tensor does no work (R23, R279). -/
def Body.idleOp (b : Body) (j : Nat) : Bool := ((b.op j).used ++ (b.op j).made).any (fun i => (b.tensor i).isEmpty)

/-- The operator that produces a tensor. -/
def Body.producer (b : Body) (t : Nat) : Option Nat := firstIx b.nOps (fun j => decide (t ∈ (b.op j).made))

/-- Operators whose token rows are split over the members. -/
def splitsRows (code : Nat) : Bool := code == 0x10 || code == 0x11 || code == 0x12 || code == 0x30

/-- The part of a tensor that a member holds: its rows, in order, the first column and the columns. -/
structure Part where
  rows : List Nat
  col : Nat
  cols : Nat
  deriving DecidableEq, Repr

/-- The layout a hint gives operator j, among the hints in force. -/
def layoutHint (hs : List Hint) (j : Nat) : Option Nat := (hs.find? (fun h => h.kind == 5 && h.target == j)).map Hint.v0

def Body.attn (b : Body) (hs : List Hint) (j : Nat) : Attn := attnOf (b.op j).params (layoutHint hs j)

/-- Rows lo to hi - 1. -/
def rowsFrom (lo hi : Nat) : List Nat := (List.range (hi - lo)).map (lo + ·)

/-- Tokens of a rank's span, in order. -/
def Attn.spanRows (a : Attn) (r : Nat) : List Nat :=
  ((a.span r).map (fun b => rowsFrom (blockTokens * b) (min (blockTokens * (b + 1)) a.tokens))).flatten

/-- Member k of g holds a tensor by columns, by rows where its operator splits those, and by its span where attention produces it. -/
def Body.part (b : Body) (hs : List Hint) (g k t : Nat) : Part :=
  let v := b.tensor t
  let byCols : Part := ⟨rowsFrom 0 v.rows, (memberCols v.cols g k).1, (memberCols v.cols g k).2⟩
  match b.producer t with
  | some j =>
    if splitsRows (b.op j).code then ⟨rowsFrom (v.rows * k / g) (v.rows * (k + 1) / g), 0, v.cols⟩
    else if (b.op j).code = 0x20 then ⟨(b.attn hs j).spanRows k, 0, v.cols⟩
    else byCols
  | none => byCols

/-! ### Backward products and recomputation (R178, R250, R264, R268) -/

/-- The operator's activation inputs need a gradient. -/
def OpRec.inputGrad (p : OpRec) : Bool := p.flags % 2 == 0

/-- The backward products of an operator, by its marks (R178, R268): of a LINEAR, dW unless its weight is frozen, and dX unless its input
needs no gradient; of a MATMUL, both, or neither. -/
def Body.backProducts (b : Body) (j : Nat) : List Tiling :=
  let p := b.op j
  let dx := dxTiling (b.tensor (p.ins.getD 0 0)).rows (b.tensor (p.ins.getD 0 0)).cols
  if !b.training then []
  else if p.code = 1 then
    (if (b.tensor (p.ins.getD 1 0)).kind == 1 then [.dw] else []) ++ (if p.inputGrad then [dx] else [])
  else if p.code = 2 then (if p.inputGrad then [.dw, dx] else [])
  else []

/-- The operator's output is recomputed in a backward pass: it lies in a segment between kept outputs (R264). -/
def Body.recomputed (b : Body) (j : Nat) : Bool := b.training && (b.op j).made.any (fun t => !b.kept t)

/-- Forward, backward and recomputed streaming cycles per micro-batch, and extra block drains (R301). -/
structure OpCycles where
  fwd : Nat
  back : Nat
  redo : Nat
  drains : Nat
  deriving DecidableEq, Repr

def OpCycles.none : OpCycles := ⟨0, 0, 0, 0⟩

/-- Output tiles of 64 columns and up to 512 rows (R288). -/
def tileCount (rows cols : Nat) : Nat := ceilDiv rows 512 * ceilDiv cols 64

/-- Cycles of an invocation of a user kernel over its cores, of which each of the four crucibles has CORES (R298, R300, log 34). -/
def Kernel.coreCycles (q : Kernel) : Nat := q.cycles * q.cores * 4

/-- Cycles of member k's part of operator j: in attention the query kernel's products are those of the rank's own rows, the key kernel's those
of its own keys (R250). Operators of the vector unit stream nothing. -/
def Body.opCycles (b : Body) (ks : List Kernel) (hs : List Hint) (g k j : Nat) : OpCycles :=
  let p := b.op j
  let again := fun (n : Nat) => if b.recomputed j then n else 0
  if b.idleOp j then OpCycles.none
  else if p.code = 1 ∨ p.code = 2 then
    let x := b.tensor (p.ins.getD 0 0)
    let n := (memberCols (b.tensor (p.ins.getD 1 0)).cols g k).2
    let cyc := fun (t : Tiling) => t.cycles x.rows x.cols n (slotCycles x.format)
    let back := b.backProducts j
    let drains := blockDrains x.cols * tileCount x.rows n +
      (back.map (fun t => if t = .dw then blockDrains (b.microBatches * x.rows) * tileCount x.cols n
        else blockDrains n * tileCount x.rows x.cols)).sum
    ⟨cyc .forward, (back.map cyc).sum, again (cyc .forward), drains⟩
  else if p.code = 0x20 then
    let a := b.attn hs j
    let one := a.heads * a.pairs k * a.productCycles
    let key := a.heads * a.keyPairs k * a.productCycles
    if b.training && p.inputGrad then ⟨2 * one, one + 3 * key, 2 * one + key + again (2 * one), 0⟩ else ⟨2 * one, 0, again (2 * one), 0⟩
  else if 0x8000 ≤ p.code then
    match ks.find? (fun q => q.code.toNat == p.code) with
    | none => OpCycles.none
    | some q =>
      let back := (ks.find? (fun r => r.code == q.backward && decide (0x8000 ≤ r.code.toNat))).map Kernel.coreCycles
      ⟨q.coreCycles, if b.training then back.getD 0 else 0, again q.coreCycles, 0⟩
  else OpCycles.none

/-- C(o) for a stage group (R290). -/
def Body.cost (b : Body) (ks : List Kernel) (hs : List Hint) (g j : Nat) : Nat :=
  ((List.range g).map (fun k => let c := b.opCycles ks hs g k j; c.fwd + c.back + c.redo)).sum

/-! ### Stage cuts (R290) -/

/-- Running sums of a list. -/
def runningSums (acc : Nat) : List Nat → List Nat
  | [] => []
  | c :: cs => (acc + c) :: runningSums (acc + c) cs

/-- The first operator after stage s: one past the largest index whose running sum is within the stage's share, at least one operator
being left for every later stage. -/
def stageEnd (costs : List Nat) (stages s : Nat) : Nat :=
  let bound := ceilDiv ((s + 1) * costs.sum) stages
  let room := costs.length - (stages - 1 - s)
  (((runningSums 0 costs).take room).takeWhile (fun v => decide (v ≤ bound))).length

def Body.isWeight (b : Body) (t : Nat) : Bool := (b.tensor t).kind == 1 || (b.tensor t).kind == 2

/-- The lowest-indexed operator that uses a weight which a cut at `v` would leave in two stages. -/
def Body.sharedBefore (b : Body) (v : Nat) : Option Nat :=
  firstIx v (fun j => (b.op j).used.any (fun t => b.isWeight t &&
    (List.range (b.nOps - v)).any (fun i => decide (t ∈ (b.op (v + i)).used))))

/-- A cut moved back until it falls between no two uses of one weight. -/
def Body.moveBack (b : Body) : Nat → Nat → Nat
  | 0, v => v
  | n + 1, v =>
    match b.sharedBefore v with
    | some j => Body.moveBack b n j
    | none => v

/-- The first operator of stage k: a hint's, or what the costs give. -/
def Body.cutOf (b : Body) (hs : List Hint) (costs : List Nat) (k : Nat) : Nat :=
  match hs.find? (fun h => h.kind == 2 && h.v0 == k) with
  | some h => h.target
  | none => b.moveBack b.nOps (stageEnd costs b.stages (k - 1))

/-- The first operator of each stage. -/
def Body.planStarts (b : Body) (ks : List Kernel) (hs : List Hint) (g : Nat) : List Nat :=
  let costs := (List.range b.nOps).map (b.cost ks hs g)
  (List.range b.stages).map (fun k => if k = 0 then 0 else b.cutOf hs costs k)

/-- The first stage that holds no operator. -/
def emptyStage (starts : List Nat) (nOps : Nat) : Option Nat :=
  firstIx starts.length (fun k => decide (starts.getD (k + 1) nOps ≤ starts.getD k 0))

/-! ### The schedule (R259–R261) -/

/-- Warm-up forwards of stage s (R260). -/
def warmups (side : Bool) (stages m s : Nat) : Nat := if side then min (2 * stages - 1 - 2 * s) m else min (stages - 1 - s) m

/-- The order in which stage s issues its passes (R260). A forward-only job has no backward pass. -/
def passOrder (side training : Bool) (stages m s : Nat) : List Pass :=
  let w := warmups side stages m s
  if training then
    (List.range w).map (Pass.mk false) ++ ((List.range (m - w)).map (fun k => [Pass.mk false (w + k), Pass.mk true k])).flatten ++
      (List.range w).map (fun k => Pass.mk true (m - w + k))
  else (List.range m).map (Pass.mk false)

/-- Micro-batches whose kept activations a stage reserves space for (R261). -/
def peakHeld (side : Bool) (stages m s : Nat) : Nat := if side then min m (2 * (stages - s)) else min m (stages - s)

/-- What the layout of a job's memory and its times depend on besides the body. -/
structure Shape where
  /-- The active modules with their twins (R285). -/
  act : List (Nat × Nat)
  kernels : List Kernel
  /-- Bytes of ring r, once it is defined (R453). -/
  rings : List (Nat × Nat)
  deriving DecidableEq, Repr

/-- The registration of an operator's user kernel. -/
def Shape.registered (v : Shape) (b : Body) (j : Nat) : Option Kernel := v.kernels.find? (fun q => q.code.toNat == (b.op j).code)

/-- Predicted nanoseconds of the passes of a stage on `p` cores a crucible, 0 for all of them: Tundish's own (R300, log 34). -/
def Body.passTime (b : Body) (v : Shape) (stage p : Nat) (back : Bool) : Nat :=
  Config.passTime b v.act ((List.range b.nOps).map (fun j =>
    match v.registered b j with
    | some q => (q.cycles, q.hbmRead, q.hbmWrite)
    | none => (0, 0, 0))) stage p back

def maxOf (xs : List Nat) : Nat := xs.foldl max 0

/-- The largest difference of a partition's two times over the stages. -/
def Body.imbalance (b : Body) (v : Shape) (p : Nat) : Nat :=
  maxOf ((List.range b.stages).map (fun s =>
    let f := b.passTime v s p false
    let r := b.passTime v s p true
    (f - r) + (r - f)))

/-- P, of the multiples of 16 from 16 to 480: a hint's, or the one that balances best, the smaller on a tie (R291). -/
def Body.partition (b : Body) (v : Shape) (hs : List Hint) : Nat :=
  match hs.find? (fun h => h.kind == 4) with
  | some h => h.v0
  | none => (List.range 29).foldl (fun best i => if b.imbalance v (32 + 16 * i) < b.imbalance v best then 32 + 16 * i else best) 16

/-- The compute phase in alternating mode, and in side-by-side mode (R261). The formulas are stated for stages of equal times; where the stages
differ the model takes the largest time over them (log 158, DESIGN CHOICE). -/
def Body.alternating (b : Body) (v : Shape) : Nat :=
  (b.microBatches + b.stages - 1) *
    maxOf ((List.range b.stages).map (fun s => b.passTime v s 0 false + b.passTime v s 0 true))

def Body.sideBySide (b : Body) (v : Shape) (p : Nat) : Nat :=
  (b.microBatches + 2 * b.stages - 1) *
    maxOf ((List.range b.stages).map (fun s => max (b.passTime v s p false) (b.passTime v s p true)))

/-! ### Tiles (R294) -/

/-- The tiles of a part are numbered row block first: the row block varies fastest (log 128). -/
structure TilePlace where
  row : Nat
  rows : Nat
  col : Nat
  cols : Nat
  deriving DecidableEq, Repr

def tilePlace (rows cols t : Nat) : TilePlace :=
  let r := 512 * (t % ceilDiv rows 512)
  let c := 64 * (t / ceilDiv rows 512)
  ⟨r, min 512 (rows - r), c, min 64 (cols - c)⟩

/-- The crucible of tile t of n. -/
def tileCrucible (n t : Nat) : Nat := 4 * t / n

/-- The tiles of a crucible. -/
def tilesIn (rows cols c : Nat) : List Nat := (List.range (tileCount rows cols)).filter (fun t => tileCrucible (tileCount rows cols) t == c)

/-- The logical core of tile j of a crucible, in a partition of `n` cores from core `first` on. -/
def tileCore (first n j : Nat) : Nat := first + j % n

/-- First core and cores of a pass's partition (R259). -/
def passCores (side : Bool) (p : Nat) (back : Bool) : Nat × Nat := if side then (if back then (p, 500 - p) else (0, p)) else (0, 500)

/-- The core of tile t of a part: crucible, and logical core of the pass's partition. -/
def tileHome (side : Bool) (p : Nat) (back : Bool) (rows cols t : Nat) : Nat × Nat :=
  let n := tileCount rows cols
  let c := tileCrucible n t
  let (lo, k) := passCores side p back
  (c, tileCore lo k (t - ((List.range t).filter (fun u => tileCrucible n u != c)).length))

/-- Bytes of a part's tiles in crucible c: every column range lives where it is produced. -/
def Part.bytesIn (q : Part) (bits c : Nat) : Nat :=
  let n := q.rows.length
  ((tilesIn n q.cols c).map (fun t => let v := tilePlace n q.cols t; (v.rows * v.cols * bits + 7) / 8)).sum

/-- Heads of a crucible. -/
def Attn.headsOf (a : Attn) (c : Nat) : Nat := ((List.range a.heads).filter (fun h => (headCrucible h).val == c)).length

/-- A TIER hint in force puts a tensor into the scratchpad or into another module's HBM (R296, log 130). -/
def elsewhere (hs : List Hint) (t : Nat) : Bool := hs.any (fun h => h.kind == 1 && h.target == t && h.v0 != 0)

/-- Bytes of a part in crucible c: what attention produces is in the crucible that computes the head (R238). -/
def Body.partBytes (b : Body) (hs : List Hint) (g k t c : Nat) : Nat :=
  let q := b.part hs g k t
  let bits := (b.tensor t).bits
  if elsewhere hs t then 0
  else match b.producer t with
  | some j =>
    if (b.op j).code = 0x20 then (b.attn hs j).headsOf c * (((b.attn hs j).dim * q.rows.length * bits + 7) / 8) else q.bytesIn bits c
  | none => q.bytesIn bits c

/-- Where the working space of a scratchpad starts: tensors pinned by a TIER hint in force have offsets below 0x40000. -/
def scratchWork (hs : List Hint) : Nat := if hs.any (fun h => h.kind == 1 && h.v0 == 1) then 0x40000 else 0

/-! ### Kept activations and working space (R252, R261, R263, R264, R292) -/

/-- The stage's own input: tensors it uses that no operator of it produces, other than weights (R263). -/
def Body.stageInputs (b : Body) (starts : List Nat) (stage : Nat) : List Nat :=
  let ops := stageOps starts b.nOps stage
  let made := (ops.map (fun j => (b.op j).made)).flatten
  ((ops.map (fun j => (b.op j).used)).flatten.filter (fun t => !b.isWeight t && !decide (t ∈ made))).eraseDups

/-- Outputs of the stage that a later stage uses. -/
def Body.stageOutputs (b : Body) (starts : List Nat) (stage : Nat) : List Nat :=
  let made := ((stageOps starts b.nOps stage).map (fun j => (b.op j).made)).flatten
  made.filter (fun t => (List.range b.nOps).any (fun j => decide (t ∈ (b.op j).used) && !decide (j ∈ stageOps starts b.nOps stage)))

/-- Bytes of row statistics that crucible c keeps of operator j (R230, R232, R263): of attention by head, of the others a quarter of the
member's rows. -/
def Body.statBytes (b : Body) (hs : List Hint) (g k j c : Nat) : Nat :=
  let p := b.op j
  let rows := (quarter (b.part hs g k (p.outs.getD 0 0)).rows.length c).2
  if p.code = 0x10 ∨ p.code = 0x11 then 8 * rows
  else if p.code = 0x12 then 4 * rows
  else if p.code = 0x20 then
    let a := b.attn hs j
    a.headsOf c * (a.amounts (a.spanTokens k)).stats
  else 0

/-- An operator's row statistics are kept: those of softmax and attention always, those of normalisation in training with its output
(R230, R263). -/
def Body.keepsStats (b : Body) (j : Nat) : Bool :=
  (b.op j).code == 0x10 || (b.op j).code == 0x20 || (b.training && (b.op j).made.all b.kept)

/-- Kept bytes of one micro-batch in crucible c of a member: in training the stage's input and the kept outputs, and row statistics
(R230, R252, R263, R266). -/
def Body.keptBytes (b : Body) (hs : List Hint) (starts : List Nat) (g stage k c : Nat) : Nat :=
  let ops := stageOps starts b.nOps stage
  (if b.training then ((b.stageInputs starts stage).map (fun t => b.partBytes hs g k t c)).sum +
      (ops.map (fun j => (((b.op j).made.filter b.kept).map (fun t => b.partBytes hs g k t c)).sum)).sum else 0) +
    (ops.map (fun j => if b.keepsStats j then b.statBytes hs g k j c else 0)).sum

/-- Segments of a stage: runs of operators between kept outputs, each with the operators recomputed (R264). -/
def Body.segments (b : Body) : List Nat → List Nat → List (List Nat)
  | [], seg => if seg.isEmpty then [] else [seg]
  | j :: js, seg => if b.recomputed j then Body.segments b js (seg ++ [j]) else (if seg.isEmpty then [] else [seg]) ++ Body.segments b js []

/-- The most that a segment's recomputed outputs take. -/
def Body.recomputeBytes (b : Body) (hs : List Hint) (starts : List Nat) (g stage k c : Nat) : Nat :=
  maxOf ((b.segments (stageOps starts b.nOps stage) []).map (fun seg =>
    (seg.map (fun j => ((b.op j).made.map (fun t => b.partBytes hs g k t c)).sum)).sum))

/-- The most that an attention operator takes: Q, K, V and O at home, ring slots and running state of the crucible's heads, and in training
D and the key kernel's state (R237, R243, R246, R252). An O that is kept counts in region 7. -/
def Body.attnBytes (b : Body) (hs : List Hint) (starts : List Nat) (stage k c : Nat) : Nat :=
  maxOf ((stageOps starts b.nOps stage).map (fun j =>
    if (b.op j).code = 0x20 then
      let a := b.attn hs j
      let m := a.amounts (a.spanTokens k)
      a.headsOf c * (m.home - (if b.training && (b.op j).made.all b.kept then 2 * a.dim * a.spanTokens k else 0) + m.slots + m.running + (if b.training then m.backward else 0))
    else 0))

/-- Working space: the largest recomputation, the largest attention operator, and the stage's transfer buffers of one micro-batch. How
the needs meet in time is not stated; they are added (log 129). -/
def Body.workBytes (b : Body) (hs : List Hint) (starts : List Nat) (g stage k c : Nat) : Nat :=
  (if b.training then b.recomputeBytes hs starts g stage k c else 0) + b.attnBytes hs starts stage k c +
    (((b.stageInputs starts stage).filter (fun t => (b.tensor t).kind != 0) ++ b.stageOutputs starts stage).map
      (fun t => b.partBytes hs g k t c)).sum

/-! ### Memory (R292, R293) -/

def Shape.group (v : Shape) (b : Body) : Nat := groupSize v.act.length b.stages b.replicas

/-- Stage and member of the twin of the module at position i. -/
def Shape.twinRole (v : Shape) (b : Body) (i : Nat) : Nat × Nat :=
  let g := v.group b
  match v.act.findIdx? (fun e => e.1 == (v.act.getD i (0, 0)).2) with
  | some j => roleAt b.stages g j
  | none => roleAt b.stages g i

/-- Rings the body names, in rising number. -/
def Body.rings (b : Body) : List Nat :=
  let ns := (List.range b.nTensors).filterMap (fun i =>
    let t := b.tensor i
    if t.kind == 0 || t.kind == 4 then some t.source else none)
  (List.range 256).filter (fun r => decide (r ∈ ns))

/-- Bytes of the tensors that a TIER hint in force puts into a module's HBM (R296, log 130). -/
def Body.tierBytes (b : Body) (hs : List Hint) (m : Nat) : Nat :=
  ((hs.filter (fun h => h.kind == 1 && h.v0 == 2 && h.v1 == m)).map (fun h =>
    let t := b.tensor h.target
    (t.rows * t.cols * t.bits + 7) / 8)).sum

/-- The sizes of the eight regions of crucible c of the module at position i. -/
def Body.regions (b : Body) (v : Shape) (hs : List Hint) (starts : List Nat) (side : Bool) (i c : Nat) : List Nat :=
  let g := v.group b
  let (stage, k) := roleAt b.stages g i
  let (ts, tk) := v.twinRole b i
  let own := if b.training then (quarter (b.shardGroups starts g stage k) c).2 else 0
  let twin := if b.training then (quarter (b.shardGroups starts g ts tk) c).2 else 0
  [0x40000000, 2 * (own + twin) * 65536, 2 * (own + twin) * 1024, (quarter (b.frozenUnits starts g stage k) c).2 * 65536, own * 65536,
   ((b.rings.filter (fun r => r % 4 == c)).map (fun r => toPage (((v.rings.find? (fun e => e.1 == r)).map Prod.snd).getD 0))).sum,
   peakHeld side b.stages b.microBatches stage * b.keptBytes hs starts g stage k c,
   b.workBytes hs starts g stage k c + (b.tierBytes hs (v.act.getD i (0, 0)).1 + 3) / 4]

/-- The first module, by logical index, one of whose crucibles has no room. -/
def Body.noRoom (b : Body) (v : Shape) (hs : List Hint) (starts : List Nat) (side : Bool) : Option Nat :=
  (firstIx v.act.length (fun i => (List.range 4).any (fun c => decide (2 ^ 36 < regionStart (b.regions v hs starts side i c) 8)))).map
    (fun i => (v.act.getD i (0, 0)).1)

/-! ### Hints (R296, R297) -/

/-- Two hints of one KIND and TARGET that differ. -/
def Hint.disagrees (p q : Hint) : Bool := q.kind == p.kind && q.target == p.target && (q.v0 != p.v0 || q.v1 != p.v1)

/-- The largest part of a tensor that a member holds, in bytes. -/
def Body.largestPart (b : Body) (hs : List Hint) (g t : Nat) : Nat :=
  maxOf ((List.range g).map (fun k => let q := b.part hs g k t; (q.rows.length * q.cols * (b.tensor t).bits + 7) / 8))

/-- The placement stays valid under the other rules with hint h beside those in force. A stage begins at one operator, so a second cut of it
elsewhere cannot be followed. An ATTN_LAYOUT other than the LAYOUT that the operator itself gives cannot either (log 159, DESIGN CHOICE):
the parameter is part of what the operator is. -/
def Body.hintValid (b : Body) (v : Shape) (hs : List Hint) (h : Hint) : Bool :=
  let g := v.group b
  let all := hs ++ [h]
  match h.kind with
  | 1 =>
    if h.v0 = 1 then
      decide (((all.filter (fun q => q.kind == 1 && q.v0 == 1)).map (fun q => b.largestPart hs g q.target)).sum ≤ 0x40000)
    else if h.v0 = 2 then (b.tensor h.target).kind != 1 && v.act.any (fun e => e.1 == h.v1)
    else true
  | 2 =>
    if hs.any (fun q => q.kind == 2 && q.v0 == h.v0 && q.target != h.target) then false
    else if h.v0 = 0 then h.target == 0
    else (b.sharedBefore h.target).isNone && (emptyStage (b.planStarts v.kernels all g) b.nOps).isNone
  | 5 =>
    let f := leField (b.op h.target).params
    (f 22 1 == 0xFF || f 22 1 == h.v0) && (h.binding == 1 || h.v0 == 1 || f 21 1 == 0)
  | _ => true

/-- The schedule mode that the hints in force ask for: alternating unless side-by-side is. -/
def sideHint (hs : List Hint) : Bool := hs.any (fun h => h.kind == 3 && h.v0 == 1)

/-- The memory fits under hints. -/
def Body.fits (b : Body) (v : Shape) (hs : List Hint) : Bool :=
  (b.noRoom v hs (b.planStarts v.kernels hs (v.group b)) (sideHint hs)).isNone

/-- The hint can be followed beside those in force. A body that has no room anyway is no fault of the hint. -/
def Body.hintFeasible (b : Body) (v : Shape) (hs : List Hint) (h : Hint) : Bool :=
  b.hintValid v hs h && (!b.fits v hs || b.fits v (hs ++ [h]))

/-- The binding hints, in order. -/
def Body.bindings (b : Body) : List (Nat × Hint) :=
  ((List.range b.nHints).map (fun i => (i, b.hint i))).filter (fun e => e.2.binding == 1)

/-- The binding hints that can be followed, each beside those before it, and the first that cannot. -/
def Body.follow (b : Body) (v : Shape) : Option Nat × List Hint :=
  b.bindings.foldl (fun (acc : Option Nat × List Hint) e =>
    if b.hintFeasible v acc.2 e.2 then (acc.1, acc.2 ++ [e.2]) else (acc.1.or (some e.1), acc.2)) (none, [])

def Body.infeasible (b : Body) (v : Shape) : Option Nat := (b.follow v).1

/-- What became of each hint: 0 followed, 1 ignored as infeasible, 2 ignored for a conflict; and the hints in force. Binding hints come
first, then advisory ones in order. -/
def Body.applyHints (b : Body) (v : Shape) : List Nat × List Hint :=
  (List.range b.nHints).foldl (fun (acc : List Nat × List Hint) i =>
    let h := b.hint i
    if h.binding = 1 then (acc.1 ++ [0], acc.2)
    else if acc.2.any h.disagrees then (acc.1 ++ [2], acc.2)
    else if b.hintFeasible v acc.2 h then (acc.1 ++ [0], acc.2 ++ [h])
    else (acc.1 ++ [1], acc.2)) ([], (b.follow v).2)

def Body.hintsInForce (b : Body) (v : Shape) : List Hint := (b.applyHints v).2

/-! ### Copy groups (R273, R275) -/

/-- Positions linked to those of a list by holding a copy of one shard: the same stage and member in another replica, or the twin. -/
def Shape.linked (v : Shape) (b : Body) (is : List Nat) : List Nat :=
  let g := v.group b
  (List.range v.act.length).filter (fun j => is.any (fun i =>
    i == j || roleAt b.stages g i == roleAt b.stages g j || (v.act.getD i (0, 0)).2 == (v.act.getD j (0, 0)).1 ||
      (v.act.getD j (0, 0)).2 == (v.act.getD i (0, 0)).1))

def Shape.closure (v : Shape) (b : Body) : Nat → List Nat → List Nat
  | 0, is => is
  | n + 1, is => Shape.closure v b n (v.linked b is)

/-- The copy group of the module at position i. -/
def Shape.copyGroup (v : Shape) (b : Body) (i : Nat) : List Nat := v.closure b v.act.length [i]

/-- Enqueues of core l of crucible c of the module at position i in phases 1 and 2, which do nothing without micro-batches (R255, R300). -/
def Shape.enqueues (v : Shape) (b : Body) (i c l : Nat) : Nat :=
  if b.microBatches = 0 then 0
  else Config.enqueues b v.act ((List.range b.nOps).map (fun j => ((v.registered b j).map Kernel.enqueues).getD 0)) i c l

/-- The largest value over the cores of a module. -/
def overCores (f : Nat → Nat → Nat) : Nat := maxOf ((List.range 4).map (fun c => maxOf ((List.range 500).map (f c))))

/-- U: the most that any core of the copy group enqueues in phases 1 and 2, with which each of them enters the update phase. -/
def Shape.padTarget (v : Shape) (b : Body) (i : Nat) : Nat :=
  if b.microBatches = 0 then 0 else maxOf ((v.copyGroup b i).map (fun j => overCores (v.enqueues b j)))

/-- The most pads that a core of the module at position i makes (R275, R301). -/
def Shape.padsMost (v : Shape) (b : Body) (i : Nat) : Nat :=
  if b.microBatches = 0 then 0 else overCores (fun c l => v.padTarget b i - v.enqueues b i c l)

/-- Some core of the module at position i enqueues 2^32 or more operations in a step, its pads among them (R92, R275). -/
def Shape.tooMany (v : Shape) (b : Body) (i : Nat) : Bool :=
  b.microBatches != 0 &&
    decide (2 ^ 32 ≤ (if b.training then v.padTarget b i + overCores (Config.updateEnqueues b v.act i) else overCores (v.enqueues b i)))

/-! ### The outcome (R284, R290, R291, R293, R297) -/

/-- The first operator of each stage, under the hints in force. -/
def Body.starts (b : Body) (v : Shape) : List Nat := b.planStarts v.kernels (b.hintsInForce v) (v.group b)

/-- Side-by-side mode is used: a hint's, or the shorter mode, if it fits; a tie goes to alternating mode. -/
def Body.sideMode (b : Body) (v : Shape) : Bool :=
  let hs := b.hintsInForce v
  match hs.find? (fun h => h.kind == 3) with
  | some h => h.v0 == 1
  | none => decide (b.sideBySide v (b.partition v hs) < b.alternating v) && (b.noRoom v hs (b.starts v) true).isNone

/-- The causes of R284 that the procedure finds. -/
def Body.planCause (b : Body) (v : Shape) : Option (Byte × Nat) :=
  ((emptyStage (b.starts v) b.nOps).map (fun k => ((0x02 : Byte), (b.starts v).getD k 0))).or <|
  (causeOf 0x07 (b.infeasible v)).or <|
  (causeOf 0x09 (b.noRoom v (b.hintsInForce v) (b.starts v) (sideHint (b.hintsInForce v)))).or <|
  causeOf 0x0A ((firstIx v.act.length (v.tooMany b)).map (fun i => (v.act.getD i (0, 0)).1))

/-! ### Collectives (R288, R422, R423) -/

/-- The modules that hold one shard in replicas 0 to R − 1: the ranks of its reduce-scatter. -/
def Shape.ranks (v : Shape) (b : Body) (stage k : Nat) : List Nat :=
  let g := v.group b
  (List.range b.replicas).map (fun r => (v.act.getD (r * b.stages * g + stage * g + k) (0, 0)).1)

/-- The modules that receive its result: owner and twin of every replica. -/
def Shape.copies (v : Shape) (b : Body) (stage k : Nat) : List Nat :=
  (v.ranks b stage k).flatMap (fun m => [m, ((v.act.find? (fun e => e.1 == m)).map Prod.snd).getD m])

/-- The masks of the last hop's xcast.mod, one for each block of 64 logical modules that holds a receiver. -/
def castMasks (ms : List Nat) : List (Nat × Nat) :=
  ((List.range 64).map (fun k => (k, ((ms.filter (fun m => m / 64 == k)).eraseDups.map (fun m => 2 ^ (m % 64))).sum))).filter (fun e => e.2 != 0)

/-- One hop of a shard's reduce-scatter: running sums in FP32 from rank to rank, the result in the gradient format to every copy. -/
structure ReduceHop where
  sender : Nat
  receivers : List Nat
  masks : List (Nat × Nat)
  /-- Bytes of a chunk of 1,024 elements as it is sent. -/
  chunkBytes : Nat
  deriving DecidableEq, Repr

/-- A chunk of 1,024 elements in a gradient format: E5M2 adds 32 scale codes (R270, R421). -/
def gradChunk (format : Nat) : Nat := if format = 0 then 4096 else if format = 1 then 2048 else 1056

def Shape.reduceHops (v : Shape) (b : Body) (stage k : Nat) : List ReduceHop :=
  let rs := v.ranks b stage k
  ((rs.zip rs.tail).map (fun e => ⟨e.1, [e.2], [], 4096⟩)) ++
    (match rs.getLast? with
     | some m => [⟨m, v.copies b stage k, castMasks (v.copies b stage k), gradChunk (leField b 38 1)⟩]
     | none => [])

/-! ### What the module plans from -/

/-- The map's active modules with their twins. -/
def State.activePairs (s : State) : List (Nat × Nat) :=
  match s.tundish.health with
  | some h => h.active
  | none => []

/-- This module's position in the map's active list. -/
def State.mapPos (s : State) : Nat := (s.activePairs.findIdx? (fun e => e.1 == s.job.self.toNat)).getD 0

def State.shape (s : State) : Shape := ⟨s.activePairs, s.tundish.kernels, s.host.rings.map (fun r => (r.num, r.slots * r.slotBytes))⟩

end Sys2Proof.Machine
end

