-- ==== Sys2Proof/Machine/Graph.lean ====
section
/-!
DEFINITION. REGISTER_KERNEL, SUBMIT_GRAPH and the end of a placement (R284, R298, R301–R304, R641).
-/
namespace Sys2Proof.Machine

/-! ### REGISTER_KERNEL (R298, R641) -/

def kernelOf (code : W16) (bs : List Byte) : Kernel :=
  let f := Config.kernelField bs
  ⟨code, Config.kernelImage bs, BitVec.ofNat 16 (f 0), f 1, f 2, f 3, f 4, f 5, f 6, f 7, BitVec.ofNat 8 (f 8)⟩

/-- The fields are within R298's ranges. -/
def Kernel.ok (k : Kernel) : Bool :=
  decide (k.cores % 16 = 0) && decide (16 ≤ k.cores) && decide (k.cores ≤ 496) && decide (k.tallies ≤ 16) &&
    decide (k.scratch ≤ 786432) && decide (10 ≤ k.partition.toNat) && decide (k.partition.toNat ≤ 15)

/-- The image's parts fit it. -/
def Kernel.formed (k : Kernel) : Bool :=
  decide (64 ≤ k.image.length) && decide (k.codeLength + 64 ≤ k.image.length) && decide (k.codeLength ≤ 32768)

/-- The signature over the code. -/
def Kernel.signature (k : Kernel) : List Byte := ((k.image.drop (k.codeLength + 60)).take (k.image.length - 64 - k.codeLength))

/-- A job uses a code. -/
def State.kernelUsed (s : State) (code : W16) : Bool :=
  s.job.active &&
    (match s.tundish.placement with
     | some p => decide (code ∈ p.kernels)
     | none => false)

def State.cmdRegisterKernel (s : State) (m : CmdMsg) : State :=
  s.serve m 0x0030 [(0, 2), (4, 4), (8, 8), (16, 4)] (fun a s =>
    let code := BitVec.ofNat 16 (cmdField m 0 2)
    let win := cmdField m 4 4
    let off := cmdField m 8 8
    let len := cmdField m 16 4
    s.checked a ([bad (decide (code.toNat < 0x8000) || s.kernelUsed code) 0] ++ s.windowChecks win off len 4 8 ++ s.windowAway win)
      (fun s =>
        let (bs, s) := s.readWindow win off len
        let k := kernelOf code bs
        s.checked a [bad (!k.ok) (0x80000000 + Config.kernelBadByte bs), busy s.activating, rejected (!k.formed) 1,
            rejected (!hssVerify k.keyBytes k.codeBytes k.signature) 5] (fun s =>
          ({ s with tundish := { s.tundish with kernels := s.tundish.kernels.filter (fun (q : Kernel) => q.code ≠ code) ++ [k] } }).ok a 0 [])))

/-! ### SUBMIT_GRAPH (R284, R304) -/

/-- TUNDISH_VERSION of the running firmware: that of the agent's crucible, whose image holds its Tundish (R40). -/
def State.tundishVersion (s : State) : W32 :=
  match (s.agent.bind (fun c => (s.crucible c).fw)).or s.boot.image with
  | some r => r.tundish
  | none => 0

/-- Bytes of the report: its header, and its sections when the counts can be trusted (R301). -/
def reportBytes (b : Body) (trusted : Bool) : Nat := if trusted then 384 + 32 * b.nOps + (b.nHints + 7) / 8 * 8 else 128

def GraphRun.waits (r : Running) : Bool :=
  match r.kind with
  | .graph => true
  | .jobSet .. => false

def State.cmdSubmitGraph (s : State) (m : CmdMsg) : State :=
  s.serve m 0x0031 [(0, 4), (8, 8), (16, 4), (20, 4), (24, 8)] (fun a s =>
    let win := cmdField m 0 4
    let off := cmdField m 8 8
    let len := cmdField m 16 4
    let rwin := cmdField m 20 4
    let roff := cmdField m 24 8
    s.checked a (s.windowChecks win off len 0 8 ++ s.windowChecks rwin roff 128 20 24 ++ s.windowAway win ++ s.windowAway rwin) (fun s =>
      let (bs, s) := s.readWindow win off len
      let cause := s.bodyCause bs len s.tundishVersion
      let trusted := (cause.map (·.1)) != some 0x01 && (cause.map (·.1)) != some 0x02
      s.checked a (s.windowChecks rwin roff (reportBytes bs trusted) 20 24 ++ [busy (s.activating || s.tundish.run.isSome)]) (fun s =>
        match s.window rwin with
        | none => s
        | some w =>
          let (code, d) := cause.getD (0, 0)
          { s with tundish := { s.tundish with run := some ⟨m.half, m.qp, m.tag, bs, w.cru, w.off + roff, s.activePairs, code, BitVec.ofNat 32 d⟩ },
                   host := { s.host with running := s.host.running ++ [⟨m.half, m.qp, a.opcode, m.tag, 0, .graph⟩] } })))

/-! ### The placement (R286–R292, R301, R302) -/

/-- The codes of the user kernels that a job of the body uses: its operators' and their backward kernels' (R298). -/
def State.kernelsOf (s : State) (b : Body) : List W16 :=
  let own := (((List.range b.nOps).map (fun j => (b.op j).code)).filter (0x8000 ≤ ·)).map (BitVec.ofNat 16)
  (own ++ s.tundish.kernels.filterMap (fun (q : Kernel) => if q.code ∈ own ∧ q.backward ≠ 0 then some q.backward else none)).eraseDups

/-- The code of registered kernels, in the order of their codes (R299). -/
def State.imagesOf (s : State) (codes : List W16) : List (List Byte) :=
  codes.map (fun c => ((s.tundish.kernels.find? (fun (q : Kernel) => q.code == c)).map Kernel.codeBytes).getD [])

/-- The roles of this module and its twin, the groups they hold, and the schedule. -/
def State.placementOf (s : State) (b : Body) : Option Placement :=
  match s.tundish.health with
  | none => none
  | some h =>
    let v := s.shape
    let act := h.active
    let st := b.stages
    let g := v.group b
    match act.findIdx? (fun e => e.1 == s.job.self.toNat) with
    | none => none
    | some pos =>
      let starts := b.starts v
      let (stage, member) := roleAt st g pos
      let (ts, tm) := v.twinRole b pos
      let own := if b.training then quarters (b.shardGroups starts g stage member) else [0, 0, 0, 0]
      let other := if b.training then quarters (b.shardGroups starts g ts tm) else [0, 0, 0, 0]
      let side := b.sideMode v
      let hints := b.hintsInForce v
      some ⟨padTo 32 (Config.placementDigest b act), b, h.gen, st, b.replicas, g, stage, b.training, own, other, act.map (·.1),
        b.microBatches, s.kernelsOf b, starts, side, if side then b.partition v hints else 0, hints, talliesOf b (act.map (·.1)) pos,
        s.imagesOf (s.kernelsOf b), act, pos, (List.range 4).map (b.regions v hints starts side pos), v.padTarget b pos, b.rings⟩

/-- Member of this module in its stage group. -/
def State.member (s : State) (p : Placement) : Nat :=
  match s.position with
  | some i => (roleAt p.stages p.group i).2
  | none => 0

/-- Bytes of region 4 of a crucible. -/
def State.region4Bytes (s : State) (p : Placement) (c : Cru) : Nat :=
  (quarter (Body.frozenUnits p.body p.starts p.group p.stage (s.member p)) c.val).2 * 65536

/-- Start of region 5 of a crucible. -/
def State.region5 (s : State) (p : Placement) (c : Cru) : Nat := (s.crucible c).riser.region4 + s.region4Bytes p c

/-- The module takes a placement. The steps that a former one left queued and not started are dropped: work on this one waits for a STEP.
Steps that have started end under the placement they began with, and the module acts on the new one at the step boundary after them
(R303, R305, log 160). -/
def State.take (s : State) (p : Option Placement) : State :=
  let upTo := s.steps.next
  let s := { s with steps := s.steps.stop }
  ({ s with tundish := { s.tundish with next := some (p, upTo) } }).takeNext

def State.place (s : State) (p : Placement) : State :=
  let s := { s with tundish := { s.tundish with shardsBad := false, stepTaken := false } }
  s.take (some p)

/-! ### The report (R301) -/

/-- A figure of this module's report. -/
def State.figure (s : State) (b : Body) (k : Nat) : Nat := Config.figure b s.activePairs s.mapPos k

/-- The stage and member of this module under the current map. -/
def State.role (s : State) (b : Body) : Nat × Nat := roleAt b.stages (s.shape.group b) s.mapPos

/-- Bytes that the rings of stream-attention send from this module in a step: each micro-batch, in the forward pass, and in training by
both kernels (R252). -/
def State.attnSent (s : State) (b : Body) (hs : List Hint) (starts : List Nat) : Nat :=
  let (stage, k) := s.role b
  b.microBatches * ((stageOps starts b.nOps stage).map (fun j =>
    if (b.op j).code = 0x20 then
      let a := b.attn hs j
      let m := a.amounts (a.spanTokens k)
      a.heads * (m.sent + (if b.training && (b.op j).inputGrad then m.sent + m.sentKey else 0))
    else 0)).sum

/-- Bytes that this module sends in the reduce-scatter of its own shard: chunk by chunk, in the hop it is the sender of (R423). -/
def State.reduceSent (s : State) (b : Body) (starts : List Nat) : Nat :=
  let (stage, k) := s.role b
  let v := s.shape
  if b.training && b.microBatches != 0 then
    match (v.reduceHops b stage k).find? (fun h => h.sender == s.job.self.toNat) with
    | some h => 16 * b.shardGroups starts (v.group b) stage k * h.chunkBytes * max 1 h.masks.length
    | none => 0
  else 0

/-- The report's header: what the rules fix, and Tundish's figures (R301, log 34). `status` is the cause, `p` the figures' placement. -/
def State.reportHeader (s : State) (status : Byte) (d : W32) (b : Body) (p : Placement) : List Byte :=
  let f := s.figure b
  let v := s.shape
  let side := b.sideBySide v (if p.cores = 0 then b.partition v p.hints else p.cores)
  let sideFits := (b.noRoom s.shape p.hints p.starts true).isNone
  let free := (List.range 4).map (fun c => 2 ^ 36 - p.regionAt c 8)
  padTo 96 ([status, 0, 0, 0] ++ leBytes 4 d.toNat ++ leBytes 4 p.healthGen.toNat ++ leBytes 2 p.stages ++ leBytes 2 p.replicas ++
    leBytes 2 p.group ++ leBytes 2 p.cores ++ [if p.side then 1 else 0, 0] ++ leBytes 2 p.stage ++
    leBytes 4 p.padTarget ++ leBytes 4 (v.padsMost b s.mapPos) ++ leBytes 8 ((if p.side then side else b.alternating v) + f 4) ++
    leBytes 8 (b.alternating v) ++
    leBytes 8 (if sideFits then side else 0) ++ leBytes 8 (s.attnSent b p.hints p.starts + s.reduceSent b p.starts + f 7) ++
    leBytes 8 (free.foldl min (2 ^ 36)) ++ leBytes 4 b.nOps ++ leBytes 4 b.nHints) ++ (if status = 0 then p.digest else List.replicate 32 0)

/-- Memory use: the eight regions of R292 of each crucible. -/
def memoryUse (p : Placement) : List Byte :=
  (p.sizes.flatten.map (leBytes 8)).flatten

/-- Operator records: the streaming cycles of this module's part, and its extra block drains. -/
def State.opRecords (s : State) (b : Body) (p : Placement) : List Byte :=
  let (stage, k) := s.role b
  ((List.range b.nOps).map (fun j =>
    let c := if j ∈ stageOps p.starts b.nOps stage then b.opCycles s.tundish.kernels p.hints p.group k j else OpCycles.none
    leBytes 8 c.fwd ++ leBytes 8 c.back ++ leBytes 8 c.redo ++ leBytes 4 c.drains ++ [0, 0, 0, 0])).flatten

/-- Hint bytes. -/
def State.hintBytes (s : State) (b : Body) : List Byte :=
  padTo ((b.nHints + 7) / 8 * 8) ((b.applyHints s.shape).1.map (BitVec.ofNat 8))

/-- The report of a body whose placement could be formed, accepted or rejected. -/
def State.report (s : State) (status : Byte) (d : W32) (b : Body) (p : Placement) : List Byte :=
  s.reportHeader status d b p ++ memoryUse p ++ s.opRecords b p ++ s.hintBytes b

/-- The report of a body that its own checks or the map reject: a header of what could be read, and when the counts can be trusted the
sections, which hold zeros, for nothing is placed (log 88). -/
def State.reportRejected (s : State) (status : Byte) (d : W32) (b : Body) : List Byte :=
  let known := status != 0x01 && status != 0x02
  let g := s.shape.group b
  let stage := if known && g != 0 then (s.role b).1 else 0
  padTo 128 ([status, 0, 0, 0] ++ leBytes 4 d.toNat ++ leBytes 4 (leField b 12 4) ++ leBytes 2 b.stages ++ leBytes 2 b.replicas ++
    leBytes 2 (if known then g else 0) ++ List.replicate 4 0 ++ leBytes 2 stage ++ List.replicate 48 0 ++
    (if known then leBytes 4 b.nOps ++ leBytes 4 b.nHints else [])) ++
    (if known then List.replicate (reportBytes b true - 128) 0 else [])

/-! ### The outcome (R284, R302, R305) -/

/-- The cause that the body, the map and the registrations do not decide: the digests of the module's crucibles differ (R302). -/
def predicted (status : Byte) : Bool := status == 0x0D

/-- The earlier of two causes in R284's table. -/
def firstCause : Option (Byte × Nat) → Option (Byte × Nat) → Option (Byte × Nat)
  | some a, some b => some (if b.1.toNat < a.1.toNat then b else a)
  | a, b => a.or b

/-- The map taken during the run has another active list, another role or another twin: the body no longer answers it (R284, R305). -/
def State.mapChanged (s : State) (g : GraphRun) : Option (Byte × Nat) := if s.activePairs = g.act then none else some (0x08, 0)

/-- The cause reported, 0 for none: the first of R284's table among those of the body, of the procedure and of the map as it is now. The
procedure runs on a body whose records, shape and map are sound. -/
def State.outcome (s : State) (g : GraphRun) (r : TundishResult) : Byte × W32 :=
  let own := if g.status = 0 then none else some (g.status, g.detail.toNat)
  let plan := if (g.status = 0 ∨ 8 < g.status.toNat) ∧ s.activePairs = g.act then Body.planCause g.body s.shape else none
  let late := match r with
    | .ok => none
    | .failed st d => if predicted st then some (st, d.toNat) else none
  match firstCause (firstCause own plan) (firstCause (s.mapChanged g) late) with
  | some (c, d) => (c, BitVec.ofNat 32 d)
  | none => (0, 0)

/-- The report is written, and SUBMIT_GRAPH answered. -/
def State.endGraph (s : State) (g : GraphRun) (report : List Byte) (body : List Byte) : State :=
  let s := if (s.crucible g.reportCru).live then s.atCrucible g.reportCru (fun x => x.hbmWrite .mgmt g.reportOff report none) else s
  let mine := fun (r : Running) => GraphRun.waits r && r.half == g.half && r.qp == g.qp
  let s := { s with tundish := { s.tundish with run := none },
                    host := { s.host with running := s.host.running.filter (fun r => !mine r) } }
  s.ok ⟨g.half, g.qp, 0x0031, g.tag, 0⟩ 0 body

/-- A result that the procedure can give. -/
def resultGood : TundishResult → Bool
  | .ok => true
  | .failed st _ => predicted st

/-- A body is rejected: its report, and the answer. Under INTERNAL_MISMATCH the module holds no placement (R302). -/
def State.rejectGraph (s : State) (g : GraphRun) (status : Byte) (d : W32) : State :=
  let report := match s.placementOf g.body with
    | some p => if (g.status = 0 ∨ 8 < g.status.toNat) ∧ s.activePairs = g.act then s.report status d g.body p else s.reportRejected status d g.body
    | none => s.reportRejected status d g.body
  let s := if status = 0x0D then s.take none else s
  s.endGraph g report ([status, 0, 0, 0] ++ leBytes 4 d.toNat ++ List.replicate 32 0)

/-- PLACEMENT_DONE. -/
def execPlacementDone (r : TundishResult) (s : State) : Host.Outcome State Fault Refusal :=
  .next (
    match s.tundish.run with
    | none => s
    | some g =>
      if !resultGood r then s
      else
        let (status, d) := s.outcome g r
        if status ≠ 0 then s.rejectGraph g status d
        else
          match s.placementOf g.body with
          | none => s.rejectGraph g 0x08 0
          | some p => (s.place p).endGraph g (s.report 0 0 g.body p) (List.replicate 8 0 ++ p.digest))

end Sys2Proof.Machine
end

