-- ==== Sys2Proof/Machine/IngotOps.lean ====
section
/-!
DEFINITION. Ingots (spec/16): lease lists, extents, the manifest, the NVMe commands and their order.
-/
namespace Sys2Proof.Machine

/-! ### NVMe commands (R456, R458, R464) -/

def State.target (s : State) (n : Nat) : Option Target := s.host.targets.find? (fun t => t.num == n)

/-- The half that works alone, if one has been lost. -/
def State.loneHalf (s : State) : Option HalfIx :=
  if s.half.h0.alive then (if s.half.h1.alive then none else some 0) else some 1

/-- The half that carries extent i. -/
def State.halfFor (s : State) (i : Nat) : HalfIx := s.loneHalf.getD (Fin.ofNat 2 i)

/-- Depth of an I/O queue (R456). -/
def nvmeDepth : Nat := 128

/-- An unused number for a command. -/
def nextCmd (cs : List NvmeCmd) : Nat := cs.foldl (fun v c => max v c.num) 0 + 1

/-- The I/O queues of a half to a target that can take a command more, beside those in flight. -/
def State.openQueues (s : State) (h : HalfIx) (cs : List NvmeCmd) (target : Nat) : List Nat :=
  [1, 2, 3, 4].filter (fun q =>
    (s.halfAt h).qps.any (fun p => p.kind == .storage target q && !p.error) &&
      decide ((cs.filter (fun c => c.half == h && c.target == target && c.queue == q)).length < nvmeDepth))

/-- The half has no connection to the target, or a queue pair of it is in the error state (R459). -/
def State.storageDown (s : State) (h : HalfIx) (target : Nat) : Bool :=
  let qs := (s.halfAt h).qps.filter (fun p => match p.kind with
    | .storage t _ => t == target
    | _ => false)
  qs.isEmpty || qs.any Qp.error

/-- A half issues one NVMe command, on an I/O queue that has room: which is open (log 154). -/
def State.issueNvme (s : State) (h : HalfIx) (cs : List NvmeCmd) (target : Nat) (use : NvmeUse) (op : Byte) (lba blocks : Nat) :
    Option (NvmeCmd × State) :=
  match s.openQueues h cs target with
  | [] => none
  | q :: qs =>
    let (i, s) := s.fresh
    let c : NvmeCmd := ⟨nextCmd cs, h, target, (q :: qs).getD (Config.freeNat i % (qs.length + 1)) q, use⟩
    some (c, (s.sendEth h (.nvme target c.queue c.num op lba blocks)).modHalf h (fun v => v.cmdBump 4))

/-- Blocks of at most 1 MiB. -/
def nvmeBlocks : Nat := 256

/-! ### Extents (R527, R528) -/

/-- Parts of `n` things from `first`, each of at most `size`. -/
def cutParts (first size : Nat) : Nat → Nat → List (Nat × Nat)
  | 0, _ => []
  | fuel + 1, n => if n = 0 then [] else (first, min size n) :: cutParts (first + size) size fuel (n - min size n)

def partsOf (first size n : Nat) : List (Nat × Nat) := cutParts first size n n

/-- An extent before it has blocks, of things of `size` bytes. -/
def rawExtent (c : Cru) (kind : Byte) (size : Nat) (p : Nat × Nat) : Extent :=
  ⟨0, c, kind, (p.2 * size + 4095) / 4096, 0, p.1, p.2, p.2 * size, none, false, false, 0⟩

/-- One crucible's extents: pages, scales, frozen weights, of `groups` groups and `units` frozen units on the module. -/
def crucibleExtents (groups units : Nat) (c : Cru) : List Extent :=
  let (g0, gn) := quarter groups c.val
  let (u0, un) := quarter units c.val
  (partsOf g0 16 gn).map (rawExtent c 0 65536) ++ (partsOf g0 1024 gn).map (rawExtent c 1 1024) ++
    (partsOf (u0 * 65536) 1048576 (un * 65536)).map (rawExtent c 2 1)

/-- The extents of a module, numbered across it. -/
def allExtents (groups units : Nat) : List Extent :=
  ((cruList.map (crucibleExtents groups units)).flatten).zipIdx.map (fun (e, i) => { e with index := i })

/-- The first lease with room for an extent; `used` blocks of the first one are taken. -/
def takeOne (e : Extent) (used : Nat) : List Lease → Option (Extent × List Lease × Nat)
  | [] => none
  | l :: ls =>
    if used + e.blocks ≤ l.blocks then some ({ e with target := l.target, lba := l.lba + used }, l :: ls, used + e.blocks)
    else takeOne e 0 ls

/-- Extents take blocks in index order; none when the leases do not suffice. -/
def takeBlocks (ls : List Lease) (used : Nat) : List Extent → Option (List Extent)
  | [] => some []
  | e :: es =>
    match takeOne e used ls with
    | none => none
    | some (e, ls, used) => (takeBlocks ls used es).map (fun r => e :: r)

/-! ### Lease lists (R525, R535) -/

/-- A header of 64 bytes and entries of 16. -/
def leaseAt (bs : List Byte) (i : Nat) : Lease :=
  let o := 64 + 16 * i
  ⟨leField bs o 1, leField bs (o + 4) 4, leField bs (o + 8) 8⟩

def leasesOf (bs : List Byte) (n : Nat) : List Lease := (List.range n).map (leaseAt bs)

/-- The first bad byte of the entries. -/
def State.leaseBad (s : State) (bs : List Byte) (n : Nat) : Option Nat :=
  ((List.range n).find? (fun i =>
    let l := leaseAt bs i
    (s.target l.target).isNone || leField bs (64 + 16 * i + 1) 3 != 0 || l.blocks == 0)).map (fun i =>
      let o := 64 + 16 * i
      if (s.target (leaseAt bs i).target).isNone then o
      else (strayByte [] (o + 1) ((bs.drop (o + 1)).take 3)).getD (o + 4))

/-- The first bad byte of a list's header: FORMAT, FLAGS outside `flags`, the count, and bytes in no field. -/
def headBad (bs : List Byte) (format flags : Nat) (fs : Fields) : Option Nat :=
  if leField bs 0 2 ≠ format then some (if leField bs 0 1 = format then 1 else 0)
  else if leField bs 2 1 &&& (0xFF - flags) ≠ 0 then some 2
  else if leField bs 3 1 ≠ 0 then some 3
  else if leField bs 4 4 < 1 ∨ 4096 < leField bs 4 4 then some 4
  else strayByte ([(0, 8)] ++ fs) 0 (bs.take 64)

/-! ### What the module writes (R520) -/

/-- A shard as it is written: its stage and member, its groups, its frozen units. -/
structure ShardPart where
  stage : Nat
  member : Nat
  groups : Nat
  units : Nat
  deriving DecidableEq, Repr

/-- The part of a job that the module at position i of the active list holds as owner. -/
def Placement.part (p : Placement) (i : Nat) : ShardPart :=
  let b : Body := p.body
  let (stage, member) := roleAt p.stages p.group i
  ⟨stage, member, if p.training then b.shardGroups p.starts p.group stage member else 0, b.frozenUnits p.starts p.group stage member⟩

/-- The position of the module's twin in the active list. -/
def State.twinPosition (s : State) : Option Nat :=
  match s.tundish.health with
  | none => none
  | some h =>
    match h.active.find? (fun e => e.1 == s.job.self.toNat) with
    | none => none
    | some e => h.active.findIdx? (fun f => f.1 == e.2)

/-- What the module writes under the list's FLAGS: nothing in a replica but the first, unless WRITE_TWIN is set. -/
def State.writes (s : State) (p : Placement) (flags : Nat) : Option ShardPart :=
  let cut := fun (v : ShardPart) => if flags / 2 % 2 = 1 then { v with units := 0 } else v
  if flags % 2 = 1 then s.twinPosition.map (fun i => cut (p.part i))
  else match s.position with
    | some i => if i / (p.stages * p.group) = 0 then some (cut (p.part i)) else none
    | none => none

/-! ### Reading from the riser (R523) -/

/-- Where an extent's bytes stand: pages and scales in the riser of the own or the twin set, frozen weights in region 4. -/
def Riser.extentAt (r : Riser) (twin : Bool) (groups units : Nat) (e : Extent) : Nat :=
  let n := r.own + r.twin
  let p := e.first - (quarter groups e.cru.val).1
  if e.kind = 0 then region2 + (n + (if twin then r.own else 0) + p) * pageSize
  else if e.kind = 1 then r.region3 + (n + (if twin then r.own else 0) + p) * 1024
  else r.region4 + (e.first - (quarter units e.cru.val).1 * 65536)

/-- The tracked units an extent reads. -/
def Riser.extentUnits (r : Riser) (twin : Bool) (groups : Nat) (e : Extent) : List Nat :=
  let p := e.first - (quarter groups e.cru.val).1
  let base := if twin then r.own + scalePieces r.own else 0
  if e.kind = 0 then (List.range e.count).map (fun i => base + p + i)
  else if e.kind = 1 then
    (List.range ((p + e.count + 63) / 64 - p / 64)).map (fun i => base + (if twin then r.twin else r.own) + p / 64 + i)
  else []

/-- Every unit of the extent is in the riser. -/
def Crucible.extentReady (x : Crucible) (g : IngotRun) (part : ShardPart) (e : Extent) : Bool :=
  (x.riser.extentUnits (g.flags.getLsbD 0) part.groups e).all (fun u => x.riser.unitState u == .copied || x.riser.unitState u == .written)

/-! ### The order of the writes (R529) -/

/-- The part that a running ingot writes. -/
def State.ingotPart (s : State) (g : IngotRun) : Option ShardPart := s.writes g.place g.flags.toNat

/-- One extent that can be read is written by its half. -/
def State.issueExtent (s : State) (i : Nat) : State :=
  match s.ingot with
  | none => s
  | some g =>
    match g.extents[i]?, s.ingotPart g with
    | some e, some part =>
      let h := s.halfFor i
      if e.issued || g.failed.isSome || !s.engineUp h || !(s.crucible e.cru).extentReady g part e then s
      else if s.storageDown h e.target then s.failIngot 0xFF 0
      else match s.issueNvme h g.cmds e.target (.extent i) 1 e.lba e.blocks with
        | none => s
        | some (c, s) =>
          { s with ingot := some { g with extents := listSet g.extents i { e with issued := true }, cmds := g.cmds ++ [c] } }
    | _, _ => s

/-- One further command of the running ingot; without a sound connection it fails. -/
def State.ingotCmd (s : State) (h : HalfIx) (target : Nat) (use : NvmeUse) (op : Byte) (lba blocks : Nat) : State :=
  match s.ingot with
  | none => s
  | some g =>
    if g.failed.isSome then s
    else if s.storageDown h target then s.failIngot 0xFF 0
    else match s.issueNvme h g.cmds target use op lba blocks with
      | none => s
      | some (c, s) => { s with ingot := some { g with cmds := g.cmds ++ [c] } }

/-- Each half flushes each target it wrote. -/
def State.issueFlushes (s : State) (g : IngotRun) : State :=
  let pairs := (g.extents.zipIdx.map (fun (e, i) => (s.halfFor i, e.target))).eraseDups
  pairs.foldl (fun s (h, t) => s.ingotCmd h t .flush 0 0 0) s

/-! ### The manifest (R530) -/

/-- Tensor-map entries of the part: the own columns of each trainable and frozen tensor of the stage. -/
def tensorMap (p : Placement) (part : ShardPart) (frozen : Bool) : List (Nat × Nat × Nat × Nat) :=
  let b : Body := p.body
  let ts := (List.range b.nTensors).filter (fun i =>
    decide (i ∈ b.stageTensors p.starts part.stage 1) && p.training || decide (i ∈ b.frozenTensors p.starts part.stage) && frozen)
  (ts.foldl (fun (acc : List (Nat × Nat × Nat × Nat) × Nat × Nat) i =>
    let (out, g, u) := acc
    let t := b.tensor i
    let (lo, n) := memberCols t.cols p.group part.member
    if t.kind = 1 then (out ++ [(i, lo, n, g)], g + t.groups p.group part.member, u)
    else (out ++ [(i, lo, n, u)], g, u + t.frozenUnits p.group part.member)) ([], 0, 0)).1

/-- TENSORS_DIGEST. -/
def Body.tensorsDigest (b : Body) : List Byte := sha256 ((b.drop 160).take (32 * b.nTensors))

def Extent.bytesOf (e : Extent) : List Byte :=
  [BitVec.ofNat 8 e.target, BitVec.ofNat 8 e.cru.val, e.kind, 0] ++ leBytes 4 e.blocks ++ leBytes 8 e.lba ++ leBytes 4 e.first ++
    leBytes 4 e.count ++ leBytes 8 (e.crc.getD 0).toNat

/-- The manifest of a running ingot. -/
def State.manifest (s : State) (g : IngotRun) (part : ShardPart) : List Byte :=
  let p := g.place
  let frozen := !g.flags.getLsbD 1
  let map := tensorMap p part frozen
  let j := s.job
  let body := leBytes 2 1 ++ leBytes 2 g.flags.toNat ++ leBytes 4 g.extents.length ++ leBytes 8 g.seq.toNat ++ leBytes 8 g.step.toNat ++
    leBytes 2 j.tag.toNat ++ leBytes 2 j.epoch.toNat ++ leBytes 2 j.self.toNat ++ leBytes 2 part.stage ++ leBytes 2 part.member ++
    leBytes 2 p.stages ++ leBytes 2 p.group ++ [0, 0] ++ leBytes 4 map.length ++ leBytes 4 part.groups ++
    leBytes 8 (part.units * 65536) ++ List.replicate 8 0 ++ Body.tensorsDigest p.body ++ p.digest ++
    (map.map (fun (t, c, n, st) => leBytes 4 t ++ leBytes 4 c ++ leBytes 4 n ++ leBytes 4 st)).flatten ++
    (g.extents.map Extent.bytesOf).flatten
  body ++ sha256 body

/-- Blocks of a manifest of `n` map entries and `k` extents. -/
def manifestBlocks (n k : Nat) : Nat := (160 + 16 * n + 32 * k + 4095) / 4096

/-- The half that writes the manifest. -/
def State.firstHalf (s : State) : HalfIx := s.loneHalf.getD 0

/-- The manifest is written, in Writes of at most 1 MiB; the target fetches each part at once (R458). -/
def State.issueManifest (s : State) (g : IngotRun) : State :=
  match s.ingotPart g with
  | none => s
  | some part =>
    let bytes := s.manifest g part
    let h := s.firstHalf
    (partsOf 0 nvmeBlocks ((bytes.length + 4095) / 4096)).zipIdx.foldl (fun s ((b, n), i) =>
      let s := s.ingotCmd h g.manifestTarget (.manifest i) 1 (g.manifestLba + b) n
      if s.ingot.any (fun g => g.failed.isNone) then
        (s.modHalf h (fun v => v.ethBump 0)).sendEth h (.nvmeData g.manifestTarget ((bytes.drop (4096 * b)).take (4096 * n)))
      else s) s

/-- INGOT_DONE with result 0; what TARGET holds then is not stated: a free value. -/
def State.transferWritten (s : State) : State :=
  let (i, s) := s.fresh
  s.ingotDone 0 (BitVec.ofNat 8 (Config.freeNat i)) 0

/-- The next part of the order, once nothing of the part before is in flight. -/
def State.nextStage (s : State) : State :=
  match s.ingot with
  | none => s
  | some g =>
    if g.failed.isSome ∨ !g.cmds.isEmpty then s
    else match g.stage with
      | .waiting => s
      | .extents => if g.extents.all Extent.issued then { s with ingot := some { g with stage := .flush } }.issueFlushes g else s
      | .flush => { s with ingot := some { g with stage := .manifest } }.issueManifest g
      | .manifest =>
        { s with ingot := some { g with stage := .manifestFlush } }.ingotCmd s.firstHalf g.manifestTarget .manifestFlush 0 0 0
      | .manifestFlush => { s with ingot := none }.transferWritten

/-- The ingot goes on as far as it can: a part with nothing to do ends at once. -/
def State.pushIngot (s : State) : State :=
  match s.ingot with
  | none => s
  | some g =>
    if g.stage = .waiting ∨ g.failed.isSome ∨ s.steps.mode = .fenced then s
    else ((List.range g.extents.length).foldl State.issueExtent s).nextStage.nextStage

/-- The step an ingot waits for has been checked, and its riser is armed (R521, R523). -/
def State.ingotDue (s : State) (g : IngotRun) : Bool :=
  s.steps.everChecked && decide (g.step.toNat < s.steps.oldest.toNat)

end Sys2Proof.Machine
end

