-- ==== Sys2Proof/Machine/RestoreOps.lean ====
section
/-!
DEFINITION. Restore (R531, R535–R540): the manifests, the extents that are needed, and where every value goes.
-/
namespace Sys2Proof.Machine

/-! ### Manifests as read (R530, R531) -/

abbrev Manifest := List Byte

def Manifest.nExtents (b : Manifest) : Nat := leField b 4 4
def Manifest.seq (b : Manifest) : Nat := leField b 8 8
def Manifest.nMap (b : Manifest) : Nat := leField b 40 4
def Manifest.stageMember (b : Manifest) : Nat × Nat := (leField b 30 2, leField b 32 2)

/-- S and G of the slice that wrote it. -/
def Manifest.slice (b : Manifest) : Nat × Nat := (leField b 34 2, leField b 36 2)

def Manifest.size (b : Manifest) : Nat := 160 + 16 * b.nMap + 32 * b.nExtents

/-- FORMAT, sizes and trailer check, and it lies in its slot. -/
def Manifest.valid (b : Manifest) (blocks : Nat) : Bool :=
  leField b 0 2 == 1 && decide (b.size ≤ b.length) && decide (b.size ≤ 4096 * blocks) &&
    sha256 (b.take (b.size - 32)) == (b.drop (b.size - 32)).take 32

/-- A tensor-map entry: tensor, first column, columns, start. -/
structure MapEntry where
  tensor : Nat
  col : Nat
  cols : Nat
  start : Nat
  deriving DecidableEq, Repr

def Manifest.entry (b : Manifest) (i : Nat) : MapEntry :=
  let o := 128 + 16 * i
  ⟨leField b o 4, leField b (o + 4) 4, leField b (o + 8) 4, leField b (o + 12) 4⟩

def Manifest.extent (b : Manifest) (i : Nat) : Extent :=
  let o := 128 + 16 * b.nMap + 32 * i
  let kind := BitVec.ofNat 8 (leField b (o + 2) 1)
  let n := leField b (o + 20) 4
  ⟨leField b o 1, Fin.ofNat 4 (leField b (o + 1) 1), kind, leField b (o + 4) 4, leField b (o + 8) 8, leField b (o + 16) 4, n,
   n * (if kind = 0 then 65536 else if kind = 1 then 1024 else 1), some (BitVec.ofNat 64 (leField b (o + 24) 8)), false, false, i⟩

def Manifest.extents (b : Manifest) : List Extent := (List.range b.nExtents).map b.extent

/-- Where a manifest holds column `c` of a tensor. -/
def Manifest.find (b : Manifest) (tensor c : Nat) : Option MapEntry :=
  ((List.range b.nMap).map b.entry).find? (fun e => e.tensor == tensor && decide (e.col ≤ c) && decide (c < e.col + e.cols))

/-! ### Values by coordinate (R306, R538) -/

/-- An extent that was read: the manifest it belongs to, and its bytes. -/
structure ReadExtent where
  manifest : Nat
  extent : Extent
  data : List Byte
  deriving DecidableEq, Repr

/-- Byte `o` of group `g` of a manifest: of its page for KIND 0, of its scales for KIND 1. -/
def groupByte (rs : List ReadExtent) (m : Nat) (kind : Byte) (g o : Nat) : Option Byte :=
  let size := if kind = 0 then 65536 else 1024
  (rs.find? (fun r => r.manifest == m && r.extent.kind == kind && decide (r.extent.first ≤ g) &&
    decide (g < r.extent.first + r.extent.count))).bind (fun r => r.data[(g - r.extent.first) * size + o]?)

/-- Byte `o` of the frozen stream of a manifest. -/
def frozenByte (rs : List ReadExtent) (m o : Nat) : Option Byte :=
  (rs.find? (fun r => r.manifest == m && r.extent.kind == 2 && decide (r.extent.first ≤ o) &&
    decide (o < r.extent.first + r.extent.count))).bind (fun r => r.data[o - r.extent.first]?)

/-- The stored state of one parameter: w, and m and u with the codes of their blocks. -/
structure ParamState where
  w : W16
  m : Byte
  u : Byte
  mScale : Byte
  uScale : Byte
  deriving DecidableEq, Repr

/-- The manifest of the restored sequence that holds a column of a trainable tensor, with the parameter's number in its part. -/
def paramAt (ms : List Manifest) (seq tensor row col : Nat) : Option (Nat × Nat) :=
  (List.range ms.length).findSome? (fun i =>
    let b := ms.getD i []
    if b.seq = seq then (b.find tensor col).map (fun e => (i, e.start * 16384 + row * e.cols + (col - e.col))) else none)

def paramState (ms : List Manifest) (rs : List ReadExtent) (seq tensor row col : Nat) : Option ParamState :=
  match paramAt ms seq tensor row col with
  | none => none
  | some (i, p) =>
    let g := p / 16384
    let o := p % 16384
    match groupByte rs i 0 g (2 * o), groupByte rs i 0 g (2 * o + 1), groupByte rs i 0 g (32768 + o), groupByte rs i 0 g (49152 + o),
        groupByte rs i 1 g (o / 32), groupByte rs i 1 g (512 + o / 32) with
    | some a, some b, some m, some u, some sm, some su => some ⟨b ++ a, m, u, sm, su⟩
    | _, _, _, _, _, _ => none

/-- An E4M3 value under its block code, exact (R202). -/
def widenByte (v scale : Byte) : FpVal :=
  if scale = 0xFF then .nan else fpScale ((scale.toNat : Int) - 127) (fpDecode fmtE4m3 v.toNat)

/-- A block of 32 narrowed again: its code under R201 and its bytes, to nearest even (R539). -/
def narrowBlock (vs : List FpVal) : Byte × List Byte :=
  let c := blockScale (.flt fmtE4m3) (vs.map fp32Of)
  (c, vs.map (fun v => BitVec.ofNat 8 (convertScaled (.flt fmtE4m3) none c v).code))

/-! ### A shard as it is to stand (R289, R539) -/

/-- Parameter n of a group list, by tensor, row and column; none for padding. -/
def coordinate (b : Body) (starts : List Nat) (g stage member : Nat) (n : Nat) : Option (Nat × Nat × Nat) :=
  let ts := b.stageTensors starts stage 1
  (ts.foldl (fun (acc : Option (Nat × Nat × Nat) × Nat) i =>
    let (found, first) := acc
    let t := b.tensor i
    let next := first + t.groups g member
    let (lo, cols) := memberCols t.cols g member
    let p := n - first * 16384
    if found.isNone ∧ first * 16384 ≤ n ∧ n < next * 16384 ∧ p < t.rows * cols then (some (i, p / cols, lo + p % cols), next)
    else (found, next)) (none, 0)).1

/-- What a restore moves data from, and into which shape. -/
structure RestorePlan where
  body : Body
  starts : List Nat
  group : Nat
  seq : Nat
  manifests : List Manifest
  reads : List ReadExtent
  deriving DecidableEq, Repr

/-- One parameter of the new shard: none when a value it needs is missing; padding is 0. -/
def RestorePlan.param (r : RestorePlan) (stage member n : Nat) : Option (Option ParamState) :=
  match coordinate r.body r.starts r.group stage member n with
  | none => some none
  | some (t, row, col) => (paramState r.manifests r.reads r.seq t row col).map some

/-- One block of 32: bytes of w, m and u, and the codes of m and u. -/
structure BlockBytes where
  w : List Byte
  m : List Byte
  u : List Byte
  mScale : Byte
  uScale : Byte
  deriving DecidableEq, Repr

/-- Every manifest of the restored sequence was written on a slice with the S and G of this one, so that every new block is an old
block (R539). -/
def RestorePlan.sameSlice (r : RestorePlan) : Bool :=
  r.manifests.all (fun b => b.seq != r.seq || b.slice == (r.body.stages, r.group))

/-- The code of an old block: that of its parameters, 0x00 where all are padding. -/
def oldScale (f : ParamState → Byte) (ps : List (Option ParamState)) : Byte :=
  match ps.findSome? id with
  | some v => f v
  | none => 0

/-- m or u of a block: the old codes and bytes on the same slice, else narrowed again. -/
def RestorePlan.moments (r : RestorePlan) (v scale : ParamState → Byte) (ps : List (Option ParamState)) : Byte × List Byte :=
  if r.sameSlice then (oldScale scale ps, ps.map (fun (p : Option ParamState) => (p.map v).getD 0))
  else narrowBlock (ps.map (fun (p : Option ParamState) => match p with
    | some q => widenByte (v q) (scale q)
    | none => FpVal.fin false 0 0))

def RestorePlan.block (r : RestorePlan) (stage member n : Nat) : Option BlockBytes :=
  match ((List.range 32).map (fun k => r.param stage member (n + k))).mapM id with
  | none => none
  | some ps =>
    let (mc, ms) := r.moments ParamState.m ParamState.mScale ps
    let (uc, us) := r.moments ParamState.u ParamState.uScale ps
    let w := (ps.map (fun (p : Option ParamState) => leBytes 2 ((p.map ParamState.w).getD 0).toNat)).flatten
    some ⟨w, ms, us, mc, uc⟩

/-- One group of the new shard: its page and its scales. -/
def RestorePlan.groupBytes (r : RestorePlan) (stage member g : Nat) : Option (List Byte × List Byte) :=
  (((List.range 512).map (fun k => r.block stage member (g * 16384 + 32 * k))).mapM id).map (fun bs =>
    ((bs.map BlockBytes.w).flatten ++ (bs.map BlockBytes.m).flatten ++ (bs.map BlockBytes.u).flatten,
     bs.map BlockBytes.mScale ++ bs.map BlockBytes.uScale))

/-! ### Frozen weights (R527, R537) -/

/-- The manifest of the largest INGOT_SEQ that holds a column of a frozen tensor. -/
def RestorePlan.frozenFrom (r : RestorePlan) (tensor col : Nat) : Option (Nat × MapEntry) :=
  (List.range r.manifests.length).foldl (fun acc i =>
    let b : Manifest := r.manifests.getD i []
    match b.find tensor col with
    | none => acc
    | some e =>
      match acc with
      | some (j, _) => if (r.manifests.getD j []).seq < b.seq then some (i, e) else acc
      | none => some (i, e)) none

/-- `bits` bits at element `e` of a packed stream. -/
def packedAt (f : Nat → Option Byte) (bits e : Nat) : Option Nat :=
  if bits = 4 then (f (e / 2)).map (fun b => b.toNat / 16 ^ (e % 2) % 16)
  else (((List.range (bits / 8)).map (fun k => f (e * (bits / 8) + k))).mapM id).map leNat

/-- One element of a frozen tensor. -/
def RestorePlan.frozenElem (r : RestorePlan) (tensor row col : Nat) : Option Nat :=
  match r.frozenFrom tensor col with
  | none => none
  | some (i, e) => packedAt (fun o => frozenByte r.reads i (e.start * 65536 + o)) (r.body.tensor tensor).bits (row * e.cols + (col - e.col))

/-- Elements packed into bytes. -/
def packBytes (bits : Nat) (vs : List Nat) : List Byte :=
  if bits = 4 then (List.range ((vs.length + 1) / 2)).map (fun i => BitVec.ofNat 8 (vs.getD (2 * i) 0 + 16 * vs.getD (2 * i + 1) 0))
  else (vs.map (leBytes (bits / 8))).flatten

/-- The member's part of one frozen tensor, padded to whole units. -/
def RestorePlan.frozenPart (r : RestorePlan) (member tensor : Nat) : Option (List Byte) :=
  let t := r.body.tensor tensor
  let (lo, cols) := memberCols t.cols r.group member
  (((List.range (t.rows * cols)).map (fun p => r.frozenElem tensor (p / cols) (lo + p % cols))).mapM id).map (fun vs =>
    padTo (65536 * t.frozenUnits r.group member) (packBytes t.bits vs))

/-- The member's frozen stream. -/
def RestorePlan.frozenStream (r : RestorePlan) (stage member : Nat) : Option (List Byte) :=
  (((r.body.frozenTensors r.starts stage).map (r.frozenPart member)).mapM id).map List.flatten

/-! ### What is read (R537, R538) -/

/-- Groups of a manifest that hold one of the columns that a member needs of a tensor. -/
def overlaps (lo n lo' n' : Nat) : Bool := decide (lo < lo' + n') && decide (lo' < lo + n)

/-- Manifest i is the one that frozen columns `lo` to `lo + n - 1` of a tensor come from, for one of them at least (R537). -/
def RestorePlan.frozenSource (r : RestorePlan) (i tensor lo n : Nat) : Bool :=
  (List.range n).any (fun k => match r.frozenFrom tensor (lo + k) with
    | some (j, _) => j == i
    | none => false)

/-- An extent of manifest i holds data that the member at (stage, member) takes from it. -/
def RestorePlan.needs (r : RestorePlan) (stage member : Nat) (shard : Bool) (i : Nat) (e : Extent) : Bool :=
  let b : Manifest := r.manifests.getD i []
  ((List.range b.nMap).map b.entry).any (fun m =>
    let t := r.body.tensor m.tensor
    let (lo, n) := memberCols t.cols r.group member
    overlaps lo n m.col m.cols &&
      (if e.kind = 2 then
         decide (m.tensor ∈ r.body.frozenTensors r.starts stage) && r.frozenSource i m.tensor lo n &&
           overlaps (m.start * 65536) (65536 * (((t.rows * m.cols * t.bits + 7) / 8 + 65535) / 65536)) e.first e.count
       else
         shard && b.seq == r.seq && decide (m.tensor ∈ r.body.stageTensors r.starts stage 1) &&
           overlaps m.start ((t.rows * m.cols + 16383) / 16384) e.first e.count))

/-- Two manifests of the restored sequence name one stage and member. -/
def sameShard (ms : List Manifest) (seq : Nat) : Bool :=
  let ks := (ms.filter (fun b => Manifest.seq b == seq)).map Manifest.stageMember
  !decide ks.Nodup

/-- A manifest fails the restore. -/
def manifestBad (b : Manifest) (blocks : Nat) (body : Body) (step : Nat) : Bool :=
  !b.valid blocks || (b.drop 64).take 32 != body.tensorsDigest || leField b 16 8 != step

end Sys2Proof.Machine
end

