-- ==== Sys2Proof/Machine/Ingot.lean ====
section
/-!
DEFINITION. STORAGE_TARGET, INGOT, RESTORE and the NVMe traffic they cause (R456–R459, R519–R540).
-/
namespace Sys2Proof.Machine

/-! ### STORAGE_TARGET (R457) -/

/-- Queue pairs of one connection of one half: one admin queue and four I/O queues (R456). -/
def targetQps : Nat := 5

/-- The queue pair belongs to a connection to the target. -/
def QpKind.serves (n : Nat) : QpKind → Bool
  | .storage t _ => t == n
  | _ => false

/-- The half's queue pairs without those of a connection to a target. -/
def Half.dropTarget (h : Half) (n : Nat) : Half := { h with qps := h.qps.filter (fun q => !q.kind.serves n) }

/-- A new queue pair, with an unused number (R440, log 31). -/
def Half.addQp (h : Half) (i : Nat) (kind : QpKind) (retry rnr mtu : Nat) : Half × Nat :=
  let n := unused (h.qps.map Qp.num) i
  ({ h with qps := h.qps ++ [⟨n, kind, false, 400000, none, none, 0, 0, retry, rnr, mtu⟩] }, n)

/-- The path MTUs of R440. -/
def pathMtus : List Nat := [1024, 2048, 4096]

/-- A half holds the connection's queue pairs: what they settle for retries and the path MTU is free (R440). -/
def State.connectHalf (s : State) (n : Nat) (h : HalfIx) : State :=
  if (s.halfAt h).alive then
    (List.range targetQps).foldl (fun s q =>
      let (i, s) := s.fresh
      let v := Config.freeNat i
      s.modHalf h (fun w => (w.addQp i (.storage n q) (v % 8) (v / 8 % 8) (pathMtus.getD (v / 64 % 3) 4096)).1))
      (s.modHalf h (fun v => v.dropTarget n))
  else s

def halfList : List HalfIx := [0, 1]

def hexDigit (d : Nat) : Byte := BitVec.ofNat 8 (if d < 10 then 0x30 + d else (if Config.nqnUpper then 0x41 else 0x61) + (d - 10))

/-- The host NQN: its fixed part, and the serial in 16 hexadecimal digits, the first the most significant (R456, log 154). -/
def State.hostNqn (s : State) : List Byte :=
  let serial := leField s.boot.otp 0x40 8
  [0x6E, 0x71, 0x6E, 0x2E, 0x32, 0x30, 0x32, 0x35, 0x2D, 0x30, 0x31, 0x2E, 0x63, 0x6F, 0x6D,
   0x2E, 0x77, 0x65, 0x61, 0x6E, 0x74, 0x69, 0x72, 0x79, 0x3A, 0x64, 0x6E, 0x33, 0x32, 0x3A] ++
    (List.range 16).map (fun i => hexDigit (serial / 16 ^ (15 - i) % 16))

/-- What a half does to connect, in order (R457). -/
def connectSteps (nqn : List Byte) : List AdminStep :=
  [.request 0, .connect 0 nqn, .enable, .status, .identify 0x01, .identify 0x00] ++
    [1, 2, 3, 4].flatMap (fun q => [.request q, .connect q nqn])

/-- A step of a connection that is an NVMe command. -/
def AdminStep.counts : AdminStep → Bool
  | .request _ => false
  | _ => true

/-- A half sends the first `k` steps, and each is answered. -/
def State.connectExchange (s : State) (n k : Nat) (h : HalfIx) : State :=
  if (s.halfAt h).alive then
    ((connectSteps s.hostNqn).take k).foldl (fun s st =>
      (s.sendEth h (.admin n st)).modHalf h (fun v => let v := v.ethBump 0; if st.counts then v.cmdBump 4 else v)) s
  else s

/-- Each half connects. One that fails stops at a step of its own; one that finds another namespace format, after Identify. -/
def State.tryConnect (s : State) (n : Nat) (connected formatOk : Bool) (status : W16) : State :=
  let (i, s) := s.fresh
  let all := (connectSteps s.hostNqn).length
  let k := fun (h : HalfIx) => if connected then (if formatOk then all else 6) else Config.freeNat i / (all + 1) ^ h.val % (all + 1)
  let s := halfList.foldl (fun s h => s.connectExchange n (k h) h) s
  if connected || status == 0 then s
  else s.modHalf (s.loneHalf.getD (Fin.ofNat 2 (Config.freeNat (i + 1)))) (fun v => v.cmdBump 5)

/-- STORAGE_TARGET. Whether the steps succeed, the namespace's size and format, and a failing status are the target's. -/
def State.cmdStorageTarget (s : State) (m : CmdMsg) (connected : Bool) (blocks : Nat) (formatOk : Bool) (status : W16) : State :=
  s.serve m 0x0050 [(0, 1), (1, 1), (2, 2), (4, 16), (20, 4), (24, 2), (32, cmdField m 24 2)] (fun a s =>
    let n := cmdField m 0 1
    let fam := cmdField m 1 1
    let len := cmdField m 24 2
    let full := halfList.any (fun h => (s.halfAt h).alive && decide (512 < ((s.halfAt h).dropTarget n).qps.length + targetQps))
    s.checked a [bad (decide (31 < n)) 0, bad (fam != 4 && fam != 6) 1, bad (decide (len < 1) || decide (223 < len)) 24,
        noResource full 512] (fun s => (s.tryConnect n connected formatOk status).checked a
        [bad (connected && !formatOk) 20, ⟨!connected, 10, status.toNat, 0⟩] (fun s =>
      let t : Target := ⟨n, BitVec.ofNat 8 fam, BitVec.ofNat 16 (cmdField m 2 2), BitVec.ofNat 128 (cmdField m 4 16),
        BitVec.ofNat 32 (cmdField m 20 4), (m.body.drop 32).take len, blocks⟩
      let s := { s with host := { s.host with targets := s.host.targets.filter (fun (q : Target) => q.num ≠ n) ++ [t] } }
      (halfList.foldl (fun s h => s.connectHalf n h) s).ok a 0 (leBytes 8 blocks))))

/-! ### INGOT (R520–R522, R525–R528) -/

/-- n is a step whose ingot can be taken. -/
def State.ingotStepOk (s : State) (n : Nat) : Bool :=
  let t := s.steps
  (t.everChecked && n == t.checked.toNat && n + 1 == t.oldest.toNat) ||
    (t.mode != .held && t.mode != .fenced && !t.queue.isEmpty && n == t.oldest.toNat)

/-- A transfer to or from storage runs. -/
def State.storing (s : State) : Bool := s.ingot.isSome || s.restore.isSome

/-- The extents of a part, cut and given blocks; none when the leases or the manifest slot do not suffice. -/
def layIngot (part : ShardPart) (leases : List Lease) (mapLen slot : Nat) : Option (List Extent) :=
  match takeBlocks leases 0 (allExtents part.groups part.units) with
  | none => none
  | some es => if manifestBlocks mapLen es.length ≤ slot then some es else none

/-- Checks on a lease list that need no placement (R525). -/
def State.listChecks (s : State) (bs : List Byte) : List Check :=
  let n := leField bs 4 4
  (match headBad bs 1 3 [(8, 8), (16, 1), (24, 8), (32, 4)] with
    | some d => [bad true (0x80000000 + d)]
    | none => []) ++ [bad (decide (bs.length ≠ 64 + 16 * n)) 24, bad (s.target (leField bs 16 1)).isNone (0x80000000 + 16)] ++
    (match s.leaseBad bs n with
     | some d => [bad true (0x80000000 + d)]
     | none => [])

/-- INGOT of a module that writes. -/
def State.acceptIngot (s : State) (a : AnswerTo) (m : CmdMsg) (p : Placement) (part : ShardPart) (bs : List Byte) : State :=
  let n := leField bs 4 4
  let flags := BitVec.ofNat 16 (leField bs 2 2)
  let mt := leField bs 16 1
  let laid := layIngot part (leasesOf bs n) (tensorMap p part (!flags.getLsbD 1)).length (leField bs 32 4)
  s.checked a (s.listChecks bs ++ [bad laid.isNone (0x80000000 + 4), busy s.storing]) (fun s =>
    ({ s with ingot := some ⟨BitVec.ofNat 48 (cmdField m 0 8), p, flags, BitVec.ofNat 64 (leField bs 8 8), mt, leField bs 24 8,
        leField bs 32 4, laid.getD [], .waiting, [], none⟩ }).ok a 0 [])

def State.cmdIngot (s : State) (m : CmdMsg) : State :=
  s.serve m 0x0051 [(0, 8), (8, 4), (16, 8), (24, 4)] (fun a s =>
    let win := cmdField m 8 4
    let off := cmdField m 16 8
    let len := cmdField m 24 4
    s.checked a [bad (!s.ingotStepOk (cmdField m 0 8)) 0] (fun s =>
      let (bs, read) := s.readWindow win off len
      match s.tundish.placement with
      | none =>
        s.checked a (s.windowChecks win off len 8 16 ++ [bad (decide (len < 64)) 24]) (fun s =>
          s.checked a ((if (s.windowAway win).all (fun c => !c.fails) then s.listChecks bs else []) ++ [noPlacement true]) id)
      | some p =>
        let sound := (s.windowChecks win off len 8 16 ++ s.windowAway win).all (fun c => !c.fails) && decide (64 ≤ len)
        match s.writes p (if sound then leField bs 2 1 else 0) with
        | none => s.checked a [busy s.storing] (fun s => (s.ok a 0 []).transferWritten)
        | some part =>
          s.checked a (s.windowChecks win off len 8 16 ++ [bad (decide (len < 64)) 24] ++ s.windowAway win) (fun _ =>
            read.acceptIngot a m p part bs)))

/-- INGOT_START: the step is checked, and its riser is read. -/
def execIngotStart (s : State) : Host.Outcome State Fault Refusal :=
  .next (
    match s.ingot with
    | none => s
    | some g =>
      if g.stage = .waiting ∧ s.ingotDue g ∧ s.steps.mode ≠ .fenced then { s with ingot := some { g with stage := .extents } }.pushIngot
      else s)

/-- A packet marked CE on the I/O queue of a command (R439). -/
def State.storageCe (s : State) (h : HalfIx) (c : NvmeCmd) (ce : Bool) : State :=
  match (s.halfAt h).qps.find? (fun q => q.kind == .storage c.target c.queue) with
  | some q => s.congested h q.num ce
  | none => s

/-- TARGET_RDMA_READ: the target fetches an extent's data (R458, R524); the riser's hold ends with the last one. -/
def execTargetRdmaRead (f : Frame) (extent : Nat) (s : State) : Host.Outcome State Fault Refusal :=
  let h := f.half
  .next (s.onFrames f 1 (fun s =>
    match s.ingot with
    | none => s
    | some g =>
      match g.extents[extent]?, s.ingotPart g, g.cmds.find? (fun c => c.half == h && c.use == .extent extent) with
      | some e, some part, some c =>
        if !e.done && s.engineUp h && (s.crucible e.cru).live && g.failed.isNone && s.steps.mode != .fenced then
          let at_ := (s.crucible e.cru).riser.extentAt (g.flags.getLsbD 0) part.groups part.units e
          let (bs, x) := (s.crucible e.cru).hbmReadAs .portDie (some 2) at_ e.bytes none
          let es := listSet g.extents extent { e with done := true, crc := some (crc64 bs) }
          let s := ({ s with ingot := some { g with extents := es } }.putCrucible e.cru x).storageCe h c f.ce
          let s := s.sendEth h (.nvmeData e.target bs)
          if es.all (fun e => e.done || e.kind == 2) then s.freeRisers else s
        else s
      | _, _, _ => s))

/-! ### RESTORE (R535–R540) -/

/-- The next part of the named manifests is read: the rest of the last one, or the next one. -/
def State.readManifests (s : State) : State :=
  match s.restore with
  | none => s
  | some r =>
    let go := fun (slot : Nat) (l : Lease) (done : Nat) =>
      let n := min nvmeBlocks (l.blocks - done)
      let h := s.firstHalf
      if s.storageDown h l.target then s.failRestore 0xFF 0
      else match s.issueNvme h r.cmds l.target (.readManifest slot) 2 (l.lba + done) n with
        | none => s
        | some (c, s) =>
          { s with restore := some { r with cmds := [c],
                                            manifests := if done = 0 then r.manifests ++ [⟨slot, []⟩] else r.manifests } }
    match r.manifests.getLast?, r.slots[r.manifests.length]? with
    | some b, next =>
      match r.slots[b.slot]? with
      | some l =>
        let done := b.bytes.length / 4096
        if done < l.blocks then go b.slot l done
        else match next with
          | some v => go r.manifests.length v 0
          | none => s
      | none => s
    | none, some v => go 0 v 0
    | none, none => s

/-- Every named manifest has been read whole. -/
def RestoreRun.allRead (r : RestoreRun) : Bool :=
  r.manifests.length == r.slots.length &&
    r.manifests.all (fun b => match r.slots[b.slot]? with
      | some l => decide (l.blocks ≤ b.bytes.length / 4096)
      | none => true)

/-- The stage cuts of a body: those of the placement made from it, or what the procedure gives. -/
def State.startsOf (s : State) (b : Body) : List Nat :=
  match s.tundish.placement with
  | some p => if p.body = b then p.starts else b.starts s.shape
  | none => b.starts s.shape

/-- The plan of a restore, from what has been read. -/
def State.restorePlan (s : State) (r : RestoreRun) : RestorePlan :=
  let b : Body := r.body
  let act := s.activePairs
  ⟨b, s.startsOf b, groupSize act.length b.stages b.replicas, r.seq.toNat, r.manifests.map ManifestRead.bytes,
   r.data.filterMap (fun (i, bs) => (r.extents[i]?).map (fun (m, e) => ⟨m, e, bs⟩))⟩

/-- Roles of the module and of its twin, in the shape of the body. -/
def State.restoreRoles (s : State) (p : RestorePlan) : (Nat × Nat) × (Nat × Nat) :=
  let act := s.activePairs
  let pos := (act.findIdx? (fun e => e.1 == s.job.self.toNat)).getD 0
  let twin := (act.findIdx? (fun e => e.1 == (act.getD pos (0, 0)).2)).getD pos
  (roleAt p.body.stages p.group pos, roleAt p.body.stages p.group twin)

/-- With every manifest read: it fails, or the extents that are needed are known. -/
def State.chooseExtents (s : State) (r : RestoreRun) : State :=
  let p := s.restorePlan r
  let wrong := r.manifests.any (fun b =>
    match r.slots[b.slot]? with
    | some l => manifestBad b.bytes l.blocks r.body r.step.toNat
    | none => true)
  if wrong || sameShard p.manifests r.seq.toNat then s.failRestore 0xFF 0
  else
    let ((s1, m1), (s2, m2)) := s.restoreRoles p
    let shard := p.body.training && !r.frozenOnly
    let es := (p.manifests.zipIdx.map (fun (b, i) =>
      ((Manifest.extents b).filter (fun e => p.needs s1 m1 shard i e || (shard && e.kind != 2 && p.needs s2 m2 shard i e))).map (i, ·))).flatten
    { s with restore := some { r with extents := es } }

/-- One extent is read by its half. -/
def State.readExtent (s : State) (i : Nat) : State :=
  match s.restore with
  | none => s
  | some r =>
    match r.extents[i]? with
    | none => s
    | some (m, e) =>
      let h := s.halfFor e.index
      if e.issued || r.failed.isSome || !s.engineUp h then s
      else if s.storageDown h e.target then s.failRestore 0xFF 0
      else match s.issueNvme h r.cmds e.target (.readExtent i) 2 e.lba e.blocks with
        | none => s
        | some (c, s) =>
          { s with restore := some { r with extents := listSet r.extents i (m, { e with issued := true }), cmds := r.cmds ++ [c] } }

/-- Groups of a shard written to a crucible: page `i` of the set goes to `page i`, its scales to `scale i`. -/
def Crucible.putGroups (x : Crucible) (page scale : Nat → Nat) (gs : List (List Byte × List Byte)) : Crucible :=
  gs.zipIdx.foldl (fun x (g, i) => (x.hbmStoreAs .portDie (some 2) (page i) g.1 none).hbmStoreAs .portDie (some 2) (scale i) g.2 none) x

/-- Crucible c's groups of a shard of `n` groups. -/
def RestorePlan.quarterGroups (p : RestorePlan) (stage member n : Nat) (c : Cru) : Option (List (List Byte × List Byte)) :=
  let (g0, gn) := quarter n c.val
  ((List.range gn).map (fun j => p.groupBytes stage member (g0 + j))).mapM id

/-- Everything in its place on one crucible; none when a byte it needs is in no manifest. -/
def State.restoreCrucible (s : State) (r : RestoreRun) (p : RestorePlan) (c : Cru) : Option State :=
  let ((s1, m1), (s2, m2)) := s.restoreRoles p
  let training := p.body.training
  let n1 := if training then p.body.shardGroups p.starts p.group s1 m1 else 0
  let n2 := if training then p.body.shardGroups p.starts p.group s2 m2 else 0
  let own := (quarter n1 c.val).2
  let twin := (quarter n2 c.val).2
  let x := s.crucible c
  let x := if x.riser.own = own ∧ x.riser.twin = twin then x
           else { x with riser := { x.riser with own := own, twin := twin, armed := false, units := [] } }
  let r3 := x.riser.region3
  let frozen := fun (x : Crucible) => (p.frozenStream s1 m1).map (fun bs =>
    let (u0, un) := quarter (bs.length / 65536) c.val
    x.hbmStoreAs .portDie (some 2) x.riser.region4 ((bs.drop (65536 * u0)).take (65536 * un)) none)
  if r.frozenOnly then (frozen x).map (s.putCrucible c)
  else
    match p.quarterGroups s1 m1 n1 c, p.quarterGroups s2 m2 n2 c with
    | some a, some b =>
      let x := x.putGroups (fun i => region2 + i * pageSize) (fun i => r3 + i * 1024) a
      let x := x.putGroups (fun i => region2 + (own + i) * pageSize) (fun i => r3 + (own + i) * 1024) b
      (frozen x).map (s.putCrucible c)
    | _, _ => none

/-- Every extent has been read: the values go to their places, and the restore ends (R539, R540). -/
def State.finishRestore (s : State) (r : RestoreRun) : State :=
  let p := s.restorePlan r
  match (cruList.filter (fun c => (s.crucible c).live)).foldlM (fun s c => State.restoreCrucible s r p c) s with
  | none => s.failRestore 0xFF 0
  | some t =>
    { t with restore := none,
             tundish := if r.frozenOnly then t.tundish else { t.tundish with shardsBad := false },
             steps := if r.frozenOnly then t.steps else { t.steps with firstFixed := some (r.step.toNat + 1) } }.transferWritten

/-- The restore goes on as far as it can. -/
def State.pushRestore (s : State) : State :=
  match s.restore with
  | none => s
  | some r =>
    if r.failed.isSome then s
    else if !r.allRead then (if r.cmds.isEmpty then s.readManifests else s)
    else
      let s := if r.extents.isEmpty && r.data.isEmpty then s.chooseExtents r else s
      match s.restore with
      | none => s
      | some r =>
        if r.failed.isSome then s
        else
          let s := (List.range r.extents.length).foldl State.readExtent s
          match s.restore with
          | none => s
          | some r => if r.cmds.isEmpty && r.extents.all (fun e => e.2.issued) then s.finishRestore r else s

def State.cmdRestore (s : State) (m : CmdMsg) : State :=
  s.serve m 0x0052 [(0, 8), (8, 4), (16, 8), (24, 4)] (fun a s =>
    let step := cmdField m 0 8
    let win := cmdField m 8 4
    let off := cmdField m 16 8
    let len := cmdField m 24 4
    s.checked a ([bad (decide (2 ^ 48 ≤ step)) 0] ++ s.windowChecks win off len 8 16 ++ [bad (decide (len < 64)) 24] ++ s.windowAway win)
      (fun s =>
        let (bs, s) := s.readWindow win off len
        let n := leField bs 4 4
        let frozen := leField bs 2 1 &&& 2 == 2
        let bw := leField bs 16 4
        let bo := leField bs 24 8
        let bl := leField bs 32 4
        s.checked a ((match headBad bs 2 2 (if frozen then [(8, 8), (16, 4), (24, 8), (32, 4)] else [(8, 8)]) with
            | some d => [bad true (0x80000000 + d)]
            | none => []) ++ [bad (decide (len ≠ 64 + 16 * n)) 24] ++
            (if frozen then s.windowChecks bw bo bl (0x80000000 + 16) (0x80000000 + 24) ++ s.windowAway bw else []) ++
            (match s.leaseBad bs n with
             | some d => [bad true (0x80000000 + d)]
             | none => []) ++
            (if frozen then [noJob (!s.job.active || s.tundish.health.isNone)]
             else [noPlacement s.tundish.placement.isNone, busy (s.tundish.stepTaken || s.tundish.next.isSome)]) ++ [busy s.storing]) (fun s =>
          let (body, s) := if frozen then s.readWindow bw bo bl
            else (match s.tundish.placement with
              | some p => p.body
              | none => [], s)
          ({ s with restore := some ⟨BitVec.ofNat 48 step, frozen, BitVec.ofNat 64 (leField bs 8 8), body, leasesOf bs n, [], [], [], [],
              none⟩ }.ok a 0 []).pushRestore)))

/-! ### Completions (R459, R529, R532) -/

def takeCmd (cs : List NvmeCmd) (h : HalfIx) (target num : Nat) : Option NvmeCmd :=
  cs.find? (fun c => c.half == h && c.target == target && c.num == num)

/-- An NVMe command of the running ingot ends. -/
def State.ingotCompletion (s : State) (g : IngotRun) (c : NvmeCmd) (status : W16) : State :=
  let g' := { g with cmds := g.cmds.filter (· ≠ c) }
  if status ≠ 0 then
    ({ s with ingot := some g' }.modHalf c.half (fun v => v.cmdBump 5)).failIngot (BitVec.ofNat 8 c.target) status
  else
    let read := match c.use with
      | .extent i => (match g.extents[i]? with
        | some e => e.done || g.failed.isSome
        | none => false)
      | _ => true
    if read then ({ s with ingot := some g' }.settleIngot).pushIngot else s

/-- What a read of the running restore brings. -/
def RestoreRun.take (r : RestoreRun) (c : NvmeCmd) (data : List Byte) : RestoreRun :=
  match c.use with
  | .readManifest i =>
    { r with manifests := r.manifests.map (fun b => if b.slot = i then
        { b with bytes := b.bytes ++ padTo (4096 * (match r.slots[i]? with
            | some l => min nvmeBlocks (l.blocks - b.bytes.length / 4096)
            | none => 0)) data } else b) }
  | .readExtent i =>
    match r.extents[i]? with
    | some (_, e) => { r with data := r.data ++ [(i, padTo e.bytes data)] }
    | none => r
  | _ => r

/-- Start of working space on crucible c: region 8 of the placement; with none, what follows the frozen weights of the body (R292, R536). -/
def State.workStart (s : State) (r : RestoreRun) (c : Cru) : Nat :=
  match s.tundish.placement with
  | some p => p.regionAt c.val 7
  | none =>
    let p := s.restorePlan r
    let ((stage, member), _) := s.restoreRoles p
    (s.crucible c).riser.region4 + 65536 * (quarter (p.body.frozenUnits p.starts p.group stage member) c.val).2

/-- An extent's bytes come into working space, in partition 2; on which crucible and where is free (R458, R538, log 167). -/
def State.stageExtent (s : State) (r : RestoreRun) (data : List Byte) : State :=
  let (i, s) := s.fresh
  let (j, s) := s.fresh
  let c : Cru := Fin.ofNat 4 (Config.freeNat i)
  let top := 2 ^ 36 - data.length
  let lo := min (s.workStart r c) top
  s.atCrucible c (fun x => x.hbmStoreAs .portDie (some 2) (lo + Config.freeNat j % (top - lo + 1)) data none)

/-- An extent's bytes fail its CRC (R538). -/
def RestoreRun.badCrc (r : RestoreRun) : Bool :=
  r.data.any (fun (i, bs) => match r.extents[i]? with
    | some (_, e) => e.crc != some (crc64 bs)
    | none => false)

def State.restoreCompletion (s : State) (r : RestoreRun) (c : NvmeCmd) (status : W16) (data : List Byte) : State :=
  let r' := { r with cmds := r.cmds.filter (· ≠ c) }
  if status ≠ 0 then
    ({ s with restore := some r' }.modHalf c.half (fun v => v.cmdBump 5)).failRestore (BitVec.ofNat 8 c.target) status
  else
    let r' := if r.failed.isSome then r' else r'.take c data
    let s := { s with restore := some r' }
    let s := match c.use, r.failed with
      | .readExtent i, none => (match r.extents[i]? with
        | some (_, e) => s.stageExtent r (padTo e.bytes data)
        | none => s)
      | _, _ => s
    if r'.badCrc then s.failRestore 0xFF 0 else s.settleRestore.pushRestore

/-- NVME_COMPLETION. -/
def execNvmeCompletion (f : Frame) (target : Fin 32) (command : Nat) (status : W16) (data : List Byte) (s : State) :
    Host.Outcome State Fault Refusal :=
  let h := f.half
  .next (s.onFrames f ((if data.isEmpty then 0 else frames ((s.halfAt h).targetMtu target.val 1) data.length) + 1) (fun s =>
    if !s.engineUp h then s
    else match s.ingot with
      | some g =>
        match takeCmd g.cmds h target.val command with
        | some c => (s.storageCe h c f.ce).ingotCompletion g c status
        | none => s
      | none =>
        match s.restore with
        | some r =>
          match takeCmd r.cmds h target.val command with
          | some c => (s.storageCe h c f.ce).restoreCompletion r c status data
          | none => s
        | none => s))

end Sys2Proof.Machine
end

