-- ==== Sys2Proof/Machine/Update.lean ====
section
/-!
DEFINITION. Firmware update, activation and attestation (R611–R613, R634–R637, R642–R644).
-/
namespace Sys2Proof.Machine

/-! ### UPDATE_WRITE (R615, R633, R634) -/

/-- The only slot that may be written: the inactive one, or the recovery slot. -/
def State.updateSlot (s : State) : Nat :=
  let st := s.slotState
  if s.boot.mode = .recovery then (if st.confirmed = 0xFF then 0 else 1 - st.confirmed.toNat) else 1 - st.active

def sectorBytes : Nat := 65536

/-- The flash sector of a slot offset. -/
def sectorOf (slot off : Nat) : Nat := 1024 * slot + off / sectorBytes

/-- A slot's bytes without the 0xFF at their end. -/
def trimSlot (bs : List Byte) : List Byte := (bs.reverse.dropWhile (fun b => b == (0xFF : Byte))).reverse

/-- The slot with `bs` at offset `o`. -/
def slotWrite (slot : List Byte) (o : Nat) (bs : List Byte) : List Byte :=
  trimSlot (slotRead slot 0 o ++ bs ++ slot.drop (o + bs.length))

def Boot.putSlot (b : Boot) (n : Nat) (o : Nat) (bs : List Byte) : Boot :=
  if n = 0 then { b with slotA := slotWrite b.slotA o bs } else { b with slotB := slotWrite b.slotB o bs }

/-- An erase mark: 0 intent, 1 done. -/
def State.eraseMark (s : State) (sector mark : Nat) : State × Bool :=
  let (t, ok) := s.store.commitNow s.power.aon 0x09 sector (leBytes 4 mark)
  ({ s with store := t }, ok)

/-- UPDATE_WRITE ends. -/
def State.endUpdate (s : State) (u : UpdateRun) (status : W16) (detail : W32) : State :=
  { s with boot := { s.boot with update := none } }.reply ⟨u.half, u.qp, 0x0070, u.tag, 0⟩ status detail u.unavailable []

/-- The next sector is erased, its intent durable; with nothing left the command is done. Without an intent nothing is erased, and the
command fails as a sector does (log 40). -/
def State.startSector (s : State) (u : UpdateRun) : State :=
  if u.data.isEmpty then s.endUpdate u 0 0
  else
    match s.eraseMark (sectorOf u.slot u.imageOff) 0 with
    | (s, false) => s.endUpdate u 9 9
    | (s, true) =>
      { s with boot := { s.boot.putSlot u.slot u.imageOff (List.replicate sectorBytes 0xFF) with update := some u },
               store := s.store.countErase (sectorOf u.slot u.imageOff) }

/-- UPDATE_WRITE. The source is read as the command starts (log 40). -/
def State.cmdUpdateWrite (s : State) (m : CmdMsg) : State :=
  s.serve m 0x0070 [(0, 4), (8, 8), (16, 4), (20, 4)] (fun a s =>
    let win := cmdField m 0 4
    let off := cmdField m 8 8
    let len := cmdField m 16 4
    let at_ := cmdField m 20 4
    s.checked a (s.windowChecks win off len 0 8 ++
        [bad (decide (len % sectorBytes ≠ 0)) 16, bad (decide (at_ % sectorBytes ≠ 0) || decide (67108864 < at_ + len)) 20,
         busy (s.boot.update.isSome || s.boot.activation.isSome)] ++ (if len = 0 then [] else s.windowAway win)) (fun s =>
      let (bs, s) := s.readWindow win off len
      s.startSector ⟨m.half, m.qp, m.tag, 0, s.updateSlot, at_, bs, false⟩))

/-- FLASH_SECTOR_DONE: the sector in progress reads back as written, or not. What a sector that failed holds is not stated: free bytes. -/
def execFlashSectorDone (ok : Bool) (s : State) : Host.Outcome State Fault Refusal :=
  .next (
    match s.boot.update with
    | none => s
    | some u =>
      let sector := sectorOf u.slot u.imageOff
      let (s, _) := s.eraseMark sector 1
      if ok then
        let s := { s with boot := s.boot.putSlot u.slot u.imageOff (u.data.take sectorBytes) }
        s.startSector { u with imageOff := u.imageOff + sectorBytes, data := u.data.drop sectorBytes, retried := false }
      else
        let (i, s) := s.fresh
        let s := { s with boot := s.boot.putSlot u.slot u.imageOff (padTo sectorBytes (Config.freeBytes i)) }
        if u.retried then s.endUpdate u 9 9 else s.startSector { u with retried := true })

/-! ### ACTIVATE (R633, R635, R636) -/

/-- Step work that has not been checked is discarded. -/
def Steps.discard (t : Steps) : Steps :=
  { Steps.reset with oldest := t.oldest, next := t.oldest.toNat, queuedEnd := t.oldest.toNat, gen := t.gen, genNext := t.genNext,
                     checked := t.checked, checkedValid := t.checkedValid, everChecked := t.everChecked, firstOpen := t.firstOpen }

def allPorts : List (Cru × Nat) := (cruList.map (fun c => (List.range 16).map (fun n => (c, n)))).flatten

/-- The ports that are Up, as 16 × crucible + port. -/
def State.portsUp (s : State) : List Nat :=
  (allPorts.filter (fun (c, n) => ((s.crucible c).port n).mode == .up)).map (fun (c, n) => 16 * c.val + n)

/-- Steps 1 and 2 of R636, and the port die's restart: its registers keep their values, and what a transfer to or from storage still has
to do waits (R38, R636, log 155). An intent that cannot be made durable leaves the rest undone (log 39). -/
def State.beginActivation (s : State) (step : W48) : State :=
  let ports := s.portsUp
  let s := s.eachLive (fun _ x => x.haltAll)
  let s := { s with steps := s.steps.discard,
                    tundish := { s.tundish with placement := none, next := none, kernels := [], stepTaken := false } }
  let st := s.slotState
  let n := 1 - st.active
  match s.commitSlot { st with active := n, trial := true, boots := 0, trialVersion := s.boot.slotVersion n } with
  | (s, false) => { s with boot := { s.boot with activation := none } }
  | (s, true) =>
    let block := fun (h : Half) => if h.eventQp.isSome then { h with eventBlocked := true } else h
    { s with boot := { s.boot with activation := some ⟨2, step, ports⟩, image := none, reasonKept := false, trial := some trialTicks },
             half := ⟨block s.half.h0, block s.half.h1⟩ }

/-- A live crucible's job set holds ACTIVE 1. -/
def State.anyActive (s : State) : Bool := cruList.any (fun c => (s.crucible c).live && (s.crucible c).xport.job.live.active)

/-- ACTIVATE in recovery mode: the recovery slot is booted as a trial, after a module reset. -/
def State.activateRecovery (s : State) (a : AnswerTo) : State :=
  let n := s.updateSlot
  let st := s.slotState
  s.checked a [busy s.boot.update.isSome] (fun s =>
    match s.commitSlot { st with active := n, trial := true, boots := 0, trialVersion := s.boot.slotVersion n } with
    | (s, true) => ({ s with boot := { s.boot with reasonKept := false } }.ok a 0 []).modulePowerOn
    | (s, false) => s.ok a 0 [])

def State.cmdActivate (s : State) (m : CmdMsg) : State :=
  if s.boot.mode = .recovery ∧ cmdField m 8 1 ≠ 0 ∧ malformed m [(0, 8), (8, 1)] = none then s.reply (s.answerOf m 0x0071) 2 0 0 []
  else s.serve m 0x0071 [(0, 8), (8, 1)] (fun a s =>
    if s.boot.mode = .recovery then s.activateRecovery a
    else
      let step := cmdField m 0 8
      let when_ := cmdField m 8 1
      s.checked a [bad (when_ == 1 && decide (2 ^ 48 ≤ step)) 0, bad (decide (1 < when_)) 8, bad (when_ == 1 && !s.job.active) 8,
          busy (s.boot.activation.isSome || s.boot.update.isSome || s.tundish.run.isSome || s.storing || (when_ == 0 && s.anyActive))]
        (fun s =>
          let s := s.ok a 0 []
          if when_ = 1 then { s with boot := { s.boot with activation := some ⟨1, BitVec.ofNat 48 step, []⟩ } } else s.beginActivation 0))

/-- ACTIVATION_START: the step of a queued activation is checked, and ACTIVE is 0 everywhere. -/
def execActivationStart (s : State) : Host.Outcome State Fault Refusal :=
  .next (
    match s.boot.activation with
    | some a =>
      if a.stage = 1 ∧ s.steps.everChecked ∧ a.step.toNat ≤ s.steps.checked.toNat ∧ s.anyActive = false then s.beginActivation a.step
      else s
    | none => s)

/-- CRUCIBLE_RESTART_DONE: the crucible that an activation restarts is back, or the last conditions of the confirmation hold. -/
def execCrucibleRestartDone (c : Cru) (s : State) : Host.Outcome State Fault Refusal :=
  .next (
    match s.boot.activation with
    | some a =>
      if a.stage = 3 + c.val ∧ (s.crucible c).returning then s.crucibleBack c
      else if a.stage = 7 then s.tryConfirm
      else s
    | none => s)

/-- ACTIVATION_PAUSE_TIMEOUT: the part has not returned within 1.5 s, or 2.5 s. -/
def execActivationPauseTimeout (part : UpdatePart) (s : State) : Host.Outcome State Fault Refusal :=
  .next (
    match s.boot.activation, part with
    | some a, .portDie => if a.stage = 2 then s.failActivation 8 else s
    | some a, .crucible c => if a.stage = 3 + c.val then s.failActivation 8 else s
    | none, _ => s)

/-- TRIAL_TIMEOUT: the 120 s of a trial period have passed. -/
def execTrialTimeout (s : State) : Host.Outcome State Fault Refusal :=
  .next (if s.boot.trial.isSome then s.resetFor 7 else s)

/-! ### Signing (R611, R612) -/

/-- The HSS count of signed keys, and tree k's top-level signature: 1,616 bytes (log 41). -/
def topPart (otp : List Byte) (k : Nat) : List Byte := beBytes 4 1 ++ padTo 1612 (Config.topSignature otp k)

def bottomPart (otp : List Byte) (k : Nat) : List Byte := padTo 56 (Config.bottomKey otp k)

/-- The HSS signature of a message with leaf g. -/
def hssSignature (otp : List Byte) (g : Nat) (msg : List Byte) : List Byte :=
  topPart otp (g / 32768) ++ bottomPart otp (g / 32768) ++ padTo 1612 (Config.leafSignature otp g msg)

/-- The payload of the reservation that leaf g needs. -/
def reservePayload (otp : List Byte) (g : Nat) : List Byte :=
  leBytes 4 (g + 256) ++ (if g % 32768 = 0 then bottomPart otp (g / 32768) ++ topPart otp (g / 32768) else [])

/-- A signature is released, or refused with a code of R625. -/
def State.sign (s : State) (msg : List Byte) : (List Byte ⊕ W16) × State :=
  let g := s.boot.nextLeaf
  let release := fun (s : State) =>
    (Sum.inl (hssSignature s.boot.otp g msg),
     { s with boot := { s.boot with nextLeaf := g + 1 },
              store := { s.store with signBlocked := false, wear := { s.store.wear with spent := s.store.wear.spent + 1 } } })
  if g = 2 ^ 30 then (.inr 0x101, s)
  else if g = s.store.reservedEnd then
    match s.store.commitNow s.power.aon 0x01 0 (reservePayload s.boot.otp g) with
    | (t, true) => release { s with store := t }
    | (t, false) => (.inr 0x100, { s with store := { t with signBlocked := true } })
  else release s

/-! ### ATTEST (R642, R643) -/

/-- A measurement. -/
def measurement (kind : Byte) (index version : Nat) (digest : List Byte) : List Byte :=
  [kind, 0] ++ leBytes 2 index ++ leBytes 4 version ++ padTo 32 digest

def RunImage.measure (i : Option RunImage) (kind : Byte) (index : Nat) : List Byte :=
  match i with
  | some r => measurement kind index r.version.toNat r.digest
  | none => measurement kind index 0 []

def State.measureCrucible (s : State) (c : Cru) : List Byte :=
  let x := s.crucible c
  RunImage.measure (if x.service = .outOfService then none else x.fw) 3 c.val

def State.measureSetting (s : State) (g : Nat) : List Byte :=
  match s.store.current 0x08 g with
  | some r => measurement 4 g r.format.toNat (sha256 r.payload)
  | none => measurement 4 g 0 []

/-- The ten measurements. -/
def State.measurements (s : State) : List Byte :=
  measurement 1 0 Config.romVersion.toNat Config.romDigest ++ RunImage.measure s.boot.image 2 0 ++
    (cruList.map s.measureCrucible).flatten ++ ((List.range 3).map s.measureSetting).flatten ++
    measurement 5 0 (fusedVersion s.boot.otp) (s.boot.otp.take 32)

/-- KERNELS_DIGEST. -/
def State.kernelsDigest (s : State) : List Byte :=
  sha256 (((sortKernels s.tundish.kernels).map (fun (k : Kernel) =>
    leBytes 2 k.code.toNat ++ sha256 k.codeBytes ++ sha256 k.keyBytes)).flatten)

def signatureBytes : Nat := 3284

/-- The quote's bytes 0 to 551. -/
def State.quote (s : State) (nonce : List Byte) : List Byte :=
  let otp := s.boot.otp
  leBytes 2 1 ++ leBytes 2 10 ++ leBytes 4 signatureBytes ++ padTo 8 ((otp.drop 0x40).take 8) ++ nonce ++
    leBytes 4 s.tundish.kernels.length ++ List.replicate 4 0 ++ s.kernelsDigest ++
    (beBytes 4 2 ++ beBytes 4 7 ++ beBytes 4 4 ++ padTo 16 ((otp.drop 0x50).take 16) ++ padTo 32 ((otp.drop 0x80).take 32)) ++
    List.replicate 4 0 ++ s.measurements

def State.cmdAttest (s : State) (m : CmdMsg) : State :=
  s.serve m 0x0072 [(0, 32)] (fun a s =>
    let q := s.quote (m.body.take 32)
    match s.sign q with
    | (.inl sig, s) => (s.secBump 0).ok a 0 (q ++ sig)
    | (.inr code, s) => s.reply a 9 (code.setWidth 32) 0 [])

end Sys2Proof.Machine
end

