-- ==== Sys2Proof/Machine/Power.lean ====
section
/-!
DEFINITION. The power sequencer (R565–R574): standby, power-up, power-down, SYS_RST_N, temperature and power samples.
-/
namespace Sys2Proof.Machine

/-! ### Events and flags (R574, R593) -/

/-- Crucibles and port die are powered (R565). -/
def PowerMode.powered (m : PowerMode) : Bool := m == .on || m == .enteringBanked || m == .banked || m == .waking

/-- Rails are up or ramping, and no power-down has started. -/
def PowerMode.running (m : PowerMode) : Bool := m.powered || m == .poweringUp

def State.setPowerEvent (s : State) (i : Nat) : State := { s with power := { s.power with event := setFlag s.power.event i } }

/-- A POWER event of the port die or of the whole module. -/
def State.powerEvent (s : State) (kind : Byte) (value : Nat) : State :=
  s.notify 0xC009 portDieSource ([kind, s.power.level.setWidth 8, 0, 0] ++ leBytes 4 value)

/-- A crucible's throttle level (R570). -/
def State.throttleOf (s : State) (c : Cru) : Nat := (s.crucible c).pwr.throttle s.power.level

/-- A POWER event of crucible c. -/
def State.cruPowerEvent (s : State) (c : Cru) (kind : Byte) (value : Nat) : State :=
  s.cruEvent 0xC009 c ([kind, BitVec.ofNat 8 (s.throttleOf c), 0, 0] ++ leBytes 4 value)

/-! ### Power-down (R568, R569, R607, R614) -/

/-- A last record, written as a power-down starts (log 42). -/
def StoreBlock.lastRecord (t : StoreBlock) (now : W64) (kind : Byte) (key : Nat) (payload : List Byte) : StoreBlock :=
  if t.failed || t.stopped then t
  else { t with nextSeq := t.nextSeq + 1 }.durable now ⟨kind, BitVec.ofNat 32 key, 1, payload, .nothing⟩ t.nextSeq

/-- The store's end: the record in progress, the cause, WEAR with the seconds since the last one, and nothing more. -/
def StoreBlock.powerDown (t : StoreBlock) (now : W64) (cause : Byte) (step seconds : Nat) : StoreBlock :=
  let t := t.finishNow now
  let t := { t with wear := { t.wear with seconds := t.wear.seconds + seconds } }
  let t := t.lastRecord now kHistory 4 (historyEntry 3 0xFF (now.toNat / 25000000) step [cause])
  { t.lastRecord now 0x07 0 t.wear.bytes with stopped := true }

/-- A crucible that no longer runs; its sensors do. -/
def Crucible.unpowered (x : Crucible) : Crucible := { Crucible.reset with pwr := x.pwr }

def Crucible.powerLost (x : Crucible) : Crucible := { Crucible.reset with pwr := { PowerBlock.reset with aon := x.pwr.aon } }

def State.mapCrucibles (s : State) (f : Crucible → Crucible) : State :=
  { s with cru := ⟨f s.cru.c0, f s.cru.c1, f s.cru.c2, f s.cru.c3⟩ }

/-- The module powers down. Nothing runs, sends or takes commands from now on. A firmware update in progress is the write abandoned
(R614, log 173). The WEAR record's seconds since the last one are a free
value below 600 (log 42). -/
def State.powerDown (s : State) (cause : BitVec 3) : State :=
  let (i, s) := s.fresh
  let t := if s.boot.update.isSome then s.store.bump 4 1 else s.store
  let t := t.powerDown s.power.aon (cause.setWidth 8) s.steps.oldest.toNat (Config.freeNat i % 600)
  ({ s with store := t, boot := s.boot.renew, held := [], host := { s.host with running := [] }, ingot := none, restore := none,
            power := { s.power with mode := .poweringDown, bankCmd := none, wakeDue := false, wakeCmds := [] } }).mapCrucibles
    Crucible.unpowered

/-- The input is lost with every rail down: what stood in always-on registers is gone. -/
def State.inputGone (s : State) : State :=
  { s with power := { Power.reset with pwrEn := s.power.pwrEn }, cru := Quad.all Crucible.reset, store := s.store.renew,
           boot := s.boot.renew }

/-- Input voltage beyond a limit: a power-down, or in standby its end (R565, R568). -/
def State.inputBad (s : State) (vin : W16) (cause : BitVec 3) (kind : Byte) : State :=
  let s := { s with power := { s.power with vin := vin } }
  if s.power.mode.running then (s.powerEvent kind vin.toNat).powerDown cause
  else if s.power.mode = .standby then s.inputGone
  else s

/-- INPUT_LOST. -/
def execInputLost (vin : W16) (s : State) : Host.Outcome State Fault Refusal :=
  .next (if vin.toNat < 44000 then ({ s with power := { s.power with uv := true } }).inputBad vin 1 0 else s)

/-- INPUT_OVER_VOLTAGE. -/
def execInputOverVoltage (vin : W16) (s : State) : Host.Outcome State Fault Refusal :=
  .next (if vin.toNat > 60000 then ({ s with power := { s.power with ov := true } }).inputBad vin 4 1 else s)

/-- A power-down for which R574 has no KIND: the event's KIND is a free value (log 43). -/
def State.powerDownOther (s : State) (cause : BitVec 3) : State :=
  let (i, s) := s.fresh
  (s.powerEvent (BitVec.ofNat 8 (Config.freeNat i)) 0).powerDown cause

/-- RAIL_FAULT. -/
def execRailFault (s : State) : Host.Outcome State Fault Refusal :=
  .next (if s.power.mode.running then s.powerDownOther 5 else s)

/-- PWR_EN_LOW. -/
def execPwrEnLow (s : State) : Host.Outcome State Fault Refusal :=
  .next (
    let s := { s with power := { s.power with pwrEn := false } }
    if s.power.mode.running then s.powerDownOther 2 else s)

/-- POWER_DOWN_COMPLETE: the rails are off. The module waits for standby. -/
def execPowerDownComplete (s : State) : Host.Outcome State Fault Refusal :=
  .next (
    if s.power.mode = .poweringDown ∧ s.power.off = false then
      ({ s with half := ⟨s.half.h0.renew, s.half.h1.renew⟩, host := HostShare.reset, tundish := Tundish.reset, steps := Steps.reset,
                store := s.store.renew, power := { s.power with off := true } }).mapCrucibles Crucible.powerLost
    else s)

/-! ### Standby and power-up (R565–R567, R571, R585) -/

/-- PWR_EN is high in standby: the rails ramp. -/
def Power.startUp (p : Power) : Power :=
  if p.mode = .standby ∧ p.off = false ∧ p.pwrEn ∧ p.tripped = false then { p with mode := .poweringUp } else p

/-- STANDBY_ENTRY: the input has stayed in range for 10 ms; SLOT_ID is sampled. -/
def execStandbyEntry (slot : BitVec 6) (s : State) : Host.Outcome State Fault Refusal :=
  .next (
    if s.power.off then { s with power := { s.power with mode := .standby, off := false, slotId := slot }.startUp } else s)

/-- PWR_EN_HIGH. -/
def execPwrEnHigh (s : State) : Host.Outcome State Fault Refusal :=
  .next { s with power := { s.power with pwrEn := true }.startUp }

/-- POWER_UP_COMPLETE: PWR_GOOD, On, and the resets released. -/
def execPowerUpComplete (s : State) : Host.Outcome State Fault Refusal :=
  .next (if s.power.mode = .poweringUp then s.modulePowerOn else s)

/-- SYS_RST_N, low for at least 10 µs while the module is On; SLOT_ID is sampled at its release. -/
def execSysRstN (slot : BitVec 6) (s : State) : Host.Outcome State Fault Refusal :=
  .next (if s.power.mode = .on then ({ s with power := { s.power with slotId := slot } }).modulePowerOn else s)

/-- THERM_TRIP_RELEASE: PWR_EN has been low for 10 ms. -/
def execThermTripRelease (s : State) : Host.Outcome State Fault Refusal :=
  .next (if s.power.pwrEn then s else { s with power := { s.power with tripped := false } })

/-- VIN_WARN: VIN between the warning and the power-down limits for 1 ms (R569). -/
def execVinWarn (vin : W16) (s : State) : Host.Outcome State Fault Refusal :=
  .next (
    let v := vin.toNat
    let low := decide (44000 ≤ v) && decide (v ≤ 46000)
    let high := decide (58000 ≤ v) && decide (v ≤ 60000)
    if low || high then
      ({ s with power := { s.power with vin := vin, uv := s.power.uv || low, ov := s.power.ov || high } }.setPowerEvent 5).powerEvent 8 v
    else s)

/-! ### Throttling (R570–R572) -/

/-- Levels before and after a sample: a level that left 0, and the return of every level to 0, each set a flag and send one event
(log 46). -/
def State.throttleChange (s : State) (before : List Nat) : State :=
  let after := cruList.map s.throttleOf
  let left := cruList.filter (fun c => before.getD c.val 0 == 0 && s.throttleOf c != 0)
  let avg := s.power.avg.toNat
  if !left.isEmpty then
    let s := s.setPowerEvent 4
    match left with
    | [c] => s.cruPowerEvent c 3 avg
    | _ => s.powerEvent 3 avg
  else if before.any (· ≠ 0) && after.all (· == 0) then (s.setPowerEvent 3).powerEvent 4 avg
  else s

/-- 95 °C, and the width of a level, in 0.25 °C. -/
def warnTemp : Nat := 380

/-- The level a hot spot raises. -/
def thermalLevel (t : Nat) : Nat := if t < warnTemp then 0 else min 4 ((t - warnTemp) / 8 + 1)

/-- The level a hot spot still holds: the reading has not fallen 2 °C below the level's threshold. -/
def heldLevel (old t : Nat) : Nat := if t + 8 ≤ warnTemp then 0 else min old ((t + 8 - warnTemp - 1) / 8 + 1)

/-- A reading of one crucible. -/
def PowerBlock.sample (p : PowerBlock) (die a b : BitVec 10) (levels : Bool) : PowerBlock :=
  let p := { p with die := die, hbm0 := a, hbm1 := b }
  if levels then
    let hot := max a.toNat b.toNat
    { p with dieLevel := BitVec.ofNat 3 (max (thermalLevel die.toNat) (heldLevel p.dieLevel.toNat die.toNat)),
             hbmHot := decide (warnTemp ≤ hot) || (p.hbmHot && decide (warnTemp < hot + 8)) }
  else p

/-- The sensor that has reached its trip value: a crucible, or 4 for the port die, and its reading. -/
def tripOf (t : TempReading) : Option (Nat × Nat) :=
  match (List.range 4).find? (fun c => decide (460 ≤ (t.die.getD c 0).toNat)) with
  | some c => some (c, (t.die.getD c 0).toNat)
  | none =>
    match (List.range 8).find? (fun i => decide (420 ≤ (t.hbm.getD i 0).toNat)) with
    | some i => some (i / 2, (t.hbm.getD i 0).toNat)
    | none => if 460 ≤ t.portDie.toNat then some (4, t.portDie.toNat) else none

/-- The readings are taken. -/
def State.readTemps (s : State) (t : TempReading) : State :=
  let f := fun (s : State) (c : Cru) => s.atCrucible c (fun x =>
    { x with pwr := x.pwr.sample (t.die.getD c.val 0) (t.hbm.getD (2 * c.val) 0) (t.hbm.getD (2 * c.val + 1) 0) s.power.mode.powered })
  let s := cruList.foldl f s
  { s with power := { s.power with tempPd := t.portDie } }

/-- THERMAL_WARN: crucible c's thermal level has left 0. -/
def State.thermalWarn (s old : State) (t : TempReading) (c : Cru) : State :=
  if (old.crucible c).pwr.thermal = 0 ∧ (s.crucible c).pwr.thermal ≠ 0 then
    let hot := max (t.die.getD c.val 0).toNat (max (t.hbm.getD (2 * c.val) 0).toNat (t.hbm.getD (2 * c.val + 1) 0).toNat)
    (s.setPowerEvent 2).cruPowerEvent c 5 hot
  else s

/-- A thermal trip (R571). -/
def State.thermalTrip (s : State) (at_ temp : Nat) : State :=
  let s := if at_ < 4 then s.cruPowerEvent (Fin.ofNat 4 at_) 2 temp else s.powerEvent 2 temp
  ({ s with power := { s.power with tripped := true },
            store := { s.store with wear := { s.store.wear with trips := s.store.wear.trips + 1 } } }).powerDown 3

/-- TEMPERATURE_SAMPLE. With the rails down or going down a trip asserts THERM_TRIP_N and has nothing more to power down (R571). -/
def execTemperatureSample (t : TempReading) (s : State) : Host.Outcome State Fault Refusal :=
  .next (
    let before := cruList.map s.throttleOf
    let old := s
    let s := s.readTemps t
    if !s.power.mode.powered then (match tripOf t with
      | some (i, v) =>
        if s.power.mode = .poweringUp then s.thermalTrip i v
        else if s.power.off then s
        else { s with power := { s.power with tripped := true } }
      | none => s)
    else
      let s := cruList.foldl (fun s c => State.thermalWarn s old t c) s
      let s := if old.power.tempPd.toNat < warnTemp ∧ warnTemp ≤ t.portDie.toNat then (s.setPowerEvent 2).powerEvent 5 t.portDie.toNat else s
      let s := s.throttleChange before
      match tripOf t with
      | some (i, v) => s.thermalTrip i v
      | none => s)

/-- Ticks since a change of level, at least `n` of them. -/
def since (now : W64) (n : Nat) (last : Option W64) : Bool :=
  match last with
  | none => true
  | some v => decide (n ≤ now.toNat - v.toNat)

/-- Samples in 10 ms. -/
def averageSamples : Nat := 1000

/-- The power level after a sample of `w` µW and with `sum` µW over the last 10 ms (R572). -/
def Power.adjust (p : Power) (w sum : Nat) : Power :=
  let limit := p.limit.toNat * 1000000 * averageSamples
  if 2600000000 < w then { p with level := 4, roseAt := some p.aon }
  else if limit < sum ∧ p.level.toNat < 4 ∧ since p.aon 2500 p.roseAt then { p with level := p.level + 1, roseAt := some p.aon }
  else if sum * 100 < limit * 95 ∧ p.level ≠ 0 ∧ since p.aon 25000 p.fellAt then { p with level := p.level - 1, fellAt := some p.aon }
  else p

/-- Watts as a register of 12 bits shows them. -/
def watts (uw : Nat) : BitVec 12 := BitVec.ofNat 12 (min 4095 (uw / 1000000))

/-- POWER_SAMPLE: VIN in mV and IIN in mA. The part of the last 10 ms before the first sample counts as 0 (log 47). -/
def execPowerSample (vin iin : W16) (s : State) : Host.Outcome State Fault Refusal :=
  .next (
    let w := vin.toNat * iin.toNat
    let samples := (w :: s.power.samples).take averageSamples
    let sum := samples.foldl (· + ·) 0
    let before := cruList.map s.throttleOf
    let p := { s.power with vin := vin, iin := iin, samples := samples, sample := watts w, avg := watts (sum / averageSamples) }
    ({ s with power := p.adjust w sum }).throttleChange before)

end Sys2Proof.Machine
end

