-- ==== Sys2Proof/Machine/Banked.lean ====
section
/-!
DEFINITION. The Banked state (R579–R582).
-/
namespace Sys2Proof.Machine

/-- Every logical core of a crucible that serves is Halted or Faulted. -/
def Crucible.still (x : Crucible) : Bool :=
  !x.live || (List.range 500).all (fun l => (x.log l).mode == .halted || (x.log l).mode == .faulted)

/-- A crucible is in reset, or frozen on its way there (R555). -/
def Crucible.resets (x : Crucible) : Bool := x.service == .resetting || (x.frozen && x.service != .outOfService)

/-- BANK is accepted (R579). -/
def State.bankable (s : State) : Bool :=
  s.power.mode == .on && !s.anyActive && cruList.all (fun c => (s.crucible c).still) && s.tundish.run.isNone && !s.storing &&
    s.boot.update.isNone && !s.activating && cruList.all (fun c => !(s.crucible c).resets)

/-- Every Up port stops taking packets, and closes (R386). -/
def State.closePorts (s : State) : State :=
  cruList.foldl (fun s c =>
    ((s.crucible c).ports.map Prod.fst).foldl (fun s n =>
      let p := (s.crucible c).port n
      if p.mode = .up then (s.atCrucible c (fun x => x.putPort n { p with closing := true })).settlePort c (Fin.ofNat 16 n) else s) s) s

/-- No port is Up any more. -/
def State.portsClosed (s : State) : Bool := cruList.all (fun c => (s.crucible c).ports.all (fun e => e.2.mode != .up))

/-- BANK: the entry begins; the answer comes when Banked holds. -/
def State.cmdBank (s : State) (m : CmdMsg) : State :=
  s.serve m 0x0080 [] (fun a s =>
    s.checked a [busy (!s.bankable)] (fun s =>
      ({ s with power := { s.power with mode := .enteringBanked, bankCmd := some (m.half, m.qp, m.tag) } }).closePorts))

/-- The fast clocks stop or run (R576). -/
def State.clocks (s : State) (run : Bool) : State :=
  s.eachLive (fun _ x => { x with pwr := { x.pwr with coreLock := run, hbmLock := run, serdesLock := run } })

/-- BANKED_ENTERED: every port is in Keep-alive, or lost, and BANK is answered; a wake asked for meanwhile starts at once. -/
def execBankedEntered (s : State) : Host.Outcome State Fault Refusal :=
  .next (
    if s.power.mode = .enteringBanked ∧ s.portsClosed then
      let cmd := s.power.bankCmd
      let due := s.power.wakeDue
      let s := ({ s with power := { s.power with mode := .banked, bankCmd := none, wakeDue := false } }.setPowerEvent 1).powerEvent 6 0
      let s := s.clocks false
      let s := match cmd with
        | some (h, q, tag) => s.ok ⟨h, q, 0x0080, tag, 0⟩ 0 []
        | none => s
      if due then s.startWake else s
    else s)

/-- WAKE: done at once when On; else a wake starts, or is awaited. -/
def State.cmdWake (s : State) (m : CmdMsg) : State :=
  s.serve m 0x0081 [] (fun a s =>
    if s.power.mode = .on then s.ok a 0 []
    else ({ s with power := { s.power with wakeCmds := s.power.wakeCmds ++ [(m.half, m.qp, m.tag)] } }).startWake)

/-- A crucible that has not finished the wake enters a crucible reset, which counts. The CAUSE in its history entry is not stated: a free
value (log 48). -/
def State.lateReset (s : State) (c : Cru) : State :=
  let x := s.crucible c
  if x.live then
    let (i, s) := s.fresh
    (((s.crucibleEvent c 1).failTransfers).countedReset c (x.hang.recent x.seconds + 1)
      (leBytes 4 x.hang.seq.toNat ++ [BitVec.ofNat 8 (Config.freeNat i)])).hangMeets c
  else s

/-- WAKE_END: 150 µs have passed; `late` names the crucibles that are not ready. -/
def execWakeEnd (late : BitVec 4) (s : State) : Host.Outcome State Fault Refusal :=
  .next (
    if s.power.mode = .waking then
      let cmds := s.power.wakeCmds
      let s := (({ s with power := { s.power with mode := .on, wakeCmds := [] } }.clocks true).setPowerEvent 0).powerEvent 7 0
      let s := (cruList.filter (fun c => late.getLsbD c.val)).foldl State.lateReset s
      cmds.foldl (fun s (h, q, tag) => s.ok ⟨h, q, 0x0081, tag, 0⟩ 0 []) s
    else s)

end Sys2Proof.Machine
end

