-- ==== Sys2Proof/Machine/Branch.lean ====
section
/-!
DEFINITION. Branches (R129; R69): opcodes 0x30 to 0x39.
-/
namespace Sys2Proof.Machine

/-- The index a conditional branch moves to. An untaken branch never checks its target. -/
def branchNext (p : PhysCore) (taken : Bool) (target : W16) : Nat := if taken then target.toNat else p.seqNext

/-- A compare and branch. -/
def branchIf (s : State) (k : CoreId) (op : Byte) (f : FmtB) (r : W64 → W64 → Bool) : State :=
  s.issue k op f.bits fun g p =>
    ⟨decide (f.resv ≠ 0), none, branchNext p (r (p.sreg f.ra) (p.sreg f.rb)) f.target, [], .run g p⟩

def execBeq (k : CoreId) (f : FmtB) (s : State) : Host.Outcome State Fault Refusal :=
  .next (branchIf s k 0x30 f (fun a b => a == b))

def execBne (k : CoreId) (f : FmtB) (s : State) : Host.Outcome State Fault Refusal :=
  .next (branchIf s k 0x31 f (fun a b => a != b))

def execBlt (k : CoreId) (f : FmtB) (s : State) : Host.Outcome State Fault Refusal :=
  .next (branchIf s k 0x32 f (fun a b => a.slt b))

def execBge (k : CoreId) (f : FmtB) (s : State) : Host.Outcome State Fault Refusal :=
  .next (branchIf s k 0x33 f (fun a b => !a.slt b))

def execBltu (k : CoreId) (f : FmtB) (s : State) : Host.Outcome State Fault Refusal :=
  .next (branchIf s k 0x34 f (fun a b => a.ult b))

def execBgeu (k : CoreId) (f : FmtB) (s : State) : Host.Outcome State Fault Refusal :=
  .next (branchIf s k 0x35 f (fun a b => !a.ult b))

def execJmp (k : CoreId) (f : FmtB) (s : State) : Host.Outcome State Fault Refusal :=
  .next (s.issue k 0x36 f.bits fun g p =>
    ⟨decide (f.resv ≠ 0) || decide (f.ra ≠ 0) || decide (f.rb ≠ 0), none, f.target.toNat, [], .run g p⟩)

/-- jal: sA := index of the next instruction. -/
def execJal (k : CoreId) (f : FmtB) (mismatch : Bool) (s : State) : Host.Outcome State Fault Refusal :=
  .next (s.scalarChecked mismatch k fun s => s.issue k 0x37 f.bits fun g p =>
    ⟨decide (f.resv ≠ 0) || decide (f.rb ≠ 0), none, f.target.toNat, [],
     .run g (p.setS f.ra (BitVec.ofNat 64 p.seqNext))⟩)

/-- jr: to index sA; sA of 8,192 or above is PC_RANGE with sA[31:0] in DETAIL. -/
def execJr (k : CoreId) (f : FmtB) (s : State) : Host.Outcome State Fault Refusal :=
  .next (s.issue k 0x38 f.bits fun g p =>
    ⟨decide (f.resv ≠ 0) || decide (f.rb ≠ 0) || decide (f.target ≠ 0), none, (p.sreg f.ra).toNat, [], .run g p⟩)

/-- bdnz: sA := sA − 1, then taken if the new sA is not 0. With s0 the write is discarded and s0 − 1 is not 0 (log 13). -/
def execBdnz (k : CoreId) (f : FmtB) (mismatch : Bool) (s : State) : Host.Outcome State Fault Refusal :=
  .next (s.scalarChecked mismatch k fun s => s.issue k 0x39 f.bits fun g p =>
    let v := p.sreg f.ra - 1
    ⟨decide (f.resv ≠ 0) || decide (f.rb ≠ 0), none, branchNext p (v != 0) f.target, [], .run g (p.setS f.ra v)⟩)

end Sys2Proof.Machine
end

