-- ==== Sys2Proof/Machine/Optimizer.lean ====
section
/-!
DEFINITION. The optimizer: step factors, the update of a parameter, gradient formats, and the update of every shard copy a module holds
(R205, R210, R269–R275, R421).
-/
namespace Sys2Proof.Machine

/-! ### Step factors (R271) -/

def fmtFp64 : FloatFmt := ⟨11, 52, 1023, true, false⟩

/-- A value rounded to binary64, to nearest even. -/
def fp64Round : FpVal → FpVal
  | .fin neg m e =>
    if m = 0 then .fin neg 0 0
    else
      let q := fpQuantum fmtFp64 m e
      .fin neg (roundRne (quantise m e q)) q
  | v => v

def fpOne : FpVal := .fin false 1 0

/-- 1 − v in binary64, rounded once to FP32. -/
def oneMinus (v : FpVal) : W32 := fp32Of (fp64Round (fpAdd fpOne (fpNeg v)))

/-- A quotient in binary64: the quotient's leading 130 bits and a sticky bit are rounded once. -/
def fp64Div : FpVal → FpVal → FpVal
  | .nan, _ => .nan
  | _, .nan => .nan
  | .inf _, .inf _ => .nan
  | .inf a, .fin b _ _ => .inf (a != b)
  | .fin a _ _, .inf b => .fin (a != b) 0 0
  | .fin a m e, .fin b n d =>
    if n = 0 then (if m = 0 then .nan else .inf (a != b))
    else
      let t := m * 2 ^ 130
      fp64Round (.fin (a != b) (2 * (t / n) + (if t % n = 0 then 0 else 1)) (e - d - 131))

/-- A square root in binary64, from 65 or more bits and a sticky bit. -/
def fp64Sqrt : FpVal → FpVal
  | .nan => .nan
  | .inf neg => if neg then .nan else .inf false
  | .fin neg m e =>
    if m = 0 then .fin neg 0 0
    else if neg then .nan
    else
      let t := (if e % 2 = 0 then m else 2 * m) * 2 ^ 130
      let r := isqrt t
      fp64Round (.fin false (2 * r + (if r * r = t then 0 else 1)) ((if e % 2 = 0 then e else e - 1) / 2 - 66))

/-- β^t as the firmware forms it: β for t = 1, else by its own routine (log 25). -/
def betaPower (beta : W32) (t : Nat) : FpVal :=
  if t = 1 then fp32 beta else let v := Config.power beta t; fp64Round (.fin v.1 v.2.1 v.2.2)

/-- The step factors a, c, k, q1, q2 for t, the step number plus 1. -/
def stepFactors (eta b1 b2 decay : W32) (t : Nat) : List W32 :=
  let left := fun (b : W32) => fp64Round (fpAdd fpOne (fpNeg (betaPower b t)))
  [fp32Of (fp64Div (fp32 eta) (left b1)), fp32Of (fp64Div fpOne (fp64Sqrt (left b2))),
   oneMinus (fp64Round (fpMul (fp32 eta) (fp32 decay))), oneMinus (fp32 b1), oneMinus (fp32 b2)]

/-! ### One parameter (R272) -/

structure Hyper where
  a : W32
  c : W32
  k : W32
  q1 : W32
  q2 : W32
  b1 : W32
  b2 : W32
  eps : W32
  deriving DecidableEq, Repr

/-- A parameter in FP32. -/
structure ParamFp where
  w : W32
  m : W32
  u : W32
  deriving DecidableEq, Repr

/-- Steps 1 to 6. -/
def updateParam (h : Hyper) (p : ParamFp) (g : W32) : ParamFp :=
  let m := fp32Fma h.b1 p.m (fp32Mul h.q1 g)
  let v := fp32Fma h.b2 (fp32Mul p.u p.u) (fp32Mul (fp32Mul h.q2 g) g)
  let u := if v = 0 then 0 else fp32Mul v (fp32Rsqrt v)
  let r := fp32Rcp (fp32Fma u h.c h.eps)
  let d := fp32Mul (fp32Mul m h.a) r
  ⟨fp32Fma p.w h.k (fp32Neg d), m, u⟩

/-! ### One block of 32 (R201, R205, R206, R269, R270) -/

/-- What keys the stochastic rounding of a group's update: the global core index, the step, U, and how many groups the core has updated
before in this phase. -/
structure UpdateKey where
  core : Nat
  step : W48
  base : Nat
  before : Nat
  deriving DecidableEq, Repr

def UpdateKey.rand (k : UpdateKey) (field param : Nat) : Nat :=
  let (off, e) := Config.updateOp k.before field param
  srRand k.core k.step (BitVec.ofNat 32 (k.base + off)) e

/-- The parameters of a block, widened exactly. -/
def BlockBytes.params (b : BlockBytes) : List ParamFp :=
  (List.range 32).map (fun i => ⟨widen 5 (leNat ((b.w.drop (2 * i)).take 2)), fp32Of (widenByte (b.m.getD i 0) b.mScale),
    fp32Of (widenByte (b.u.getD i 0) b.uScale)⟩)

/-- Sequence number of the operation that narrows a value of a parameter. -/
def UpdateKey.seq (k : UpdateKey) (field param : Nat) : W32 := BitVec.ofNat 32 (k.base + (Config.updateOp k.before field param).1)

/-- Step 8: E4M3 under a scale found for the block, with stochastic rounding. -/
def narrowMoments (rand : Nat → Nat) (ws : List W32) : Byte × List Conv :=
  let c := blockScale (.flt fmtE4m3) ws
  (c, ws.mapIdx (fun i w => convertScaled (.flt fmtE4m3) (some (rand i)) c (fp32 w)))

/-- The conversions of a block: w, m and u, with the scale codes of m and u. -/
structure BlockConv where
  w : List Conv
  m : List Conv
  u : List Conv
  mScale : Byte
  uScale : Byte
  deriving DecidableEq, Repr

/-- Block n of a group, updated by its 32 gradients. -/
def updateBlock (h : Hyper) (k : UpdateKey) (n : Nat) (b : BlockBytes) (gs : List W32) : BlockConv :=
  let ps := List.zipWith (updateParam h) b.params gs
  let (mc, ms) := narrowMoments (fun i => k.rand 1 (32 * n + i)) (ps.map ParamFp.m)
  let (uc, us) := narrowMoments (fun i => k.rand 2 (32 * n + i)) (ps.map ParamFp.u)
  ⟨ps.mapIdx (fun i p => convert (.flt fmtBf16) (some (k.rand 0 (32 * n + i))) (fp32 p.w)), ms, us, mc, uc⟩

def BlockConv.bytes (b : BlockConv) : BlockBytes :=
  let codes := fun (cs : List Conv) => cs.map (fun c => BitVec.ofNat 8 c.code)
  ⟨(b.w.map (fun c => leBytes 2 c.code)).flatten, codes b.m, codes b.u, b.mScale, b.uScale⟩

/-- What the conversions add to the counters of the core: a lane saturated at step 7 is a weight at BF16's limit (R210, R272). -/
def Crucible.countBlock (x : Crucible) (l : Nat) (k : UpdateKey) (n : Nat) (b : BlockConv) : Crucible :=
  let add := fun (x : Crucible) (field : Nat) (cs : List Conv) =>
    cs.zipIdx.foldl (fun (x : Crucible) (e : Conv × Nat) => x.addCounts l (k.seq field (32 * n + e.2)) e.1.sat e.1.flush) x
  add (add (add x 0 b.w) 1 b.m) 2 b.u

/-! ### The reduced gradient (R270, R421, R423) -/

/-- 32 sums narrowed to a gradient format with stochastic rounding: the scale code, 0 but for E5M2, and the conversions (R270). -/
def gradConvs (format : Nat) (rand : Nat → Nat) (ws : List W32) : Byte × List Conv :=
  if format = 0 then (0, ws.map (fun w => ⟨w.toNat, 0, 0⟩))
  else if format = 1 then (0, ws.mapIdx (fun i w => convert (.flt fmtBf16) (some (rand i)) (fp32 w)))
  else
    let c := blockScale (.flt fmtE5m2) ws
    (c, ws.mapIdx (fun i w => convertScaled (.flt fmtE5m2) (some (rand i)) c (fp32 w)))

/-- A code of a gradient format, widened exactly. -/
def gradWord (format : Nat) (c : Byte) (code : Nat) : W32 :=
  if format = 0 then BitVec.ofNat 32 code
  else if format = 1 then widen 5 code
  else fp32Of (if c = 0xFF then .nan else fpScale ((c.toNat : Int) - 127) (fpDecode fmtE5m2 code))

/-- Bytes of an element of a gradient format. -/
def gradSize (format : Nat) : Nat := if format = 0 then 4 else if format = 1 then 2 else 1

/-- A chunk in a gradient format: the codes in order, then the scale codes of an E5M2 chunk. -/
def chunkBytes (format : Nat) (bs : List (Byte × List Conv)) : List Byte :=
  ((bs.map (fun b => (b.2.map (fun c => leBytes (gradSize format) c.code)).flatten)).flatten) ++ (if format = 2 then bs.map Prod.fst else [])

/-- Element i of a chunk, widened exactly. -/
def chunkWord (format : Nat) (bs : List Byte) (i : Nat) : W32 :=
  gradWord format (bs.getD (1024 + i / 32) 0) (leNat ((bs.drop (gradSize format * i)).take (gradSize format)))

/-- A copy of a shard that this module updates: its owner, its stage and member, its groups, and the first page of its set. -/
structure ShardCopy where
  owner : Nat
  stage : Nat
  member : Nat
  own : Bool
  deriving DecidableEq, Repr

/-- The shape a placement was made for (R286). -/
def Placement.shape (p : Placement) : Shape := ⟨p.pairs, [], []⟩

/-- The copies a module holds, in increasing order of the owner's logical index (R274). -/
def State.shardCopies (s : State) (p : Placement) : List ShardCopy :=
  let self := s.job.self.toNat
  let twin := (p.pairs.getD p.pos (0, 0)).2
  let (ts, tk) := p.shape.twinRole p.body p.pos
  let mine : ShardCopy := ⟨self, p.stage, (roleAt p.stages p.group p.pos).2, true⟩
  let other : ShardCopy := ⟨twin, ts, tk, false⟩
  if twin < self then [other, mine] else [mine, other]

/-- Groups of a copy in crucible c. -/
def Placement.copyGroups (p : Placement) (y : ShardCopy) (c : Cru) : Nat :=
  if y.own then p.ownGroups.getD c.val 0 else p.twinGroups.getD c.val 0

/-- Number in the whole shard of crucible c's first group. -/
def Placement.firstGroup (p : Placement) (y : ShardCopy) (c : Cru) : Nat :=
  (quarter (if y.own then p.ownGroups.sum else p.twinGroups.sum) c.val).1

/-- Block n of group j of a copy, as its chunk arrived (R423). -/
def State.reducedBlock (s : State) (p : Placement) (y : ShardCopy) (c : Cru) (j n : Nat) : List W32 :=
  let chunk := 16 * j + n / 32
  let bs := ((s.steps.reduced.find? (fun r => r.own == y.own && r.cru == c.val && r.chunk == chunk)).map ReducedChunk.data).getD []
  (List.range 32).map (fun i => chunkWord (leField p.body 38 1) bs (32 * (n % 32) + i))

/-! ### The update phase (R253, R272–R275) -/

/-- Pieces of `n` of a list, `k` of them. -/
def piecesOf {α : Type} (n : Nat) : Nat → List α → List (List α)
  | 0, _ => []
  | k + 1, xs => xs.take n :: piecesOf n k (xs.drop n)

/-- The 512 blocks of a group, from its page and its scales (R289). -/
def groupBlocks (page scales : List Byte) : List BlockBytes :=
  let ws := piecesOf 64 512 (page.take 32768)
  let ms := piecesOf 32 512 ((page.drop 32768).take 16384)
  let us := piecesOf 32 512 (page.drop 49152)
  (((ws.zip ms).zip us).zip ((scales.take 512).zip (scales.drop 512))).map (fun e => ⟨e.1.1.1, e.1.1.2, e.1.2, e.2.1, e.2.2⟩)

def blocksPage (bs : List BlockBytes) : List Byte :=
  (bs.map BlockBytes.w).flatten ++ (bs.map BlockBytes.m).flatten ++ (bs.map BlockBytes.u).flatten

def blocksScales (bs : List BlockBytes) : List Byte := bs.map BlockBytes.mScale ++ bs.map BlockBytes.uScale

/-- Groups that a core updates among the first `n` of a crucible: those at positions j with j mod 500 = l (R289). -/
def coreGroups (n l : Nat) : Nat := (n + 499 - l) / 500

/-- Group j of a copy, updated on logical core j mod 500 of its crucible, through the riser's gate. -/
def State.updateGroup (s : State) (p : Placement) (h : Hyper) (before : Nat) (y : ShardCopy) (c : Cru) (j : Nat) : State :=
  let x := s.crucible c
  let l := j % 500
  let src := HbmSource.core (Fin.ofNat 500 l)
  let slot := (if y.own then 0 else x.riser.own) + j
  let page := region2 + slot * pageSize
  let area := x.riser.region3 + slot * 1024
  let n := some s.steps.oldest.toNat
  let (pb, x) := x.hbmReadAs src (some 4) page pageSize n
  let (sb, x) := x.hbmReadAs src (some 4) area 1024 n
  let key : UpdateKey := ⟨c.val * 500 + l, s.steps.oldest, p.padTarget, coreGroups before l + j / 500⟩
  let bs := (groupBlocks pb sb).mapIdx (fun k b => updateBlock h key k b (s.reducedBlock p y c j k))
  let x := bs.zipIdx.foldl (fun (x : Crucible) (e : BlockConv × Nat) => x.countBlock l key e.2 e.1) x
  let out := bs.map BlockConv.bytes
  s.putCrucible c ((x.hbmWriteAs src (some 4) page (blocksPage out) n).hbmWriteAs src (some 4) area (blocksScales out) n)

/-- Every group of a copy on a crucible, in increasing order; `before` groups of another copy went before. -/
def State.updateCopy (s : State) (p : Placement) (h : Hyper) (before : Nat) (y : ShardCopy) (c : Cru) : State :=
  if (s.crucible c).live then (List.range (p.copyGroups y c)).foldl (fun s j => s.updateGroup p h before y c j) s else s

/-- Phase 3: the copies in order, on every crucible. -/
def State.updateShards (s : State) (p : Placement) (h : Hyper) : State :=
  cruList.foldl (fun s c =>
    ((s.shardCopies p).foldl (fun (acc : State × Nat) y => (acc.1.updateCopy p h acc.2 y c, acc.2 + p.copyGroups y c)) (s, 0)).1) s

end Sys2Proof.Machine
end

