-- ==== Sys2Proof/Machine/Train.lean ====
section
/-!
DEFINITION. What a stage computes forward: where tensors stand, the operators, the calls of user kernels, what a pass writes to HBM and
the scratchpads, and the tiles it sends (R230, R234, R262, R263, R281, R287, R288, R294–R296, R299).
-/
namespace Sys2Proof.Machine

/-- What a pass runs with: the placement, this module's member of its stage group, the job's run, the step and the micro-batch. -/
structure PassEnv where
  p : Placement
  member : Nat
  run : Nat
  step : Nat
  batch : Nat
  deriving DecidableEq, Repr

def PassEnv.body (v : PassEnv) : Body := v.p.body
def PassEnv.ops (v : PassEnv) : List Nat := stageOps v.p.starts v.body.nOps v.p.stage
def PassEnv.part (v : PassEnv) (t : Nat) : Part := v.body.part v.p.hints v.p.group v.member t
def PassEnv.format (v : PassEnv) (t : Nat) : Nat := (v.body.tensor t).format
/-- The member's columns of a tensor. -/
def PassEnv.cols (v : PassEnv) (t : Nat) : Nat × Nat := memberCols (v.body.tensor t).cols v.p.group v.member

/-! ### Parts of matrices -/

/-- A part of a matrix. -/
def Part.cut (q : Part) (m : Mat) : Mat := q.rows.map (fun i => ((matRow m i).drop q.col).take q.cols)

/-- The element at row i and column j of a tensor, from a part's matrix. -/
def Part.get (q : Part) (m : Mat) (i j : Nat) : Option W32 :=
  match q.rows.findIdx? (· == i) with
  | some a => if q.col ≤ j ∧ j < q.col + q.cols then some ((matRow m a).getD (j - q.col) 0) else none
  | none => none

/-- A part's matrix, element by element. -/
def Part.build (q : Part) (f : Nat → Nat → W32) : Mat := q.rows.map (fun i => (List.range q.cols).map (fun j => f i (q.col + j)))

def Part.whole (t : TensorRec) : Part := ⟨rowsFrom 0 t.rows, 0, t.cols⟩

/-- The matrix of a held tensor: one left transposed is read with TRANSPOSE (R174). -/
def HeldTensor.mat (h : HeldTensor) : Mat := if h.transposed then Mat.transpose h.rows (h.rows.headD []).length else h.rows

def heldIn (hs : List HeldTensor) (batch t : Nat) : Option Mat :=
  (hs.find? (fun h => h.batch == batch && h.tensor == t)).map HeldTensor.mat

/-! ### Where elements stand (R287, R289, R292) -/

/-- Crucible and position in it of group i of the own shard. -/
def Placement.groupPlace (p : Placement) (i : Nat) : Cru × Nat :=
  let n := p.ownGroups.sum
  let c := (firstIx 4 (fun c => decide (i < (quarter n (c + 1)).1))).getD 3
  (Fin.ofNat 4 c, i - (quarter n c).1)

/-- The first group of a trainable tensor in the own shard. -/
def PassEnv.firstGroup (v : PassEnv) (t : Nat) : Nat :=
  (((v.body.stageTensors v.p.starts v.p.stage 1).filter (fun i => decide (i < t))).map (fun i =>
    (v.body.tensor i).groups v.p.group v.member)).sum

/-- Parameter e of the member's part of a trainable tensor: w, in BF16. -/
def State.paramWord (s : State) (v : PassEnv) (t e : Nat) : W32 :=
  let (c, j) := v.p.groupPlace (v.firstGroup t + e / 16384)
  widen 5 (leNat (Memory.readBytes (s.crucible c).hbm.mem (region2 + pageSize * j + 2 * (e % 16384)) 2))

/-- Where element e of the member's part of a frozen tensor stands in region 4: crucible and offset. -/
def State.frozenPlace (s : State) (v : PassEnv) (t e : Nat) : Cru × Nat :=
  let b := v.body
  let units := fun (i : Nat) => (b.tensor i).frozenUnits v.p.group v.member
  let first := (((b.frozenTensors v.p.starts v.p.stage).filter (fun i => decide (i < t))).map units).sum
  let byte := e * (b.tensor t).bits / 8
  let u := first + byte / pageSize
  let n := b.frozenUnits v.p.starts v.p.group v.p.stage v.member
  let c := (firstIx 4 (fun c => decide (u < (quarter n (c + 1)).1))).getD 3
  (Fin.ofNat 4 c, (s.crucible (Fin.ofNat 4 c)).riser.region4 + pageSize * (u - (quarter n c).1) + byte % pageSize)

/-- Element e of the member's part of a frozen tensor. -/
def State.frozenWord (s : State) (v : PassEnv) (t e : Nat) : W32 :=
  let b := v.body
  let bits := (b.tensor t).bits
  let (c, off) := s.frozenPlace v t e
  let raw := leNat (Memory.readBytes (s.crucible c).hbm.mem off ((bits + 7) / 8))
  widen (BitVec.ofNat 4 (b.tensor t).format) (if bits = 4 then raw / (if e % 2 = 0 then 1 else 16) % 16 else raw)

/-- Where an element of a KIND 0 or 4 tensor stands in region 6: crucible and offset, once its ring has slots (log 132). -/
def State.ringPlace (s : State) (v : PassEnv) (t i j : Nat) : Option (Cru × Nat) :=
  match s.ring (v.body.tensor t).source with
  | none => none
  | some g =>
    g.base.map (fun a =>
      let (slot, byte) := Config.slotPlace v.body v.batch t i j
      (Fin.ofNat 4 g.num, a + (g.seqsOf s.steps.oldest.toNat v.step).getD slot 0 % g.slots * g.slotBytes + byte))

def State.ringWord (s : State) (v : PassEnv) (t i j : Nat) : Option W32 :=
  (s.ringPlace v t i j).map (fun e =>
    let bits := (v.body.tensor t).bits
    let raw := leNat (Memory.readBytes (s.crucible e.1).hbm.mem e.2 ((bits + 7) / 8))
    widen (BitVec.ofNat 4 (v.format t)) (if bits = 4 then raw / (if j % 2 = 0 then 1 else 16) % 16 else raw))

/-- An offset for `n` bytes at or above the start of region r + 1 of crucible c, inside the HBM: `at_` bytes on, as far as there is room. -/
def PassEnv.spot (v : PassEnv) (c r n at_ : Nat) : Nat :=
  let lo := min (v.p.regionAt c r) (2 ^ 36 - n)
  lo + at_ % (2 ^ 36 - n - lo + 1)

/-- An element that the module does not hold comes from the HBM of the module that holds it (R287). -/
def PassEnv.arrived (v : PassEnv) (back : Bool) (t i j : Nat) : W32 := Config.arrived v.run v.step v.batch back t i j

/-- An element of a tensor. In a forward-only job no region holds weights (R292). -/
def State.elem (s : State) (v : PassEnv) (hs : List HeldTensor) (t i j : Nat) : W32 :=
  let r := v.body.tensor t
  let (lo, n) := v.cols t
  if r.kind = 1 ∨ r.kind = 2 then
    if v.p.training ∧ lo ≤ j ∧ j < lo + n then
      (if r.kind = 1 then s.paramWord v t (i * n + (j - lo)) else s.frozenWord v t (i * n + (j - lo)))
    else Config.arrived v.run v.step 0 false t i j
  else if r.kind = 0 then (s.ringWord v t i j).getD (v.arrived false t i j)
  else ((heldIn hs v.batch t).bind (fun m => (v.part t).get m i j)).getD (v.arrived false t i j)

def State.mat (s : State) (v : PassEnv) (hs : List HeldTensor) (t : Nat) : Mat := (Part.whole (v.body.tensor t)).build (s.elem v hs t)

/-! ### One operator forward (R281, R287) -/

/-- What a member computes of an operator: its part of each output, and its rows' statistics. -/
structure OpOut where
  outs : List HeldTensor
  stats : List HeldStats
  deriving DecidableEq, Repr

/-- γ or β of a normalisation, absent or whole. -/
def State.normVec (s : State) (v : PassEnv) (hs : List HeldTensor) (p : OpRec) (k : Nat) : Option (List W32) :=
  let t := p.ins.getD k unusedSlot
  if k < p.nIn ∧ t ≠ unusedSlot then some (matRow (s.mat v hs t) 0) else none

/-- Member m's sum in a combination over the stage group: its own, or one that arrives (R288). -/
def PassEnv.partialOf (v : PassEnv) (j i k : Nat) (own : W32) (m : Nat) : W32 :=
  if m = v.member then own else Config.memberPartial v.run v.step v.batch j m i k

/-- The members in increasing index, as one chain. -/
def PassEnv.combine (v : PassEnv) (j i k : Nat) (own : W32) : W32 := fpSum ((List.range v.p.group).map (v.partialOf j i k own))

/-- MSE_LOSS: the rows of each member that has some, and their sum (log 134). -/
def State.lossOf (s : State) (v : PassEnv) (hs : List HeldTensor) (j : Nat) (p : OpRec) : W32 :=
  let r := v.body.tensor (p.ins.getD 0 0)
  let rows := fun (m : Nat) => rowsFrom (r.rows * m / v.p.group) (r.rows * (m + 1) / v.p.group)
  let own : Part := ⟨rows v.member, 0, r.cols⟩
  let sums := mseRows (own.cut (s.mat v hs (p.ins.getD 0 0))) (own.cut (s.mat v hs (p.ins.getD 1 0)))
  mseLoss r.cols ((List.range v.p.group).map (fun m =>
    if m = v.member then sums else if (rows m).isEmpty then [] else [Config.memberPartial v.run v.step v.batch j m 0 0]))

/-- The member's part of a library operator's OUT0 as FP32 words, and its statistics by head and row. -/
def State.libraryOp (s : State) (v : PassEnv) (hs : List HeldTensor) (j : Nat) : Mat × List (List (W32 × W32)) :=
  let b := v.body
  let p := b.op j
  let t := fun k => p.ins.getD k 0
  let x := s.mat v hs (t 0)
  let y := p.outs.getD 0 0
  let f := v.format y
  let q := v.part y
  if p.code = 1 ∨ p.code = 2 then
    (matProduct (v.format (t 0)) (v.format (t 1)) f q.cols x (Mat.cut (s.mat v hs (t 1)) q.col q.cols), [])
  else if p.code = 3 then (Mat.narrow f (Mat.zip fp32Add (q.cut x) (q.cut (s.mat v hs (t 1)))), [])
  else if p.code = 4 then (Mat.narrow f (Mat.zip fp32Mul (q.cut x) (q.cut (s.mat v hs (t 1)))), [])
  else if p.code = 5 then (Mat.narrow f ((q.cut x).map (fun r => r.map siluWord)), [])
  else if p.code = 0x10 then
    let rows := (q.cut x).map (softmaxRow (BitVec.ofNat 32 (leField p.params 0 4)))
    (Mat.narrow f (rows.map SoftRow.y), [rows.map (fun r => (r.m, r.l))])
  else if p.code = 0x11 ∨ p.code = 0x12 then
    let layer := p.code == 0x11
    let st := (q.cut x).map (normStats layer (BitVec.ofNat 32 (leField p.params 0 4)))
    let out := List.zipWith (fun n r => normOut (s.normVec v hs p 1) (s.normVec v hs p 2) (normH layer n r)) st (q.cut x)
    (Mat.narrow f out, [st.map (fun n => (n.mu, n.r))])
  else if p.code = 0x20 then
    let (o, st) := (b.attn v.p.hints j).forward x (s.mat v hs (t 1)) (s.mat v hs (t 2))
    (q.cut o, st.map (fun h => q.rows.map (fun i => let r := h.getD i ⟨[], 0, 0⟩; (r.m, r.l))))
  else if p.code = 0x30 then (q.build (fun _ _ => s.lossOf v hs j p), [])
  else ([], [])

/-- An operator. One on an empty tensor does no work (R279); a user kernel's results are its own (R300). -/
def State.runOp (s : State) (v : PassEnv) (hs : List HeldTensor) (j : Nat) : OpOut :=
  let p := v.body.op j
  if v.body.idleOp j then ⟨[], []⟩
  else if 0x8000 ≤ p.code then
    ⟨p.made.map (fun t => ⟨v.batch, t, (v.part t).build (Config.kernelValue v.run v.step v.batch false t), false⟩), []⟩
  else
    let (m, st) := s.libraryOp v hs j
    ⟨[⟨v.batch, p.outs.getD 0 0, m, false⟩], if st.isEmpty then [] else [⟨v.batch, j, st⟩]⟩

/-! ### Calls of user kernels (R299) -/

/-- The crucible that produces tile k of a part: that of its head where attention produces it (R238, R294). -/
def PassEnv.tileCru (v : PassEnv) (t k : Nat) : Cru :=
  let q := v.part t
  let n := q.rows.length
  let byTile : Cru := Fin.ofNat 4 (tileCrucible (tileCount n q.cols) k)
  match v.body.producer t with
  | some j =>
    if (v.body.op j).code = 0x20 then headCrucible ((tilePlace n q.cols k).col / (v.body.attn v.p.hints j).dim) else byTile
  | none => byTile

/-- The offset of a tile in its crucible: where in regions 7 and 8 it is, is Tundish's own (log 131). -/
def PassEnv.tileSpot (v : PassEnv) (t k : Nat) : Nat :=
  let c := (v.tileCru t k).val
  v.spot c 6 131072 (Config.tileAt v.body v.p.pos c v.batch t k)

/-- The global address of HBM offset `off` of crucible c of a module (R45). -/
def hbmAddress (m c off : Nat) : Nat := m * 2 ^ 52 + c * 2 ^ 50 + off

/-- Where the member's part of a tensor begins: its first group, its first unit of region 4, its ring slot, or its first tile (R289, R292,
R294, R453). -/
def State.partPlace (s : State) (v : PassEnv) (t : Nat) : Cru × Nat :=
  let r := v.body.tensor t
  let q := v.part t
  if r.kind = 1 then let (c, j) := v.p.groupPlace (v.firstGroup t); (c, region2 + pageSize * j)
  else if r.kind = 2 then s.frozenPlace v t 0
  else if r.kind = 3 then (v.tileCru t 0, v.tileSpot t 0)
  else (s.ringPlace v t (q.rows.headD 0) q.col).getD (Fin.ofNat 4 r.source, 0)

/-- The parameter block: the addresses of IN0 to IN5, OUT0 and OUT1 for the member's part, 0 for an unused one, then the part's rows and
columns, and what the spec does not place (log 61). -/
def State.paramBlock (s : State) (v : PassEnv) (j : Nat) (rest : List Byte) : List Byte :=
  let p := v.body.op j
  let addr := fun (t : Nat) (used : Bool) =>
    if !used || t == unusedSlot then 0 else let (c, off) := s.partPlace v t; hbmAddress s.job.self.toNat c.val off
  let q := v.part (p.outs.getD 0 0)
  ((List.range 6).map (fun k => leBytes 8 (addr (p.ins.getD k unusedSlot) (decide (k < p.nIn))))).flatten ++
    ((List.range 2).map (fun k => leBytes 8 (addr (p.outs.getD k unusedSlot) (decide (k < p.nOut))))).flatten ++
    leBytes 4 q.rows.length ++ leBytes 4 q.cols ++ padTo 184 rest

/-- A Running core after a kernel that Tundish called has returned: the block in the scratchpad, a0, s1, s2 and s31 as the call left them,
the pc at s31, its queues empty. The kernel's code stands in the instruction store (R298); what it computes is its own (R300). Its tally
words are consecutive ones of 28 to 43 (R346). -/
def State.callKernel (s : State) (v : PassEnv) (q : Kernel) (j l rank : Nat) (c : Cru) : State :=
  let x := s.crucible c
  if x.live && (x.log l).mode == .running then
    let (a0, s2, ret, rest) := Config.kernelCall v.body j rank
    let block := s.paramBlock v j rest
    let s2 := 28 + s2 % (17 - min 16 q.tallies)
    let at_ := scratchWork v.p.hints + a0 % (0xFFF00 - scratchWork v.p.hints)
    s.putCrucible c (x.modPhys l (fun h =>
      { ((((h.setA 0 (BitVec.ofNat 48 at_)).setS 1 (BitVec.ofNat 64 rank)).setS 2 (BitVec.ofNat 64 s2)).setS 31
          (BitVec.ofNat 64 (ret % 4096))).writeScratch at_ block with pc := BitVec.ofNat 13 (ret % 4096) }))
  else s

/-- Every core of the pass's partition that a kernel takes, on every crucible: ranks from 0. -/
def State.callKernels (s : State) (v : PassEnv) (j : Nat) (back : Bool) : State :=
  match s.tundish.kernels.find? (fun q => q.code.toNat == (v.body.op j).code) with
  | none => s
  | some q =>
    let (lo, n) := passCores v.p.side v.p.cores back
    cruList.foldl (fun s c => (List.range (min q.cores n)).foldl (fun s r => s.callKernel v q j (lo + r) r c) s) s

/-! ### What a pass writes (R230, R294–R296) -/

/-- The partition of a pass's accesses: all compute in alternating mode, or by direction; a user kernel's as registered (R295). -/
def passTag (side back : Bool) : Nat := if side && back then 8 else 7

def State.opTag (s : State) (v : PassEnv) (back : Bool) (j : Nat) : Nat :=
  match s.tundish.kernels.find? (fun q => q.code.toNat == (v.body.op j).code) with
  | some q => q.partition.toNat % 16
  | none => passTag v.p.side back

/-- The first core of a pass's partition, which stands for its cores where the spec does not say which accesses. -/
def PassEnv.firstCore (v : PassEnv) (back : Bool) : HbmSource := .core (Fin.ofNat 500 (passCores v.p.side v.p.cores back).1)

/-- A tile of a part goes to the HBM of the crucible that produces it. -/
def State.putTile (s : State) (v : PassEnv) (back : Bool) (tag : Nat) (h : HeldTensor) (k : Nat) : State :=
  let q := v.part h.tensor
  let c := v.tileCru h.tensor k
  let w := tilePlace q.rows.length q.cols k
  let words := ((((h.mat.drop w.row).take w.rows).map (fun r => (r.drop w.col).take w.cols))).flatten
  let l := (tileHome v.p.side v.p.cores back q.rows.length q.cols k).2
  if (s.crucible c).live then
    s.putCrucible c ((s.crucible c).hbmWriteAs (.core (Fin.ofNat 500 l)) (some tag) (v.tileSpot h.tensor k)
      (formatBytes (v.format h.tensor) words) (some v.step))
  else s

/-- Tensors pinned to the scratchpad by the hints in force, with their offsets, one after another from 0 (R294, R296, log 130). -/
def PassEnv.pinned (v : PassEnv) : List (Nat × Nat) :=
  ((v.p.hints.filter (fun h => h.kind == 1 && h.v0 == 1)).foldl (fun (acc : List (Nat × Nat) × Nat) h =>
    (acc.1 ++ [(h.target, acc.2)], acc.2 + v.body.largestPart v.p.hints v.p.group h.target)) ([], 0)).1

/-- A pinned tensor's part in every core's scratchpad. -/
def State.pin (s : State) (v : PassEnv) (h : HeldTensor) : State :=
  match v.pinned.find? (fun e => e.1 == h.tensor) with
  | none => s
  | some (_, off) =>
    s.eachLive (fun _ x => (List.range 500).foldl (fun (x : Crucible) l =>
      x.modPhys l (fun q => q.writeScratch off ((formatBytes (v.format h.tensor) h.mat.flatten).take (0x40000 - off)))) x)

/-- Row statistics go to their area, m first; normalisation by rows writes μ and r, or r alone (R230, R232). Attention's of a head are in its
crucible, the others' in a quarter of the rows each. -/
def State.putStats (s : State) (v : PassEnv) (back : Bool) (h : HeldStats) : State :=
  let code := (v.body.op h.op).code
  let bytes := fun (e : W32 × W32) => if code = 0x12 then leBytes 4 e.2.toNat else statBytes e.1 e.2
  cruList.foldl (fun s c =>
    let rows := if code = 0x20 then ((h.rows.zipIdx.filter (fun e => headCrucible e.2 == c)).map Prod.fst).flatten
      else (h.rows.map (fun rs => let (a, n) := quarter rs.length c.val; (rs.drop a).take n)).flatten
    let bs := (rows.map bytes).flatten
    if (s.crucible c).live && !bs.isEmpty then
      s.putCrucible c ((s.crucible c).hbmWriteAs (v.firstCore back) (some (passTag v.p.side back))
        (v.spot c.val 6 bs.length (Config.statAt v.body v.p.pos c.val v.batch h.op)) bs (some v.step))
    else s) s

/-! ### What goes out (R262) -/

/-- The stage that an operator belongs to. -/
def PassEnv.stageOf (v : PassEnv) (j : Nat) : Nat := (firstIx v.p.stages (fun k => decide (j ∈ stageOps v.p.starts v.body.nOps k))).getD 0

/-- A member of a stage of this replica, by logical index (R286). -/
def PassEnv.moduleAt (v : PassEnv) (stage member : Nat) : Nat :=
  let rep := v.p.pos / (v.p.stages * v.p.group)
  v.p.active.getD (rep * v.p.stages * v.p.group + stage * v.p.group + member) 0

/-- The same member of another stage of this replica (log 134). -/
def PassEnv.peerOf (v : PassEnv) (stage : Nat) : Nat := v.moduleAt stage v.member

/-- A part's tiles, each in one transfer of the request class to a module, with its arrival signal after a fence (R244, R262). -/
def PassEnv.tilesTo (v : PassEnv) (dest : Nat) (back : Bool) (t : Nat) (m : Mat) : List Out :=
  let q := v.part t
  ((List.range (tileCount q.rows.length q.cols)).map (fun k =>
    let w := tilePlace q.rows.length q.cols k
    [Out.stageTile requestClass dest v.batch back t k ((((m.drop w.row).take w.rows).map (fun r => (r.drop w.col).take w.cols)).flatten),
     Out.announce dest (v.tileCru t k) (.tile v.batch back t k)])).flatten

/-- Later stages that use a tensor. -/
def PassEnv.usersAfter (v : PassEnv) (t : Nat) : List Nat :=
  (List.range v.p.stages).filter (fun k => decide (v.p.stage < k) &&
    (stageOps v.p.starts v.body.nOps k).any (fun j => decide (t ∈ (v.body.op j).used)))

/-- The forward outputs of a stage. -/
def State.sendForward (s : State) (v : PassEnv) (hs : List HeldTensor) : State :=
  let outs := (v.body.stageOutputs v.p.starts v.p.stage).map (fun t =>
    match heldIn hs v.batch t with
    | some m => ((v.usersAfter t).map (fun k => v.tilesTo (v.peerOf k) false t m)).flatten
    | none => [])
  { s with out := s.out ++ outs.flatten }

/-! ### The forward pass -/

def maskByte (old : Byte) (j code : Nat) : Byte :=
  BitVec.ofNat 8 (if j % 2 = 0 then old.toNat / 16 * 16 + code % 16 else old.toNat % 16 + 16 * (code % 16))

/-- An element of a KIND 4 tensor goes to its ring slot. -/
def State.putRing (s : State) (v : PassEnv) (t i j : Nat) (w : W32) : State :=
  match s.ringPlace v t i j with
  | none => s
  | some (c, off) =>
    let bits := (v.body.tensor t).bits
    let code := narrowCode (v.format t) none (fp32 w)
    let x := s.crucible c
    let bs := if bits = 4 then [maskByte (Memory.read x.hbm.mem off) j code] else leBytes (bits / 8) code
    s.putCrucible c (x.hbmWriteAs .mgmt (some 1) off bs (some v.step))

def State.putOutput (s : State) (v : PassEnv) (h : HeldTensor) : State :=
  let q := v.part h.tensor
  if (v.body.tensor h.tensor).kind = 4 then
    q.rows.foldl (fun s i => (List.range q.cols).foldl (fun s j =>
      s.putRing v h.tensor i (q.col + j) (((q.get h.mat i (q.col + j))).getD 0)) s) s
  else s

/-- Everything that one operator's results leave: tiles, a pinned copy, ring slots. -/
def State.putOut (s : State) (v : PassEnv) (back : Bool) (j : Nat) (h : HeldTensor) : State :=
  let q := v.part h.tensor
  let s := if elsewhere v.p.hints h.tensor then s.pin v h
    else (List.range (tileCount q.rows.length q.cols)).foldl (fun s k => s.putTile v back (s.opTag v back j) h k) s
  s.putOutput v h

/-- A pass reads the stage's trainable weights: poison among them is found (R317). -/
def State.readWeights (s : State) (v : PassEnv) (back : Bool) : State :=
  s.eachLive (fun c x => (List.range (v.p.ownGroups.getD c.val 0)).foldl (fun (x : Crucible) j =>
    (x.hbmReadAs (v.firstCore back) (some (passTag v.p.side back)) (region2 + pageSize * j) 32768 (some v.step)).2) x)

/-- It reads its inputs of KIND 0 from their rings' slots (R295). -/
def State.readRings (s : State) (v : PassEnv) : State :=
  ((v.body.stageInputs v.p.starts v.p.stage).filter (fun t => (v.body.tensor t).kind == 0)).foldl (fun s t =>
    let q := v.part t
    q.rows.foldl (fun s i => (List.range q.cols).foldl (fun (s : State) j =>
      match s.ringPlace v t i (q.col + j) with
      | some (c, off) =>
        s.putCrucible c ((s.crucible c).hbmReadAs (v.firstCore false) (some 1) off ((((v.body.tensor t).bits) + 7) / 8) (some v.step)).2
      | none => s) s) s) s

/-- The stage's own input of the micro-batch. -/
def State.inputsOf (s : State) (v : PassEnv) : List HeldTensor :=
  (v.body.stageInputs v.p.starts v.p.stage).map (fun t => ⟨v.batch, t, (v.part t).build (s.elem v [] t), false⟩)

end Sys2Proof.Machine
end

