-- ==== Sys2Proof/Machine/Ring.lean ====
section
/-!
DEFINITION. Stream attention in a pass: the ring's blocks, slots, signals and waves on each crucible, and its three kernels' data
(R237, R238, R243–R249, R252).
-/
namespace Sys2Proof.Machine

/-- One kernel of an attention operator on one crucible: 0 forward, 1 query kernel, 2 key kernel, whose ring runs the other way; the data
of a block as it is forwarded, and a tile's running state after a ring step. -/
structure RingRun where
  v : PassEnv
  op : Nat
  kernel : Nat
  c : Cru
  block : Nat → List Byte
  state : Nat → Nat → List Byte

def RingRun.attn (r : RingRun) : Attn := r.v.body.attn r.v.p.hints r.op

/-- Rank `rank` of the ring is that member of the stage group (R237, R287). -/
def RingRun.module_ (r : RingRun) (rank : Nat) : Nat := r.v.moduleAt r.v.p.stage rank

/-- Where something the operator keeps in region 8 stands: a block in ring slot 0 or 1, or a tile's running state. -/
def RingRun.slotSpot (r : RingRun) (n slot block : Nat) : Nat :=
  r.v.spot r.c.val 7 n (Config.attnAt r.v.body r.v.p.pos r.c.val r.op (4096 * slot + block))

def RingRun.stateSpot (r : RingRun) (n tile : Nat) : Nat := r.v.spot r.c.val 7 n (Config.attnAt r.v.body r.v.p.pos r.c.val r.op (8192 + tile))

/-- Bytes into the crucible's HBM, in the partition of the ring slots (R295). -/
def State.ringStore (s : State) (r : RingRun) (off : Nat) (bs : List Byte) : State :=
  s.putCrucible r.c ((s.crucible r.c).hbmWriteAs (r.v.firstCore (r.kernel != 0)) (some 6) off bs (some r.v.step))

/-- An action of the ring's program. The pass is one step of the model, in which its waits for signals end (log 135): a block that another
rank has sent then stands in its slot, and a wave's running state goes to HBM and comes back as it was. -/
def State.ringAct (s : State) (r : RingRun) (act : RingAct) : State :=
  match act with
  | .sendBlock b slot dest =>
    { s with out := s.out ++ [.ringBlock requestClass (r.module_ dest) r.c r.v.batch r.op r.kernel b slot (r.block b)] }
  | .signalArrival b dest => { s with out := s.out ++ [.announce (r.module_ dest) r.c (.block r.v.batch r.op r.kernel b)] }
  | .signalFree slot dest => { s with out := s.out ++ [.announce (r.module_ dest) r.c (.ringSlot r.v.batch r.op r.kernel slot)] }
  | .awaitBlock b slot => s.ringStore r (r.slotSpot (r.block b).length slot b) (r.block b)
  | .saveWave j ts => ts.foldl (fun (s : State) t => s.ringStore r (r.stateSpot (r.state j t).length t) (r.state j t)) s
  | .takeFree _ | .fence | .chunk _ _ | .restoreWave _ => s

/-- A kernel runs on every live crucible that computes a head. -/
def State.runRing (s : State) (v : PassEnv) (j kernel : Nat) (block : Cru → Nat → List Byte) (state : Nat → Nat → List Byte) : State :=
  let a := v.body.attn v.p.hints j
  cruList.foldl (fun s c =>
    if (s.crucible c).live && !(a.headsIn c).isEmpty then
      (a.ringProgram (kernel == 2) v.member c).foldl (fun s act => s.ringAct ⟨v, j, kernel, c, block c, state⟩ act) s
    else s) s

/-- The rows of a tile of the crucible's list: head, and the tokens of the tile. -/
def Attn.tileRows (a : Attn) (t : Nat) : Nat × List Nat :=
  let n := (a.tokens + 63) / 64
  (t / n, a.group64 (t % n))

/-- Forward: K and V go around; m, λ and O are kept between waves. -/
def State.ringForward (s : State) (v : PassEnv) (j : Nat) (q k w : Mat) : State :=
  let a := v.body.attn v.p.hints j
  s.runRing v j 0 (fun c b => a.blockData c b [k, w] (fun _ _ => []))
    (fun i t => let (h, rows) := a.tileRows t; (rows.map (fun x => (a.rowAfter (a.headData q k w h) i x).bytes)).flatten)

/-- The query kernel: K and V go around as forward; the running state is dQ. -/
def State.ringQuery (s : State) (v : PassEnv) (j : Nat) (q k w dO : Mat) (st : List (List SoftRow)) : State :=
  let a := v.body.attn v.p.hints j
  s.runRing v j 1 (fun c b => a.blockData c b [k, w] (fun _ _ => []))
    (fun i t =>
      let (h, rows) := a.tileRows t
      (rows.map (fun x => wordBytes (a.dqRow (a.headData q k w h) (a.headCut dO h) (st.getD h []) (a.keysAfter i x) x))).flatten)

/-- The key kernel: Q, dO, m, l and D go around the other way; the running state is dK and dV. -/
def State.ringKey (s : State) (v : PassEnv) (j : Nat) (q k w dO : Mat) (st : List (List SoftRow)) : State :=
  let a := v.body.attn v.p.hints j
  s.runRing v j 2
    (fun c b => a.blockData c b [q, dO] (fun h i =>
      let r := (st.getD h []).getD i ⟨[], 0, 0⟩
      [r.m, r.l, (rowD (a.headCut dO h) (st.getD h [])).getD i 0]))
    (fun i t =>
      let (h, rows) := a.tileRows t
      (rows.map (fun x =>
        let e := a.dkvRow (a.headData q k w h) (a.headCut dO h) (st.getD h []) (a.queriesFor (a.rankOf x) (x / 64) (i + 1)) x
        wordBytes (e.1 ++ e.2))).flatten)

end Sys2Proof.Machine
end

