-- ==== Sys2Proof/Machine/Backward.lean ====
section
/-!
DEFINITION. The passes of a step: what they keep, the running sums of weight gradients, the backward pass operator by operator, and their
order (R176–R178, R223, R230–R235, R249, R253–R268, R270, R288).
-/
namespace Sys2Proof.Machine

/-! ### The forward pass (R230, R262, R263) -/

/-- Statistics that an operator's kernel keeps are written to their area. -/
def State.putKept (s : State) (v : PassEnv) (back : Bool) (st : List HeldStats) : State :=
  st.foldl (fun (s : State) h => if v.body.keepsStats h.op then s.putStats v back h else s) s

/-- The ring traffic of an attention operator's forward pass. -/
def State.ringOp (s : State) (v : PassEnv) (hs : List HeldTensor) (j : Nat) : State :=
  let p := v.body.op j
  let m := fun k => s.mat v hs (p.ins.getD k 0)
  if p.code = 0x20 ∧ !v.body.idleOp j then s.ringForward v j (m 0) (m 1) (m 2) else s

/-- Operators run in order on what is held; the state follows kernel calls, ring traffic, and what their results leave. -/
def State.runOps (s : State) (v : PassEnv) (back : Bool) (hs : List HeldTensor) (st : List HeldStats) (js : List Nat) :
    State × List HeldTensor × List HeldStats :=
  js.foldl (fun (a : State × List HeldTensor × List HeldStats) j =>
    let o := a.1.runOp v a.2.1 j
    let s := (a.1.callKernels v j back).ringOp v a.2.1 j
    let s := (o.outs.foldl (fun (s : State) h => s.putOut v back j h) s).putKept v back o.stats
    (s, a.2.1 ++ o.outs, a.2.2 ++ o.stats)) (s, hs, st)

/-- F(b): in training the stage keeps its input, the outputs of the kept-activation list, and statistics (R230, R263). -/
def State.forwardPass (s : State) (v : PassEnv) : State :=
  let b := v.body
  let s := (s.readWeights v false).readRings v
  let ins := s.inputsOf v
  let (s, hs, st) := s.runOps v false ins [] v.ops
  let s := s.sendForward v hs
  if v.p.training then
    let kept := hs.filter (fun h => decide (h.tensor ∈ b.stageInputs v.p.starts v.p.stage) || b.kept h.tensor)
    { s with steps := { s.steps with held := s.steps.held ++ kept,
                                     heldStats := s.steps.heldStats ++ st.filter (fun h => b.keepsStats h.op) } }
  else s

/-! ### Running sums of weight gradients (R177, R256, R257) -/

/-- A chain: the running sum of its block, and the sum of the blocks before it. -/
structure Chain where
  sum : W32
  done : W32
  deriving DecidableEq, Repr

/-- The term at a position of the chain; block boundaries fall at every multiple of 65,536 when it is split. -/
def Chain.add (split f32 : Bool) (pos : Nat) (c : Chain) (t : W32 × W32) : Chain :=
  if pos = 0 then ⟨productStage f32 0 t, 0⟩
  else if split ∧ pos % chainBlock = 0 then
    ⟨productStage f32 0 t, if pos = chainBlock then c.sum else fp32Add c.done c.sum⟩
  else ⟨productStage f32 c.sum t, c.done⟩

def Chain.run (split f32 : Bool) (pos : Nat) (c : Chain) (ts : List (W32 × W32)) : Chain :=
  (ts.foldl (fun (a : Chain × Nat) t => (a.1.add split f32 a.2 t, a.2 + 1)) (c, pos)).1

/-- The whole sum, when a chain of n terms has ended. -/
def Chain.total (split : Bool) (n : Nat) (c : Chain) : W32 := if split ∧ chainBlock < n then fp32Add c.done c.sum else c.sum

/-- The terms of a place of use from position `pos` on. The first opens a block when a boundary lies between it and the term before, which
`opens` says; `first` says that the block it ends is the first. -/
def Chain.runFrom (split f32 opens first : Bool) (pos : Nat) (c : Chain) : List (W32 × W32) → Chain
  | [] => c
  | t :: ts =>
    Chain.run split f32 (pos + 1)
      (if opens then ⟨productStage f32 0 t, if first then c.sum else fp32Add c.done c.sum⟩ else c.add split f32 pos t) ts

/-- A place of use multiplies token rows, each of which is a term of the chain; the others add one finished sum over theirs. -/
def PassEnv.byRow (v : PassEnv) (t j : Nat) : Bool := (v.body.op j).code == 1 && (v.body.op j).ins.getD 1 0 == t

/-- Token rows of a place of use for a micro-batch (R257). -/
def PassEnv.placeRows (v : PassEnv) (t j : Nat) : Nat :=
  let p := v.body.op j
  if v.byRow t j then (v.body.tensor (p.ins.getD 0 0)).rows else (v.body.tensor (p.outs.getD 0 0)).rows

/-- Places of use of a weight, in decreasing operator index. -/
def PassEnv.places (v : PassEnv) (t : Nat) : List Nat := (v.ops.filter (fun j => decide (t ∈ (v.body.op j).used) && !v.body.idleOp j)).reverse

/-- Terms of a micro-batch, and the position of a place's first term. -/
def PassEnv.batchTerms (v : PassEnv) (t : Nat) : Nat := ((v.places t).map (v.placeRows t)).sum

def PassEnv.startPos (v : PassEnv) (t j : Nat) : Nat :=
  v.batch * v.batchTerms t + (((v.places t).filter (fun i => decide (j < i))).map (v.placeRows t)).sum

def PassEnv.chainTerms (v : PassEnv) (t : Nat) : Nat := v.p.microBatches * v.batchTerms t

/-- The position of the last term of the place before place j, in the chain's order; a finished sum stands at its first row. -/
def PassEnv.posBefore (v : PassEnv) (t j : Nat) : Nat :=
  let ps := v.places t
  let k := ps.idxOf j
  let q := ps.getD (if k = 0 then ps.length - 1 else k - 1) j
  if v.byRow t q then v.startPos t j - 1 else v.startPos t j - v.placeRows t q

/-- The chain is split into blocks: its token rows exceed 2^20. -/
def PassEnv.splits (v : PassEnv) (t : Nat) : Bool := decide (chainLimit < v.chainTerms t)

/-- A block boundary lies between the first term of place j and the term before it. -/
def PassEnv.opens (v : PassEnv) (t j : Nat) : Bool :=
  v.splits t && decide (0 < v.startPos t j) && decide (v.posBefore t j / chainBlock < v.startPos t j / chainBlock)

/-- The block of the term before place j is the first. -/
def PassEnv.firstBlock (v : PassEnv) (t j : Nat) : Bool := v.posBefore t j / chainBlock == 0

/-- Terms up to the last one's position. -/
def PassEnv.lastTerm (v : PassEnv) (t : Nat) : Nat :=
  match (v.places t).getLast? with
  | some j => if v.byRow t j then v.chainTerms t else v.chainTerms t + 1 - v.placeRows t j
  | none => 0

/-- The chain of parameter e of a trainable tensor: region 5 holds its sum (R256). -/
def State.chainOf (s : State) (v : PassEnv) (t e : Nat) : Chain :=
  let g := v.firstGroup t
  let (c, j) := v.p.groupPlace (g + e / 16384)
  ⟨BitVec.ofNat 32 (leNat (Memory.readBytes (s.crucible c).hbm.mem (s.region5 v.p c + pageSize * j + 4 * (e % 16384)) 4)),
   Store.get zero32 s.steps.blockSums (16384 * g + e)⟩

/-- Chains go back to region 5, a group at a time. -/
def State.putChains (s : State) (v : PassEnv) (t : Nat) (cs : List Chain) : State :=
  let g := v.firstGroup t
  let src := v.firstCore true
  let s := (piecesOf 16384 (ceilDiv cs.length 16384) cs).zipIdx.foldl (fun (s : State) (e : List Chain × Nat) =>
    let (c, j) := v.p.groupPlace (g + e.2)
    if (s.crucible c).live then
      s.putCrucible c ((s.crucible c).hbmWriteAs src (some (passTag v.p.side true)) (s.region5 v.p c + pageSize * j) ((e.1.map (fun x => leBytes 4 x.sum.toNat)).flatten) (some v.step))
    else s) s
  { s with steps := { s.steps with blockSums := cs.zipIdx.foldl (fun m (e : Chain × Nat) =>
      Store.set zero32 m (16384 * g + e.2) e.1.done) s.steps.blockSums } }

/-- A place of use adds its terms to every parameter of the member's part. At the last term of the step the chain becomes its sum. -/
def State.addTerms (s : State) (v : PassEnv) (t j : Nat) (step : Nat → Nat → Chain → Chain) : State :=
  let n := (v.cols t).2
  let last := v.batch + 1 == v.p.microBatches && (v.places t).getLast? == some j
  s.putChains v t ((List.range ((v.body.tensor t).rows * n)).map (fun e =>
    let c := step (e / n) (e % n) (s.chainOf v t e)
    if last then ⟨c.total (v.splits t) (v.lastTerm t), 0⟩ else c))

/-- dW of a LINEAR over its token rows, in increasing row (R176). -/
def State.addProducts (s : State) (v : PassEnv) (t j : Nat) (f32 : Bool) (x dy : Mat) : State :=
  s.addTerms v t j (fun k n c => Chain.runFrom (v.splits t) f32 (v.opens t j) (v.firstBlock t j) (v.startPos t j) c
    (List.zipWith (fun a b => (a.getD k 0, b.getD n 0)) x dy))

/-- A finished sum for each parameter is added to the running one, or starts a block: the block that its first token row is in
(R257, log 134). -/
def State.addSums (s : State) (v : PassEnv) (t j : Nat) (m : Mat) : State :=
  s.addTerms v t j (fun k n c =>
    let w := (matRow m k).getD n 0
    if v.startPos t j = 0 then ⟨w, 0⟩
    else if v.opens t j then ⟨w, if v.firstBlock t j then c.sum else fp32Add c.done c.sum⟩
    else { c with sum := fp32Add c.sum w })

/-! ### The backward pass (R249, R262, R264, R288) -/

/-- What a backward pass works on: the state, what is held and recomputed, its statistics, and the gradients formed so far. -/
structure Backward where
  s : State
  hs : List HeldTensor
  st : List HeldStats
  grads : List HeldTensor
  deriving DecidableEq, Repr

/-- An element of a tensor's gradient: formed here in the member's part, brought by another module, or +0 where nothing uses it. -/
def Backward.grad (w : Backward) (v : PassEnv) (t i j : Nat) : W32 :=
  let outside := !(v.usersAfter t).isEmpty
  match heldIn w.grads v.batch t with
  | some m => ((v.part t).get m i j).getD (v.arrived true t i j)
  | none => if outside then v.arrived true t i j else 0

def Backward.gradMat (w : Backward) (v : PassEnv) (t : Nat) : Mat := (Part.whole (v.body.tensor t)).build (w.grad v t)

/-- A gradient narrowed to BF16 with stochastic rounding: which operation narrows it is Tundish's own (R206, R270, log 134). -/
def PassEnv.gradBf16 (v : PassEnv) (j t i k : Nat) (w : W32) : W32 :=
  let (core, seq, e) := Config.gradOp v.body v.p.pos v.batch j t i k
  widen 5 (convert (.flt fmtBf16) (some (srRand (core % 2000) (BitVec.ofNat 48 v.step) (BitVec.ofNat 32 seq) e)) (fp32 w)).code

/-- A gradient in a FORMAT that a rule gives it: BF16 with stochastic rounding, another to nearest even (R235, R270). -/
def PassEnv.gradIn (v : PassEnv) (f j t i k : Nat) (w : W32) : W32 := if f = 5 then v.gradBf16 j t i k w else narrowWord f w

/-- A gradient as it is kept between operators, in a format that is not stated. -/
def PassEnv.keepGrad (v : PassEnv) (j t i k : Nat) (w : W32) : W32 :=
  let f := Config.gradFormat v.body t
  if f = 0 then w else if f = 1 then v.gradBf16 j t i k w else Config.keptGrad v.run v.step v.batch t i k w

/-- A contribution to the gradient of an operator's input, formed on part `at_`: an activation takes it, as `keep` leaves it, beside those of
later operators; a trainable weight adds it to its running sum. Tiling B leaves it transposed (R174). -/
def Backward.contribute (w : Backward) (v : PassEnv) (j t : Nat) (at_ : Part) (m : Mat) (keep : Nat → Nat → W32 → W32) (transposed : Bool) :
    Backward :=
  let r := v.body.tensor t
  let q := v.part t
  let value := fun i k => (at_.get m i k).getD (v.arrived true t i k)
  if r.kind = 1 then { w with s := w.s.addSums v t j (q.build value) }
  else if (r.kind = 3 ∨ r.kind = 4) ∧ (v.body.op j).inputGrad then
    let kept := fun i k => keep i k (value i k)
    let first := (heldIn w.grads v.batch t).isNone && (v.usersAfter t).isEmpty
    let rows := q.build (fun i k => if first then kept i k else fp32Add (w.grad v t i k) (kept i k))
    let rows := if transposed then Mat.transpose rows q.cols else rows
    { w with grads := w.grads.filter (fun h => !(h.batch == v.batch && h.tensor == t)) ++ [⟨v.batch, t, rows, transposed⟩] }
  else w

/-- The same in the format that the tensor's gradients are kept in. -/
def Backward.give (w : Backward) (v : PassEnv) (j t : Nat) (at_ : Part) (m : Mat) : Backward :=
  w.contribute v j t at_ m (v.keepGrad j t) false

/-- The statistics of an operator's rows. -/
def Backward.statsOf (w : Backward) (v : PassEnv) (j : Nat) : List (List (W32 × W32)) :=
  match w.st.find? (fun h => h.batch == v.batch && h.op == j) with
  | some h => h.rows
  | none => []

/-- LINEAR and MATMUL: dX is split over the members' columns, and its partials are combined in increasing member. -/
def Backward.products (w : Backward) (v : PassEnv) (j : Nat) (p : OpRec) (y : Nat) (dy : Mat) : Backward :=
  let t := fun k => p.ins.getD k 0
  let q := v.part y
  let f32 := v.format (t 0) == 7
  let x := w.s.mat v w.hs (t 0)
  let wt := Mat.cut (w.s.mat v w.hs (t 1)) q.col q.cols
  let mine := Mat.cut dy q.col q.cols
  let r := v.body.tensor (t 0)
  let dx := (Part.whole r).build (fun i k => v.combine j i k (chainSum (productStage f32) ((matRow mine i).zip (matRow wt k))))
  let w := if p.inputGrad then w.contribute v j (t 0) (Part.whole r) dx (v.keepGrad j (t 0)) (dxTiling r.rows r.cols == .dxB) else w
  if p.code = 1 then (if (v.body.tensor (t 1)).kind = 1 then { w with s := w.s.addProducts v (t 1) j f32 x mine } else w)
  else
    let db := (List.range r.cols).map (fun k => (List.range q.cols).map (fun n =>
      chainSum (productStage f32) (List.zipWith (fun a b => (a.getD k 0, b.getD n 0)) x mine)))
    w.give v j (t 1) ⟨rowsFrom 0 (v.body.tensor (t 1)).rows, q.col, q.cols⟩ db

/-- The cores that hold tokens of a column, with the tokens of each in increasing index (R234, R294). -/
def PassEnv.tokenCores (v : PassEnv) (q : Part) (col : Nat) : List (List Nat) :=
  let n := q.rows.length
  let home := fun (a : Nat) => tileHome v.p.side v.p.cores true n q.cols (a / 512 + ceilDiv n 512 * (col / 64))
  (((List.range n).map home).eraseDups).map (fun h => (List.range n).filter (fun a => home a == h))

/-- The rows of a normalisation that member m takes, as a part. -/
def normPart (rows cols g m : Nat) : Part := ⟨rowsFrom (rows * m / g) (rows * (m + 1) / g), 0, cols⟩

/-- dγ (`k` = 0) or dβ (1) of a column: every core's partial, in increasing order of first token. Members hold increasing token rows, so each
member's cores follow those of the members before; another member's partials, one a core, arrive (R234). -/
def PassEnv.normParam (v : PassEnv) (j k : Nat) (q : Part) (rows : Nat) (h dy : Mat) (col : Nat) : W32 :=
  let term := fun acc a => if k = 0 then fp32Fma ((matRow dy a).getD col 0) ((matRow h a).getD col 0) acc else fp32Add acc ((matRow dy a).getD col 0)
  let own := (v.tokenCores q col).map (fun ts => ts.foldl term 0)
  fpSum (((List.range v.p.group).map (fun m =>
    if m = v.member then own
    else (List.range (v.tokenCores (normPart rows q.cols v.p.group m) col).length).map (fun i =>
      Config.memberPartial v.run v.step v.batch j m (2 * i + k) col))).flatten)

/-- SOFTMAX and the normalisations, on the member's token rows. -/
def Backward.rows (w : Backward) (v : PassEnv) (j : Nat) (p : OpRec) (y : Nat) (dy : Mat) : Backward :=
  let q := v.part y
  let x := q.cut (w.s.mat v w.hs (p.ins.getD 0 0))
  let g := q.cut dy
  if p.code = 0x10 then
    let out := q.cut (w.s.mat v w.hs y)
    w.give v j (p.ins.getD 0 0) q (List.zipWith (softmaxGrad (BitVec.ofNat 32 (leField p.params 0 4))) out g)
  else
    let layer := p.code == 0x11
    let st := ((w.statsOf v j).getD 0 []).map (fun e => NormStats.mk e.1 e.2)
    let gamma := w.s.normVec v w.hs p 1
    let dx := (st.zip (List.zip x g)).map (fun (e : NormStats × List W32 × List W32) => normGrad layer e.1 gamma e.2.1 e.2.2)
    let h := List.zipWith (normH layer) st x
    let n := (v.body.tensor y).cols
    let w := [1, 2].foldl (fun (w : Backward) k =>
      let t := p.ins.getD k unusedSlot
      if k < p.nIn ∧ t ≠ unusedSlot then
        w.give v j t ⟨[0], 0, n⟩ [(List.range n).map (v.normParam j (k - 1) q (v.body.tensor y).rows h g)]
      else w) w
    w.give v j (p.ins.getD 0 0) q dx

/-- Stream attention, on the rank's span: dO in FMT, and dQ, dK and dV in OUT (R235); the statistics of other ranks' rows come around the
ring. -/
def Backward.attention (w : Backward) (v : PassEnv) (j : Nat) (p : OpRec) (y : Nat) (dy : Mat) : Backward :=
  let a := v.body.attn v.p.hints j
  let t := fun k => p.ins.getD k 0
  let q := v.part y
  let dO := dy.mapIdx (fun i r => r.mapIdx (fun k g => v.gradIn a.fmt j y i k g))
  let o := w.s.mat v w.hs y
  let own := w.statsOf v j
  let st := (List.range a.heads).map (fun h => (List.range a.tokens).map (fun i =>
    let (m, l) := match q.rows.findIdx? (· == i) with
      | some k => (own.getD h []).getD k (0, 0)
      | none => Config.arrivedStats v.run v.step v.batch j h i
    SoftRow.mk (matRow (a.headCut o h) i) m l))
  let x := fun k => w.s.mat v w.hs (t k)
  let s := (w.s.ringQuery v j (x 0) (x 1) (x 2) dO st).ringKey v j (x 0) (x 1) (x 2) dO st
  let ds := a.backward (x 0) (x 1) (x 2) dO st
  (List.range 3).foldl (fun (w : Backward) k =>
    w.contribute v j (t k) q (q.cut (ds.getD k [])) (v.gradIn a.out j (t k)) false) { w with s := s }

/-- ADD, MUL, SILU and MSE_LOSS on their part; no rule gives the gradients of the first three (log 134). -/
def Backward.lanes (w : Backward) (v : PassEnv) (j : Nat) (p : OpRec) (y : Nat) (dy : Mat) : Backward :=
  let t := fun k => p.ins.getD k 0
  let q := v.part y
  let x := fun k => q.cut (w.s.mat v w.hs (t k))
  let g := q.cut dy
  if p.code = 3 then (w.give v j (t 0) q g).give v j (t 1) q g
  else if p.code = 4 then (w.give v j (t 0) q (Mat.zip fp32Mul g (x 1))).give v j (t 1) q (Mat.zip fp32Mul g (x 0))
  else if p.code = 5 then w.give v j (t 0) q (Mat.zip Config.siluGrad (x 0) g)
  else
    let r := v.body.tensor (t 0)
    let all := Part.whole r
    w.give v j (t 0) all (mseGrad r.cols (w.s.mat v w.hs (t 0)) (w.s.mat v w.hs (t 1)))

/-- The backward pass of an operator. -/
def Backward.runOp (v : PassEnv) (w : Backward) (j : Nat) : Backward :=
  let p := v.body.op j
  let y := p.outs.getD 0 0
  let dy := w.gradMat v y
  if v.body.idleOp j then w
  else if 0x8000 ≤ p.code then
    let w := { w with s := w.s.callKernels v j true }
    p.used.foldl (fun (w : Backward) t =>
      let all := Part.whole (v.body.tensor t)
      w.give v j t all (all.build (Config.kernelValue v.run v.step v.batch true t))) w
  else if p.code = 1 ∨ p.code = 2 then w.products v j p y dy
  else if p.code = 0x20 then w.attention v j p y dy
  else if p.code = 0x10 ∨ p.code = 0x11 ∨ p.code = 0x12 then w.rows v j p y dy
  else w.lanes v j p y dy

/-- Runs of operators, each ending with one whose outputs are kept, or with the stage (R264). -/
def segmentsOf (kept : Nat → Bool) : List Nat → List Nat → List (List Nat)
  | seg, [] => if seg.isEmpty then [] else [seg]
  | seg, j :: js => if kept j then (seg ++ [j]) :: segmentsOf kept [] js else segmentsOf kept (seg ++ [j]) js

/-- The operators that a segment's backward pass needs run again: the recomputed ones of the segment, each once, and of those before it only
the ones whose outputs the segment reads across a kept output (R264, log 134). -/
def PassEnv.redo (v : PassEnv) (seg : List Nat) : List Nat :=
  v.ops.reverse.foldl (fun (acc : List Nat) j =>
    let read := fun t => (acc ++ seg).any (fun i => decide (j < i) && decide (t ∈ (v.body.op i).used))
    if v.body.recomputed j && (decide (j ∈ seg) || (decide (j < seg.headD 0) && (v.body.op j).made.any read)) then j :: acc else acc) []

/-- Input gradients go to the stage that produced the input. -/
def State.sendBack (s : State) (v : PassEnv) (grads : List HeldTensor) : State :=
  let outs := (v.body.stageInputs v.p.starts v.p.stage).map (fun t =>
    match heldIn grads v.batch t, v.body.producer t with
    | some m, some j => v.tilesTo (v.peerOf (v.stageOf j)) true t m
    | _, _ => [])
  { s with out := s.out ++ outs.flatten }

/-! ### Tiles whose gradient is final (R255, R288) -/

/-- The tiles of the stage's trainable weights, in increasing tensor index, numbered within the member's part as R294 numbers tiles. -/
def PassEnv.gradTiles (v : PassEnv) : List (Nat × Nat) :=
  ((v.body.stageTensors v.p.starts v.p.stage 1).map (fun t =>
    (List.range (tileCount (v.body.tensor t).rows (v.cols t).2)).map (fun k => (t, k)))).flatten

/-- The step in its compute phase, and the step in phase 1 or 2. -/
def Steps.computing (t : Steps) : Option Nat :=
  if t.phaseNext = .compute then some (t.oldest.toNat + 1) else if t.phase = .compute then some t.oldest.toNat else none

def Steps.reducing (t : Steps) : Option Nat :=
  if t.phaseNext = .compute ∨ t.phaseNext = .reduce then some (t.oldest.toNat + 1)
  else if t.phase = .compute ∨ t.phase = .reduce then some t.oldest.toNat else none

/-- The final tiles of the step in phase 1 or 2. -/
def Steps.finals (t : Steps) : List Nat := if t.phaseNext = .compute ∨ t.phaseNext = .reduce then t.finalNext else t.finalTiles

/-- A tile's gradient is final in the step that computes. -/
def Steps.addFinal (t : Steps) (tile : Nat) : Steps :=
  if t.phaseNext = .compute then (if tile ∈ t.finalNext then t else { t with finalNext := t.finalNext ++ [tile] })
  else if t.phase = .compute then (if tile ∈ t.finalTiles then t else { t with finalTiles := t.finalTiles ++ [tile] })
  else t

/-! ### The backward pass, operator by operator (R253, R264) -/

def State.setBack (s : State) (r : Option BackRun) : State := { s with steps := { s.steps with back := r } }

/-- B(b) begins. -/
def State.beginBack (s : State) (v : PassEnv) : State :=
  (s.readWeights v true).setBack
    (some ⟨v.batch, (segmentsOf (fun j => !v.body.recomputed j) [] v.ops).reverse, [], [], [], []⟩)

/-- B(b) ends: input gradients go out, and what the stage held of the micro-batch is dropped (R261). With the last one every tile is final
(R255). -/
def State.endBack (s : State) (v : PassEnv) (grads : List HeldTensor) : State :=
  let s := (s.sendBack v grads).setBack none
  let t := { s.steps with held := s.steps.held.filter (fun h => h.batch != v.batch),
                          heldStats := s.steps.heldStats.filter (fun h => h.batch != v.batch) }
  { s with steps := if v.batch + 1 = v.p.microBatches then (List.range v.gradTiles.length).foldl Steps.addFinal t else t }

/-- The backward pass goes on by one operator, by the recomputation that opens a segment, or by its end. -/
def State.advanceBack (s : State) (v : PassEnv) (r : BackRun) : State :=
  match r.ops, r.segs with
  | j :: js, _ =>
    let w := Backward.runOp v ⟨s, s.steps.held ++ r.held, s.steps.heldStats ++ r.stats, r.grads⟩ j
    w.s.setBack (some { r with ops := js, grads := w.grads })
  | [], seg :: segs =>
    let (u, hs, st) := s.runOps v true s.steps.held s.steps.heldStats (v.redo seg)
    u.setBack (some { r with segs := segs, ops := seg.reverse, held := hs.drop s.steps.held.length,
                             stats := st.drop s.steps.heldStats.length })
  | [], [] => s.endBack v r.grads

/-- It goes on while `more` asks for it. A pass of n operators has at most 2 n + 1 such parts. -/
def State.goBack (s : State) (v : PassEnv) (more : BackRun → Bool) : State :=
  (List.range (2 * v.ops.length + 2)).foldl (fun (s : State) _ =>
    match s.steps.back with
    | some r => if more r then s.advanceBack { v with batch := r.batch } r else s
    | none => s) s

def State.backwardPass (s : State) (v : PassEnv) : State := (s.beginBack v).goBack v (fun _ => true)

/-! ### The order of the passes (R260) -/

def State.passEnv (s : State) (p : Placement) (step batch : Nat) : PassEnv := ⟨p, s.member p, s.steps.runId, step, batch⟩

/-- A pass is run, and is no longer to come. -/
def State.runPass (s : State) (p : Placement) (step : Nat) (q : Pass) : State :=
  let s := { s with steps := { s.steps with passes := s.steps.passes.erase q } }
  let v := s.passEnv p step q.batch
  if q.back then s.backwardPass v else s.forwardPass v

/-- The tiles that a pass waits for: those of the inputs, or of the gradients of the outputs, that other stages produce (R262). -/
def PassEnv.awaited (v : PassEnv) (back : Bool) : List (Nat × Nat) :=
  let ts := if back then (v.body.stageOutputs v.p.starts v.p.stage).filter (fun t => !(v.usersAfter t).isEmpty)
    else (v.body.stageInputs v.p.starts v.p.stage).filter (fun t => (v.body.tensor t).kind == 3 || (v.body.tensor t).kind == 4)
  (ts.map (fun t => let q := v.part t; (List.range (tileCount q.rows.length q.cols)).map (fun k => (t, k)))).flatten

/-- A pass may begin: the arrival signal of every input tile has been taken, and for a backward pass this stage's forward pass of the
micro-batch has ended. -/
def PassEnv.passFree (v : PassEnv) (i : Nat) (ps : List Pass) (q : Pass) : Bool :=
  ({ v with batch := q.batch }.awaited q.back).all (fun e => Config.tileHere i q.batch q.back e.1 e.2) &&
    (!q.back || !ps.any (fun r => !r.back && r.batch == q.batch))

/-- Micro-batches that a training stage holds: forward passes ended, backward passes still to come (R261). -/
def heldBatches (ps : List Pass) : Nat := ps.countP (fun q => q.back) - ps.countP (fun q => !q.back)

/-- The next pass: in alternating mode the next of the order, in side-by-side mode the next of either partition, where a forward pass
waits while the stage holds as many micro-batches as space is reserved for (R261). -/
def PassEnv.readyPass (v : PassEnv) (i : Nat) (ps : List Pass) : Option Pass :=
  let p := v.p
  if p.side then
    ((ps.find? (fun q => !q.back)).filter (fun q => v.passFree i ps q &&
        decide (heldBatches ps < peakHeld p.side p.stages p.microBatches p.stage))).or
      ((ps.find? (fun q => q.back)).filter (v.passFree i ps))
  else ps.head?.filter (v.passFree i ps)

/-- Phase 1 has ended when no pass is left (R253). -/
def Steps.endCompute (t : Steps) : Steps :=
  if !t.passes.isEmpty || t.back.isSome then t
  else if t.phaseNext = .compute then { t with phaseNext := .reduce }
  else if t.phase = .compute then { t with phase := .reduce }
  else t

/-- At a tick the backward pass that has begun goes on, or the next pass runs, if it may begin; with none left phase 1 ends (log 135). -/
def State.tickPasses (s : State) : State :=
  let t := s.steps
  if t.mode = .running ∧ t.barrier = none then
    match s.tundish.placement, t.computing with
    | some p, some n =>
      let (i, s) := s.fresh
      let v := s.passEnv p n 0
      let s :=
        if t.back.isSome then s.goBack v (fun _ => true)
        else match v.readyPass i t.passes with
          | some q => s.runPass p n q
          | none => s
      { s with steps := s.steps.endCompute }
    | _, _ => s
  else s

/-- What follows the compute phase says that its passes have ended: those left run, in order (log 135). -/
def State.endPasses (s : State) : State :=
  match s.tundish.placement, s.steps.computing with
  | some p, some n =>
    let s := s.goBack (s.passEnv p n 0) (fun _ => true)
    s.steps.passes.foldl (fun s q => s.runPass p n q) s
  | _, _ => s

/-- The lowest place of use of a tensor has not been reached by the backward pass. -/
def BackRun.awaits (r : BackRun) (j : Nat) : Bool := decide (j ∈ r.ops) || r.segs.any (fun seg => decide (j ∈ seg))

/-- What a tile's last term takes: every pass but the last backward one, and of that one its operators down to the lowest place that uses
the weight (R255, R256). -/
def State.finishTile (s : State) (p : Placement) (n tensor : Nat) : State :=
  let last : Pass := ⟨true, p.microBatches - 1⟩
  let begun := fun (s : State) => s.steps.back.isSome
  let s := if begun s then s
    else
      let s := (s.steps.passes.filter (· != last)).foldl (fun s q => s.runPass p n q) s
      if last ∈ s.steps.passes then
        { s with steps := { s.steps with passes := s.steps.passes.erase last } }.beginBack (s.passEnv p n (p.microBatches - 1))
      else s
  let v := s.passEnv p n (p.microBatches - 1)
  match (v.places tensor).getLast? with
  | some j => s.goBack v (fun r => r.awaits j)
  | none => s

/-- The passes of a step on this module. -/
def Placement.passes (p : Placement) : List Pass := passOrder p.side p.training p.stages p.microBatches p.stage

end Sys2Proof.Machine
end

