-- ==== Sys2Proof/Machine/Reduce.lean ====
section
/-!
DEFINITION. Phase 2 of a step: the reduce-scatter of the own shard, chunk by chunk, and the chunks of reduced gradients that the shard
copies receive (R53, R253–R255, R270, R288, R295, R421–R423).
-/
namespace Sys2Proof.Machine

/-! ### Receive areas (R421) -/

/-- Slot of a chunk in an area: 0 running sums, 1 results of the own shard, 2 of the twin's. -/
def Placement.chunkSlot (p : Placement) (area : Nat) (c : Cru) (chunk : Nat) : Nat :=
  chunk % max 1 (Config.receiveSlots p.body p.pos c.val area)

/-- Where a slot of 4,096 bytes stands in region 8. -/
def Placement.slotSpot (p : Placement) (area : Nat) (c : Cru) (chunk : Nat) : Nat :=
  let lo := min (p.regionAt c.val 7) (2 ^ 36 - 4096)
  lo + (Config.receiveAt p.body p.pos c.val area + 4096 * p.chunkSlot area c chunk) % (2 ^ 36 - 4096 - lo + 1)

/-! ### The own shard's chunks -/

/-- Rank of this module in the reduce-scatter of its own shard, and its member. -/
def Placement.rank (p : Placement) : Nat := p.pos / (p.stages * p.group)
def Placement.member (p : Placement) : Nat := (roleAt p.stages p.group p.pos).2
def Placement.lastRank (p : Placement) : Bool := p.rank + 1 == p.replicas

/-- The own shard as a copy. -/
def State.ownCopy (s : State) (p : Placement) : ShardCopy := ⟨s.job.self.toNat, p.stage, p.member, true⟩

/-- Number of element i of chunk `chunk` of crucible c in the own shard. -/
def State.chunkParam (s : State) (p : Placement) (c : Cru) (chunk i : Nat) : Nat :=
  p.firstGroup (s.ownCopy p) c * 16384 + 1024 * chunk + i

/-- A chunk's tiles are final; padding belongs to none (R255, R289). -/
def State.chunkFinal (s : State) (v : PassEnv) (c : Cru) (chunk : Nat) : Bool :=
  (List.range 1024).all (fun i =>
    match coordinate v.body v.p.starts v.p.group v.p.stage v.p.member (s.chunkParam v.p c chunk i) with
    | none => true
    | some (t, row, col) =>
      let rows := (v.body.tensor t).rows
      decide (v.gradTiles.idxOf (t, row / 512 + ceilDiv rows 512 * ((col - (v.cols t).1) / 64)) ∈ s.steps.finals))

/-- This rank's partial of a chunk, from region 5, and the running sum of the ranks before it, from the slot it arrived in (R422). A padding
parameter has +0. -/
def State.chunkSum (s : State) (p : Placement) (c : Cru) (chunk : Nat) : List W32 :=
  let words := fun (a : Nat) => let bs := Memory.readBytes (s.crucible c).hbm.mem a 4096
    (List.range 1024).map (fun i => BitVec.ofNat 32 (leNat ((bs.drop (4 * i)).take 4)))
  let own := (words (s.region5 p c + 4096 * chunk)).mapIdx (fun i w =>
    if (coordinate p.body p.starts p.group p.stage p.member (s.chunkParam p c chunk i)).isNone then 0 else w)
  if p.rank = 0 then own else List.zipWith fp32Add (words (p.slotSpot 0 c chunk)) own

/-- The core that handles a chunk: that of its group (R289). -/
def chunkCore (chunk : Nat) : Nat := chunk / 16 % 500

/-- The operation that narrows element i of a chunk at the last rank: sequence number and element index (R206, log 137). -/
def chunkOp (c : Cru) (chunk i : Nat) : Nat × Nat := Config.reduceOp c.val (chunk / 16) (1024 * (chunk % 16) + i)

/-- Blocks of a chunk as the last rank converts them, with its own keys (R270, R423). -/
def lastConvs (format : Nat) (step : Nat) (c : Cru) (chunk : Nat) (sum : List W32) : List (Byte × List Conv) :=
  (List.range 32).map (fun b =>
    gradConvs format (fun i =>
      let (seq, e) := chunkOp c chunk (32 * b + i)
      srRand (c.val * 500 + chunkCore chunk) (BitVec.ofNat 48 step) (BitVec.ofNat 32 seq) e) ((sum.drop (32 * b)).take 32))

/-- Saturated and flushed elements of those conversions are counted (R210). -/
def Crucible.countChunk (x : Crucible) (c : Cru) (chunk : Nat) (bs : List (Byte × List Conv)) : Crucible :=
  (((bs.map Prod.snd).flatten).zipIdx).foldl (fun (x : Crucible) (e : Conv × Nat) =>
    x.addCounts (chunkCore chunk) (BitVec.ofNat 32 (chunkOp c chunk e.2).1) e.1.sat e.1.flush) x

def State.noteSent (s : State) (c : Cru) (chunk : Nat) : State :=
  { s with steps := { s.steps with sentChunks := s.steps.sentChunks ++ [(c.val, chunk)] } }

/-- A copy has a chunk of its reduced gradient. -/
def State.noteReduced (s : State) (own : Bool) (c : Cru) (chunk : Nat) (bs : List Byte) : State :=
  { s with steps := { s.steps with reduced := s.steps.reduced ++ [⟨own, c.val, chunk, bs⟩] } }

/-- A chunk leaves: its running sum in FP32 to the next rank, or, at the last rank, the result in the gradient format by one xcast.mod for each
block of 64 modules that holds a copy. The sender's own copy is written where it would arrive (R53). -/
def State.sendChunk (s : State) (p : Placement) (step : Nat) (c : Cru) (chunk : Nat) : State :=
  let src := HbmSource.core (Fin.ofNat 500 (chunkCore chunk))
  let sum := s.chunkSum p c chunk
  let x := ((s.crucible c).hbmReadAs src (some 5) (s.region5 p c + 4096 * chunk) 4096 (some step)).2
  let x := if p.rank = 0 then x else (x.hbmReadAs src (some 5) (p.slotSpot 0 c chunk) 4096 (some step)).2
  let s := (s.putCrucible c x).noteSent c chunk
  match (p.shape.reduceHops p.body p.stage p.member).find? (fun h => h.sender == s.job.self.toNat) with
  | none => s
  | some h =>
    if p.lastRank then
      let f := leField p.body 38 1
      let bs := lastConvs f step c chunk sum
      let data := chunkBytes f bs
      let x := ((s.crucible c).countChunk c chunk bs).hbmWriteAs src (some 5) (p.slotSpot 1 c chunk) data (some step)
      let s := (s.putCrucible c x).noteReduced true c chunk data
      { s with out := s.out ++ h.masks.map (fun m =>
          .sumChunk collectiveClass (.cast m.1 m.2) c chunk (p.chunkSlot 1 c chunk) data) }
    else
      { s with out := s.out ++ h.receivers.map (fun m =>
          .sumChunk collectiveClass (.rank m) c chunk (p.chunkSlot 0 c chunk) (wordBytes sum)) }

/-- The arrivals of a batch are announced, after a fence (R421); the slots that the batch was read from are free for the rank before. -/
def State.announceChunks (s : State) (p : Placement) (c : Cru) (chunks : List Nat) : State :=
  if chunks.isEmpty then s
  else
    let ranks := p.shape.ranks p.body p.stage p.member
    let self := s.job.self.toNat
    let targets := if p.lastRank then (p.shape.copies p.body p.stage p.member).eraseDups.filter (· ≠ self) else [ranks.getD (p.rank + 1) 0]
    let back := if p.rank = 0 then [] else chunks.map (fun k => Out.announce (ranks.getD (p.rank - 1) 0) c (.chunkSlot 0 (p.chunkSlot 0 c k)))
    -- The result is the own shard's at its owners, whose ranks these are, and the twin's at their twins.
    let area := fun (m : Nat) => if p.lastRank then (if m ∈ ranks then 1 else 2) else 0
    { s with out := s.out ++ targets.map (fun m => Out.announce m c (.chunks (area m) chunks)) ++ back }

/-- The chunks of a copy in a crucible. -/
def Placement.chunkCount (p : Placement) (y : ShardCopy) (c : Cru) : Nat := 16 * p.copyGroups y c

/-- Chunks of the own shard that may leave and have not: final here, arrived from the rank before, and with a free slot at the receiver, which
`go` says. They leave in increasing order. -/
def State.sendChunks (s : State) (p : Placement) (step : Nat) (go : Cru → Nat → Bool) : State :=
  let v := s.passEnv p step 0
  cruList.foldl (fun s c =>
    if (s.crucible c).live then
      let ks := (List.range (p.chunkCount (s.ownCopy p) c)).filter (fun k =>
        !decide ((c.val, k) ∈ s.steps.sentChunks) && s.chunkFinal v c k && go c k)
      (ks.foldl (fun s k => s.sendChunk p step c k) s).announceChunks p c ks
    else s) s

/-- A copy's chunk is taken from its slot once it has been announced, and the slot is free for the last rank. -/
def State.takeChunk (s : State) (p : Placement) (step : Nat) (y : ShardCopy) (c : Cru) (chunk : Nat) : State :=
  let area := if y.own then 1 else 2
  let src := HbmSource.core (Fin.ofNat 500 (chunkCore chunk))
  let (bs, x) := (s.crucible c).hbmReadAs src (some 5) (p.slotSpot area c chunk) (gradChunk (leField p.body 38 1)) (some step)
  let s := (s.putCrucible c x).noteReduced y.own c chunk bs
  match (p.shape.ranks p.body y.stage y.member).getLast? with
  | some m => { s with out := s.out ++ [.announce m c (.chunkSlot area (p.chunkSlot area c chunk))] }
  | none => s

/-- Chunks of reduced gradients that have come are taken, in increasing order. -/
def State.takeChunks (s : State) (p : Placement) (step : Nat) (come : Bool → Cru → Nat → Bool) : State :=
  cruList.foldl (fun s c =>
    if (s.crucible c).live then
      (s.shardCopies p).foldl (fun s y =>
        (List.range (p.chunkCount y c)).foldl (fun (s : State) k =>
          if come y.own c k && !s.steps.reduced.any (fun r => r.own == y.own && r.cru == c.val && r.chunk == k) then s.takeChunk p step y c k
          else s) s) s
    else s) s

/-- The job's gradients are reduced: it trains, and has micro-batches (R255). -/
def Placement.reduces (p : Placement) : Bool := p.training && p.microBatches != 0

/-- At a tick phase 2 goes on: chunks whose signals have come leave, and are taken (log 135). -/
def State.tickReduce (s : State) : State :=
  let t := s.steps
  if t.mode = .running ∧ t.barrier = none then
    match s.tundish.placement, t.reducing with
    | some p, some n =>
      if p.reduces then
        let (i, s) := s.fresh
        let s := s.sendChunks p n (fun c k => (p.rank == 0 || Config.chunkHere i 0 c.val k) && Config.slotHere i c.val k)
        s.takeChunks p n (fun own c k => !(own && p.lastRank) && Config.chunkHere i (if own then 1 else 2) c.val k)
      else s
    | _, _ => s
  else s

/-- What follows phase 2 says that it has ended: the chunks left leave and are taken (log 135). -/
def State.endReduce (s : State) (p : Placement) (step : Nat) : State :=
  (s.sendChunks p step (fun _ _ => true)).takeChunks p step (fun _ _ _ => true)

end Sys2Proof.Machine
end

