-- ==== Sys2Proof/Machine/Steps.lean ====
section
/-!
DEFINITION. The commands of the step protocol and the riser (R253–R255, R260, R271–R275, R490, R491, R495–R501, R510).
-/
namespace Sys2Proof.Machine

/-! ### Messages -/

/-- EPOCH_STALE: STALE_NOTICE at the crucible it reaches; a newer epoch fences the module, any other is ignored (R416, R510). -/
def execEpochStale (c : Cru) (n : PortIx) (p : Packet) (s : State) : Host.Outcome State Fault Refusal :=
  .next (
    match s.takeUrgent 3 c n p with
    | (s, false) => s
    | (s, true) =>
      let t := packetTarget p c
      let heard := BitVec.ofNat 16 (leField p.payload 0 2)
      let own := (s.crucible t).xport.job.live.epoch
      let s := s.atCrucible t (fun x => x.onXport (fun v => { v with status := setFlag v.status 7 }))
      if olderEpoch heard own ∧ s.steps.mode ≠ .fenced then s.enterFenced heard p.src.toNat else s)

/-- A step message that is new and belongs to a state that takes part (R511). -/
def State.takeStep (s : State) (type : Byte) (c : Cru) (n : PortIx) (p : Packet) (f : State → StepMsg → State) : State :=
  match s.takeUrgent type c n p with
  | (s, true) => if s.steps.mode = .fenced ∨ s.steps.mode = .held then s else f s (stepMsgOf p.payload)
  | (s, false) => s

/-- STEP_REPORT from a child: clean reports are gathered, a faulty one goes up at once. -/
def execStepReport (c : Cru) (n : PortIx) (p : Packet) (s : State) : Host.Outcome State Fault Refusal :=
  .next (s.takeStep 0x08 c n p (fun s m =>
    if s.steps.isOld m.step m.gen then s
    else if m.result = 0 then
      let r : ChildReport := ⟨p.src.toNat, m.step, m.gen, m.covered⟩
      ({ s with steps := { s.steps with children := s.steps.children.filter (fun (q : ChildReport) => q.from_ ≠ r.from_ ∨ q.step ≠ r.step) ++ [r] } }).cleanCheck
    else s.faultyUp m))

/-- STEP_CHECKED from the parent. -/
def execStepChecked (c : Cru) (n : PortIx) (p : Packet) (s : State) : Host.Outcome State Fault Refusal :=
  .next (s.takeStep 0x09 c n p (fun s m => s.applyChecked m))

/-- REPLAY from the parent. -/
def execReplayStep (c : Cru) (n : PortIx) (p : Packet) (s : State) : Host.Outcome State Fault Refusal :=
  .next (s.takeStep 0x0A c n p (fun s m => s.applyReplay m))

/-- DRAINED from a child. -/
def execDrainedReport (c : Cru) (n : PortIx) (p : Packet) (s : State) : Host.Outcome State Fault Refusal :=
  .next (s.takeStep 0x0B c n p (fun s m =>
    if s.steps.isOld m.step m.gen then s
    else
      let r : ChildReport := ⟨p.src.toNat, m.step, m.gen, m.covered⟩
      ({ s with steps := { s.steps with drained := s.steps.drained.filter (fun (q : ChildReport) => q.from_ ≠ r.from_) ++ [r] } }).drainCheck))

/-- RESUME from the parent. -/
def execResumeStep (c : Cru) (n : PortIx) (p : Packet) (s : State) : Host.Outcome State Fault Refusal :=
  .next (s.takeStep 0x0C c n p (fun s m => s.resumeNow m))

/-- DRAIN_QUIET_END: 100 µs with nothing injected have passed since every packet was resolved. -/
def execDrainQuietEnd (s : State) : Host.Outcome State Fault Refusal := .next s.drainEnd

/-! ### Phases (R253–R255) -/

/-- The next step may enter its compute phase; one that comes after a placement that the module has still to act on waits for it (R303). -/
def State.mayCompute (s : State) : Bool :=
  let t := s.steps
  t.mode == .running && t.barrier == none && decide (t.next < t.queuedEnd) &&
    (match s.tundish.next with
     | some (_, upTo) => decide (t.next < upTo)
     | none => true) &&
    s.host.rings.all (fun r => r.ready t.oldest.toNat t.next) &&
    cruList.all (fun c => (s.crucible c).res.nose == .idle && !((s.crucible c).live && (s.crucible c).recFull)) &&
    (if t.next = t.oldest.toNat then t.phase == .waiting
     else decide (t.next = t.oldest.toNat + 1) && t.updated t.oldest && t.phaseNext == .waiting)

/-- The next step enters its compute phase, with the passes of its micro-batches to come. -/
def Steps.startCompute (t : Steps) (ps : List Pass) : Steps :=
  let t := { t.dropPasses with next := t.next + 1, passes := ps, firstOpen := false }
  if t.next = t.oldest.toNat + 1 then { t with phase := .compute } else { t with phaseNext := .compute }

/-- COMPUTE_PHASE_START: queued, its inputs announced, its output slots free, the previous update over. -/
def execComputePhaseStart (s : State) : Host.Outcome State Fault Refusal :=
  .next (
    if s.mayCompute then
      { s with steps := s.steps.startCompute (match s.tundish.placement with
          | some p => p.passes
          | none => []) }
    else s)

/-- The placement has micro-batches; a step without any does no work in phases 1 to 3 (R255). -/
def State.hasBatches (s : State) : Bool :=
  match s.tundish.placement with
  | some p => p.microBatches != 0
  | none => true

/-- The tensor of a tile of the stage's trainable weights, by the tile's number. -/
def State.tileTensor (s : State) (p : Placement) (tile : Nat) : Option Nat := ((s.passEnv p 0 0).gradTiles[tile]?).map Prod.fst

/-- GRADIENT_FINAL: a tile of the step in its compute phase has its last term, so what adds to it has run; its reduce-scatter may begin while
other tiles are still computed (R255, log 135). -/
def execGradientFinal (tile : Nat) (s : State) : Host.Outcome State Fault Refusal :=
  .next (
    match s.tundish.placement, s.steps.computing with
    | some p, some n =>
      match s.tileTensor p tile with
      | some t =>
        if p.microBatches = 0 then s
        else
          let s := s.finishTile p n t
          { s with steps := s.steps.addFinal tile }
      | none => s
    | _, _ => s)

/-- η of step n. -/
def Steps.etaOf (t : Steps) (n : Nat) : W32 :=
  match t.queue.find? (fun q => decide (q.first ≤ n) && decide (n < q.first + q.count)) with
  | some q => q.eta
  | none => 0

/-- The risers of the oldest step are armed. -/
def State.risersArmed (s : State) : Bool :=
  cruList.all (fun c =>
    let x := s.crucible c
    !x.live || (x.riser.armed && x.riser.step == s.steps.oldest && !x.riser.ingotHold))

/-- What the optimizer is given for a step: the body's β1, β2, λ and ε, and the factors for η and t (R271). -/
def Placement.hyper (p : Placement) (eta : W32) (n : Nat) : Hyper :=
  let f := fun i => BitVec.ofNat 32 (leField p.body i 4)
  let w := stepFactors eta (f 40) (f 44) (f 48) (n + 1)
  ⟨w.getD 0 0, w.getD 1 0, w.getD 2 0, w.getD 3 0, w.getD 4 0, f 40, f 44, f 52⟩

def Hyper.factors (h : Hyper) : List W32 := [h.a, h.c, h.k, h.q1, h.q2]

/-- The logical cores `ls` at sequence number `u`. -/
def Crucible.padTo (x : Crucible) (u : Nat) (ls : List Nat) : Crucible :=
  ls.foldl (fun (y : Crucible) l => y.modPhys l (fun p => { p with seq := u })) x

/-- Every logical core enters the update phase with sequence number U: one whose phases 1 and 2 made fewer enqueues has padded them with empty
xcopy instructions, which do nothing else (R275). -/
def Crucible.padCores (x : Crucible) (u : Nat) : Crucible :=
  x.padTo u (List.range 500)

/-- The rest of phase 2, and phase 3, of the oldest step: the chunks left leave and arrive, and every shard copy is updated. -/
def State.updateStep (s : State) (p : Placement) (h : Hyper) : State :=
  if p.reduces then
    let s := s.endReduce p s.steps.oldest.toNat
    (s.eachLive (fun _ x => x.padCores p.padTarget)).updateShards p h
  else s

/-- UPDATE_PHASE_START: phases 1 and 2 have ended, the previous step is checked and this step's riser armed (R253, R254). -/
def execUpdatePhaseStart (s : State) : Host.Outcome State Fault Refusal :=
  let t := s.steps
  .next (
    if t.mode = .running ∧ t.barrier = none ∧ (t.phase = .compute ∨ t.phase = .reduce) ∧ s.risersArmed then
      match s.tundish.placement with
      | none => s
      | some p =>
        let h := p.hyper (t.etaOf t.oldest.toNat) t.oldest.toNat
        let s := s.endPasses.updateStep p h
        { s with steps := { s.steps with phase := .update, factors := h.factors } }
    else s)

/-- CHECK_PHASE_END: the module reports the step clean, or faulty (R495). -/
def execCheckPhaseEnd (s : State) : Host.Outcome State Fault Refusal :=
  let t := s.steps
  .next (
    if t.mode = .running ∧ t.barrier = none ∧
        ((t.phase = .update ∧ !s.sillageDue) ∨ (t.phase = .check ∧ t.sillage = .done)) then
      let s := ({ s with steps := { t with phase := .reported } }).gatherFaults
      if s.steps.faulty ∨ s.steps.phase ≠ .reported then s
      else ({ s with steps := { s.steps with ownClean := true } }).cleanCheck
    else s)

/-! ### The riser engine (R490, R491) -/

/-- RISER_COPY_UNIT: the engine copies the first unit not yet copied, in the order of R478, once its partition is not held. -/
def execRiserCopyUnit (c : Cru) (u : Nat) (s : State) : Host.Outcome State Fault Refusal :=
  .next (s.atCrucible c (fun x =>
    let r := x.riser
    let granted := (r.place u).all (fun p => !x.hbm.isHeldAs .mgmt (some 3) p.off)
    if x.live && granted && r.armed && (List.range r.unitTotal).find? (fun v => r.unitState v == .uncopied) == some u then
      let x := x.copyUnit u
      { x with riser := { x.riser with units := Store.set unitDefault r.units u .copied } }
    else x))

/-- RISER_WRITE_STALL: a write to a unit not yet copied waits for its copy, then proceeds. -/
def execRiserWriteStall (c : Cru) (off : BitVec 36) (write : StalledWrite) (s : State) : Host.Outcome State Fault Refusal :=
  .next (s.atCrucible c (fun x =>
    let a := off.toNat
    match x.riser.unitAt a with
    | none => x
    | some u =>
      if x.live && x.riser.armed && x.riser.unitState u == .uncopied && decide (a + write.data.length ≤ 2 ^ 36) &&
          !x.riser.touchesRiser a write.data.length then
        x.hbmWrite write.src a write.data (x.sourceStep write.src)
      else x))

end Sys2Proof.Machine
end

