-- ==== Sys2Proof/Machine/Errors.lean ====
section
/-!
DEFINITION. Nose rounds (R474–R477), sillage (R478–R481) and the retirement of a core (R472).
-/
namespace Sys2Proof.Machine

/-! ### Nose rounds -/

/-- Tally context 7 of a nose round: identifiers 0 to 3 name words 44 to 47, the others are invalid (R474). -/
def noseContext : Store XlatEntry :=
  (List.range 48).map (fun v => (v, if v < 4 then ⟨true, BitVec.ofNat 6 (44 + v)⟩ else ⟨false, 0⟩))

/-- Every core is Halted. -/
def Crucible.allHalted (x : Crucible) : Bool := (List.range 500).all (fun l => (x.log l).mode == .halted)

/-- Element i of the operand image: bits of mix(seed xor i), a float's exponent field forced to the bias, the bias + 1 or the bias + 2
(R474, log 138). -/
def noseElement (seed : W64) (f : BitVec 4) (i : Nat) : Nat :=
  let w := formatBits f
  let v := (srMix (seed ^^^ BitVec.ofNat 64 i)).toNat / 2 ^ (Config.noseShift w % (65 - w)) % 2 ^ w
  match if f = 4 then Dest.flt fmtE2m1 else if f = 3 then Dest.int 4 else formatDest f with
  | .int _ => v
  | .flt g =>
    let e := g.bias + Config.noseExponent seed i % 3
    v / 2 ^ (g.eb + g.mb) * 2 ^ (g.eb + g.mb) + e * 2 ^ g.mb + v % 2 ^ g.mb

/-- The 192 KiB operand image of a seed (R474). -/
def noseImage (seed : W64) : List Byte :=
  padTo 196608 ((Config.noseRuns.foldl (fun (acc : Nat × List Byte) r =>
    (acc.1 + r.2, acc.2 ++ packBytes (formatBits r.1) ((List.range r.2).map (fun i => noseElement seed r.1 (acc.1 + i))))) (0, [])).2)

/-- The image stands in region 1, below the mailboxes. -/
def noseImageOffset (c : Cru) : Nat := Config.noseImageAt c.val % (0x1F000000 - 196608)

/-- The management core writes the operand image of a round. -/
def Crucible.putNoseImage (x : Crucible) (c : Cru) (seed : W64) : Crucible :=
  x.hbmWrite .mgmt (noseImageOffset c) (noseImage seed) none

/-- A round's cores enter context 7 with their signatures at 0 (R475). -/
def Crucible.armNose (x : Crucible) (cores : List Nat) : Crucible :=
  let x := { x with tally := { x.tally with xlat := Store.set xlatSetDefault x.tally.xlat 7 (Staged.reset noseContext) } }
  cores.foldl (fun x l => x.modLog l (fun g => { g with ctxSel := 0xF, sig := 0 })) x

/-- A round's cores leave their context. -/
def Crucible.endNose (x : Crucible) : Crucible :=
  let x := (List.range 500).foldl (fun x l => x.modLog l (fun g => { g with ctxSel := 0 })) x
  { x with res := { x.res with nose := .idle } }

/-- The crucible takes part in a round now: on command, or after a step whose number its interval divides (R476). -/
def Crucible.noseDue (x : Crucible) (last : Option Nat) : Option W64 :=
  if x.res.noseRequested then some x.res.seed.live
  else match last with
    | none => none
    | some n =>
      let i := x.res.noseInterval.toNat
      if i ≠ 0 ∧ n % i = 0 then some (srMix (BitVec.ofNat 64 n)) else none

def State.noseIdle (s : State) : Bool := cruList.all (fun c => (s.crucible c).res.nose == .idle)

/-- The step before an idle gap: the last one started, once a step runs. -/
def Steps.lastStarted (t : Steps) : Option Nat :=
  if t.mode = .idle ∧ t.firstOpen ∨ t.next = 0 then none else some (t.next - 1)

/-- NOSE_ROUND_START: every core of every live crucible is Halted, outside a barrier. -/
def execNoseRoundStart (s : State) : Host.Outcome State Fault Refusal :=
  .next (
    if s.noseIdle && s.steps.barrier.isNone && cruList.all (fun c => !(s.crucible c).live || (s.crucible c).allHalted) then
      s.eachLive (fun c x =>
        match x.noseDue s.steps.lastStarted with
        | none => x
        | some seed =>
          let x := (x.putNoseImage c seed).armNose (List.range 500)
          { x with res := { x.res with nose := .running seed, noseRequested := false } })
    else s)

/-- The value that more than half of a list hold. -/
def majority (xs : List W64) : Option W64 := xs.find? (fun v => decide (2 * xs.count v > xs.length))

/-- Crucibles in the first run of a round. -/
def State.noseRunners (s : State) : List Cru :=
  cruList.filter (fun c =>
    match (s.crucible c).res.nose with
    | .running _ => (s.crucible c).live
    | _ => false)

/-- A nose record: type 4, 5 or 6 (R482). -/
def Crucible.noseRecord (x : Crucible) (type : BitVec 4) (step : Nat) (l : Option Nat) : Crucible :=
  let p := match l with
    | some l => x.physIx l
    | none => 0
  { x with res := x.res.append ⟨BitVec.ofNat 48 step, type, 15, BitVec.ofNat 10 p, BitVec.ofNat 9 (l.getD 0), 0⟩ }

/-- The first run ends: the cores that differ from the reference run once more, alone. -/
def State.noseFirst (s : State) (cs : List Cru) : State :=
  let n := s.steps.current
  let sigs := (cs.map (fun c => (List.range 500).map (fun l => ((s.crucible c).log l).sig))).flatten
  match majority sigs with
  | none => (cs.foldl (fun s c => s.atCrucible c (fun x => (x.noseRecord 6 n none).endNose)) s).reportFaulty n false
  | some v =>
    cs.foldl (fun s c => s.atCrucible c (fun x =>
      let out := (List.range 500).filter (fun l => (x.log l).sig != v)
      if out.isEmpty then x.endNose
      else
        let x := x.armNose out
        { x with res := { x.res with nose := .again v out } })) s

/-- The second run ends: a core that matches stays, one that differs again is retired. -/
def State.noseAgain (s : State) : State :=
  let n := s.steps.current
  cruList.foldl (fun s c =>
    let x := s.crucible c
    match x.res.nose with
    | .again v cores =>
      let x := cores.foldl (fun (x : Crucible) l =>
        if (x.log l).sig = v then x.noseRecord 4 n (some l)
        else (x.noseRecord 5 n (some l)).modLog l (fun g => { g with retireDue := some FaultRecord.none })) x
      (s.putCrucible c x.endNose).reportFaulty n false
    | _ => s) s

/-- NOSE_ROUND_END: every core of the round has halted again; the signatures are compared (R477). -/
def execNoseRoundEnd (s : State) : Host.Outcome State Fault Refusal :=
  .next (
    if !s.noseIdle && cruList.all (fun c => !(s.crucible c).live || (s.crucible c).allHalted) then
      match s.noseRunners with
      | [] => s.noseAgain
      | cs => s.noseFirst cs
    else s)

/-! ### Sillage -/

def mailbox : Nat := 0x1F000000

/-- CRCs of tracked units of a crucible, from unit `u` on (R478). -/
def Crucible.unitCrcs (x : Crucible) (u : Nat) : Nat → List Byte
  | 0 => []
  | n + 1 =>
    (match x.riser.place u with
     | some p => leBytes 8 (crc64 (Memory.readBytes x.hbm.mem p.off p.len)).toNat
     | none => []) ++ x.unitCrcs (u + 1) n

/-- The list of a shard copy's CRCs over the four crucibles: the own shard, or the twin's. -/
def State.shardCrcs (s : State) (twin : Bool) : List Byte :=
  (cruList.map (fun c =>
    let x := s.crucible c
    let r := x.riser
    let a := r.own + scalePieces r.own
    if twin then x.unitCrcs a (r.twin + scalePieces r.twin) else x.unitCrcs 0 a)).flatten

/-- A tracked unit of the module is poisoned. -/
def State.shardPoisoned (s : State) : Bool :=
  cruList.any (fun c =>
    let x := s.crucible c
    x.hbm.poison.any (fun (u, _) => (x.riser.unitAt (u * 32)).isSome))

/-- The page engine reads every tracked unit, as accesses of the management core: grants and poison count as for any read (R318, R320). -/
def Crucible.readUnits (x : Crucible) : Crucible :=
  (List.range x.riser.unitTotal).foldl (fun (y : Crucible) u =>
    match y.riser.place u with
    | some p => (y.hbmReadAs .mgmt none p.off p.len none).2
    | none => y) x

/-- Crucible c's lists come into crucible 0's HBM, below the mailboxes: where is free (log 168). -/
def State.putCrcList (s : State) (c : Cru) : State :=
  let bs := (s.crucible c).unitCrcs 0 (s.crucible c).riser.unitTotal
  if c = 0 ∨ bs.isEmpty then s
  else
    let (i, s) := s.fresh
    s.atCrucible 0 (fun x => x.hbmStoreAs .mgmt none (Config.freeNat i % (mailbox - bs.length)) bs none)

/-- The page engines' pass over both copies of the module. -/
def State.pageEngines (s : State) : State :=
  let s := cruList.foldl (fun s c => s.atCrucible c Crucible.readUnits) s
  cruList.foldl State.putCrcList s

/-- Position of a module in the active list, with its stage and member (R286). -/
structure Role where
  replica : Nat
  stage : Nat
  member : Nat
  deriving DecidableEq, Repr

def Placement.role (p : Placement) (i : Nat) : Role := ⟨i / (p.stages * p.group), i % (p.stages * p.group) / p.group, i % p.group⟩

/-- The twin of a module by the health map. -/
def State.twinOf (s : State) (m : Nat) : Nat :=
  match s.tundish.health with
  | some h => ((h.entries.find? (fun e => e.module_ == m)).map HealthEntry.twin).getD 0xFFFF
  | none => 0xFFFF

/-- The holders of the shard of a stage and member: each owner with slot 2 × replica, each owner's twin with the next (R480). -/
def State.holders (s : State) (p : Placement) (r : Role) : List (Nat × Nat) :=
  ((List.range p.replicas).map (fun k =>
    match p.active[(k * p.stages + r.stage) * p.group + r.member]? with
    | some m => [(m, 2 * k), (s.twinOf m, 2 * k + 1)]
    | none => [])).flatten

/-- The two shards this module holds: its own and its twin's, each with its digest. -/
def State.shards (s : State) (p : Placement) : List (Role × List Byte) :=
  let res := (s.crucible 0).res
  let f := fun (m : Nat) (d : List Byte) => if m ∈ p.active then [(p.role (p.active.idxOf m), d)] else []
  f s.job.self.toNat res.digestOwn ++ f (s.twinOf s.job.self.toNat) res.digestTwin

/-- A digest record (R480). -/
def digestRecord (step : W48) (r : Role) (from_ : Nat) (digest : List Byte) : List Byte :=
  leBytes 8 step.toNat ++ leBytes 2 r.stage ++ leBytes 2 r.member ++ leBytes 2 from_ ++ List.replicate 18 0 ++ digest

/-- The mailbox slot of a holder at a receiver: the slots of the receiver's twin's shard follow those of its own (log 27). -/
def slotAt (p : Placement) (r : Role) (dest slot : Nat) : Nat :=
  let own := p.role (p.active.idxOf dest)
  if dest ∈ p.active ∧ own.stage = r.stage ∧ own.member = r.member then slot else slot + 2 * p.replicas

/-- A WRITE of the management core of crucible 0. -/
def Crucible.mgmtWrite (x : Crucible) (m : Nat) (off : Nat) (bs : List Byte) : Crucible :=
  let a : W64 := BitVec.ofNat 64 (m * 2 ^ 52 + off)
  let q := Pkt.request ⟨0, 0, 0⟩ 0x01 false m 0 (x.modEntry m) 0 a .none bs
  x.onXport (fun t => { t with nextNum := t.nextNum + 1, pkts := t.pkts ++ [{ q with num := t.nextNum, owner := none }] })

/-- The digest records this module sends for one shard. -/
def State.sendDigests (s : State) (p : Placement) (r : Role) (d : List Byte) : State :=
  let self := s.job.self.toNat
  let hs := s.holders p r
  match hs.find? (fun (m, _) => m == self) with
  | none => s
  | some (_, slot) =>
    hs.foldl (fun s (m, _) =>
      if m = self then s
      else s.atCrucible 0 (fun x => x.mgmtWrite m (mailbox + 64 * slotAt p r m slot) (digestRecord s.steps.oldest r self d))) s

/-- SILLAGE_DIGEST_DONE: phase 3 is over and both digests are formed; records go to the copy groups. -/
def execSillageDigestDone (s : State) : Host.Outcome State Fault Refusal :=
  let t := s.steps
  .next (
    match s.tundish.placement with
    | none => s
    | some p =>
      if t.mode = .running ∧ t.barrier = none ∧ t.phase = .update ∧ s.sillageDue ∧ (s.crucible 0).live then
        let own := sha256 (s.shardCrcs false)
        let twin := sha256 (s.shardCrcs true)
        let bad := s.shardPoisoned
        let s := s.pageEngines
        let s := s.atCrucible 0 (fun x => { x with res := { x.res with digestOwn := own, digestTwin := twin,
                                                                       sillageStep := t.oldest, sillageResult := 0 } })
        let s := { s with steps := { t with phase := .check, sillage := if bad then .done else .comparing } }
        if bad then s.reportFaulty t.oldest.toNat false
        else (s.shards p).foldl (fun s (r, d) => s.sendDigests p r d) s
      else s)

/-- What a comparison finds: the first disagreeing peer and the first missing one. -/
def State.compareShards (s : State) (p : Placement) : Option Nat × Option Nat :=
  let self := s.job.self.toNat
  let mem := (s.crucible 0).hbm.mem
  let peers := ((s.shards p).map (fun (r, d) =>
    ((s.holders p r).filter (fun (m, _) => m ≠ self)).map (fun (m, slot) =>
      let bs := Memory.readBytes mem (mailbox + 64 * slotAt p r self slot) 64
      let here := bs.take 14 == (digestRecord s.steps.oldest r m []).take 14
      (m, here, bs.drop 32 == d)))).flatten
  ((peers.find? (fun (_, here, same) => here && !same)).map (·.1), (peers.find? (fun (_, here, _) => !here)).map (·.1))

/-- A sillage comparison ends: 1 agreed, 2 mismatch, 3 missing. A failure is recorded and reported, with HOLD from GEN 1 on
(R499). -/
def State.endSillage (s : State) (result : BitVec 2) (peer : Nat) : State :=
  let t := s.steps
  let s := { s with steps := { t with sillage := .done, sillageAgain := result != 1 } }
  let s := s.atCrucible 0 (fun x => { x with res := { x.res with sillageResult := result } })
  if result = 1 then s
  else
    let r : FaultRec := ⟨t.oldest, if result = 2 then 7 else 8, 15, 0, 0, BitVec.ofNat 32 peer⟩
    (s.atCrucible 0 (fun x => { x with res := x.res.append r })).reportFaulty t.oldest.toNat (decide (1 ≤ t.gen.toNat))

/-- SILLAGE_COMPARE: every record has arrived. -/
def execSillageCompare (s : State) : Host.Outcome State Fault Refusal :=
  .next (
    match s.tundish.placement, s.steps.sillage with
    | some p, .comparing =>
      match s.compareShards p with
      | (_, some _) => s
      | (some m, none) => s.endSillage 2 m
      | (none, none) => s.endSillage 1 0
    | _, _ => s)

/-- SILLAGE_MISSING: a record has not arrived within 1 s. -/
def execSillageMissing (s : State) : Host.Outcome State Fault Refusal :=
  .next (
    match s.tundish.placement, s.steps.sillage with
    | some p, .comparing =>
      match s.compareShards p with
      | (_, some m) => s.endSillage 3 m
      | _ => s
    | _, _ => s)

/-! ### Retirement (R472) -/

/-- Physical core p is bound to no logical core and not retired. -/
def Crucible.spareFree (x : Crucible) (p : Nat) : Bool :=
  !Store.get retiredDefault x.core.retired p && (List.range 500).all (fun l => x.physIx l != p)

/-- A logical core is bound to a physical core it did not hold (R103). -/
def Crucible.bindCore (x : Crucible) (l p : Nat) : Crucible :=
  let r := Store.set remapDefault x.core.remap.live l (BitVec.ofNat 10 p)
  let x := { x with core := { x.core with remap := { x.core.remap with live := r, shadow := r } } }
  (x.modLog l (fun g => g.rebound x.num.regs.live)).losePkts l

/-- 528 bits as 66 bytes. -/
def bitsBytes (f : Nat → Bool) : List Byte :=
  (List.range 66).map (fun i => BitVec.ofNat 8 ((List.range 8).foldl (fun v j => if f (8 * i + j) then v + 2 ^ j else v) 0))

/-- The CORE_MAP payload (R602). -/
def Crucible.coreMap (x : Crucible) : List Byte :=
  bitsBytes (Store.get retiredDefault x.core.retired) ++ [0, 0] ++ ((List.range 500).map (fun l => leBytes 2 (x.physIx l))).flatten

/-- A crucible leaves service (R27, R472). -/
def State.leaveService (s : State) (c : Cru) : State :=
  (s.atCrucible c (fun x => { x.haltAll with service := .outOfService })).crucibleEvent c 2

/-- CORE_RETIREMENT: the core has stopped; it is retired, recorded, and a spare is bound in its place. While the port die is away the
record cannot be durable, and the retirement waits (R38, R608). With a record that cannot be committed the core stays Halted, no spare
is bound, and the crucible leaves service; its event names no spare (log 156). -/
def execCoreRetirement (k : CoreId) (s : State) : Host.Outcome State Fault Refusal :=
  let l := k.core.val
  let x := s.crucible k.cru
  let g := x.log l
  .next (
    match g.retireDue with
    | none => s
    | some f =>
      if x.live && (g.mode == .halted || g.mode == .faulted) && (x.phys l).queuesEmpty && !s.recordsAway then
        let s := s.reportFaulty (x.phys l).step.toNat false
        let x := s.crucible k.cru
        let old := x.physIx l
        let x := { x with core := { x.core with retired := Store.set retiredDefault x.core.retired old true } }
        let spare := (List.range 528).find? x.spareFree
        let y := match spare with
          | some p => (x.bindCore l p).modLog l (fun g => { g with reload := true })
          | none => x.modLog l (fun g => { g with retireDue := none })
        match s.store.commitNow s.power.aon 0x03 k.cru.val y.coreMap with
        | (_, false) =>
          let x := x.modLog l (fun g => { g with mode := .halted, retireDue := none })
          ((s.putCrucible k.cru x).cruEvent 0xC003 k.cru (coreFaultBody l old f 0xFFFF)).leaveService k.cru
        | (t, true) =>
          let s := ({ s with store := t }.putCrucible k.cru y).cruEvent 0xC003 k.cru (coreFaultBody l old f (spare.getD 0xFFFF))
          if spare.isSome then s else s.leaveService k.cru
      else s)

end Sys2Proof.Machine
end

