-- ==== Sys2Proof/Machine/Ethernet.lean ====
section
/-!
DEFINITION. The host ports below the commands (R436–R441, R443, R449), and the loss of parts of the port die (R37).
-/
namespace Sys2Proof.Machine

/-! ### Own addresses (R436, R437) -/

/-- MAC address of half h. -/
def State.mac (s : State) (h : HalfIx) : Nat := leField s.boot.otp 0x48 6 + h.val

/-- The link-local address, by EUI-64. -/
def linkLocal (mac : Nat) : W128 :=
  let m := mac % 2 ^ 48
  BitVec.ofNat 128 (0xFE80 * 2 ^ 112 + (m / 2 ^ 24 ^^^ 0x020000) * 2 ^ 40 + 0xFFFE * 2 ^ 24 + m % 2 ^ 24)

/-- An IPv6 address the half answers on. -/
def State.ownV6 (s : State) (h : HalfIx) (a : W128) : Bool :=
  let n := (s.halfAt h).net
  n.ipv6 == some a || (n.ipv4.isNone && n.ipv6.isNone && a == linkLocal (s.mac h))

def State.ownV4 (s : State) (h : HalfIx) (a : W32) : Bool := (s.halfAt h).net.ipv4 == some a

/-- The half runs its protocols: frames reach it, and firmware or the recovery ROM serves it. -/
def State.answers (s : State) (h : HalfIx) : Bool := s.hears h && s.engineUp h

/-- A frame arrives; `own` says that it is answered, with `o`. -/
def State.frame (s : State) (f : Frame) (own : Bool) (o : EthMsg) : State :=
  s.onFrames f 1 (fun s => if own && s.answers f.half then s.sendEth f.half o else s)

/-- ARP. -/
def execArp (f : Frame) (target : W32) (s : State) : Host.Outcome State Fault Refusal :=
  .next (s.frame f (s.ownV4 f.half target) (.arpReply target))

/-- NEIGHBOUR_DISCOVERY. -/
def execNeighbourDiscovery (f : Frame) (target : W128) (s : State) : Host.Outcome State Fault Refusal :=
  .next (s.frame f (s.ownV6 f.half target) (.neighbourAdvert target))

/-- ICMP_ECHO, of family 4 or 6. -/
def execIcmpEcho (f : Frame) (family : Nat) (target : W128) (data : List Byte) (s : State) : Host.Outcome State Fault Refusal :=
  .next (s.frame f ((family == 4 && s.ownV4 f.half (target.setWidth 32)) || (family == 6 && s.ownV6 f.half target)) (.echoReply data))

/-- UNSUPPORTED_FRAME: discarded and counted. -/
def execUnsupportedFrame (h : HalfIx) (s : State) : Host.Outcome State Fault Refusal :=
  .next (if s.hears h then s.modHalf h (fun v => (v.ethBump 0).ethBump 2) else s)

/-- PFC_PAUSE: the partner pauses or releases a priority, which counts only when the priority is enabled; what waited for a released one
leaves (R438). -/
def execPfcPause (h : HalfIx) (priority : Fin 8) (pause : Bool) (s : State) : Host.Outcome State Fault Refusal :=
  .next (
    if s.hears h then
      (s.modHalf h (fun v =>
        let v := (v.ethBump 0).ethBump 3
        if v.pfcEnable.getLsbD priority.val then
          { v with paused := if pause then v.paused ||| ((1 : Byte) <<< priority.val) else v.paused &&& ~~~((1 : Byte) <<< priority.val) }
        else v)).releaseHalf h
    else s)

/-! ### Connections (R440, R441) -/

/-- An address lies under a prefix. -/
def underPrefix (family : Nat) (addr : W128) (p : Nat × Nat × W128) : Bool :=
  let width := if family = 4 then 32 else 128
  p.1 == family && addr.toNat / 2 ^ (width - p.2.1) == p.2.2.toNat / 2 ^ (width - p.2.1)

/-- Command queue pairs of a half. -/
def Half.commandQps (h : Half) : Nat := (h.qps.filter (fun q => q.kind == .command)).length

/-- REJ: under R441, or for a path MTU that R440 does not name. -/
def Half.refuses (h : Half) (r : CmRequest) : Bool :=
  !pathMtus.contains r.mtu || (r.kind != 1 && r.kind != 2) || decide (512 ≤ h.qps.length) || (r.kind == 1 && decide (16 ≤ h.commandQps)) ||
    (r.kind == 1 && !h.net.prefixes.isEmpty && !h.net.prefixes.any (underPrefix r.family r.addr))

/-- CM_REQ: a queue pair is established, or refused. -/
def execCmReq (f : Frame) (r : CmRequest) (s : State) : Host.Outcome State Fault Refusal :=
  let h := f.half
  .next (s.onFrames f 1 (fun s =>
    if s.answers h then
      let v := s.halfAt h
      if v.refuses r then s.sendEth h .cmRej
      else
        let (i, s) := s.fresh
        let (v, n) := v.addQp i (if r.kind = 1 then .command else .data) r.retry.val r.rnrRetry.val r.mtu
        (s.putHalf h v).sendEth h (.cmRep n)
    else s))

/-- CNP: the rate is halved, at most once in 50 µs (R439). -/
def execCnp (f : Frame) (qp : Nat) (s : State) : Host.Outcome State Fault Refusal :=
  .next (s.onQp f qp 0 (fun q s =>
    let now := s.power.aon
    let free := match q.cutAt with
      | some t => decide (1250 ≤ now.toNat - t.toNat)
      | none => true
    s.modHalf f.half (fun v =>
      let v := v.ethBump 4
      if free then v.modQp qp (fun q => { q with rate := max (q.rate / 2) 1000, cutAt := some now }) else v)))

/-- CNP_RATE_INCREASE: 55 µs have passed with no CNP. -/
def execCnpRateIncrease (h : HalfIx) (qp : Nat) (s : State) : Host.Outcome State Fault Refusal :=
  .next (if s.qpWorks h qp && s.hears h then s.modHalf h (fun v => v.modQp qp (fun q => { q with rate := min (q.rate + 5000) 400000 }))
         else s)

/-! ### Operations the module issued (R440, R449, R459) -/

/-- NVMe commands in flight that satisfy `lost` end in error, and the transfer with them. -/
def State.loseCmds (s : State) (lost : NvmeCmd → Bool) : State :=
  let s := match s.ingot with
    | some g => if g.cmds.any lost then { s with ingot := some { g with cmds := g.cmds.filter (fun c => !lost c) } }.failIngot 0xFF 0 else s
    | none => s
  match s.restore with
  | some r => if r.cmds.any lost then { s with restore := some { r with cmds := r.cmds.filter (fun c => !lost c) } }.failRestore 0xFF 0 else s
  | none => s

/-- The running transfer to or from storage uses the target. -/
def State.usesTarget (s : State) (t : Nat) : Bool :=
  (match s.ingot with
   | some g => g.manifestTarget == t || g.extents.any (fun e => e.target == t)
   | none => false) ||
  (match s.restore with
   | some r => r.slots.any (fun l => l.target == t) || r.extents.any (fun e => e.2.target == t)
   | none => false)

/-- A queue pair enters the error state: its commands in flight end in error, and with it a transfer that uses its target (R459). -/
def State.qpError (s : State) (h : HalfIx) (n : Nat) : State :=
  match (s.halfAt h).qp n with
  | none => s
  | some q =>
    let s := s.breakQp h n
    match q.kind with
    | .storage t k =>
      let s := s.loseCmds (fun c => c.half == h && c.target == t && c.queue == k)
      if s.usesTarget t then (s.failIngot 0xFF 0).failRestore 0xFF 0 else s
    | _ => s

/-- ROCE_ACK: an operation of the module is acknowledged, meets an RNR NAK, or is refused. -/
def execRoceAck (f : Frame) (qp : Nat) (kind : AckKind) (s : State) : Host.Outcome State Fault Refusal :=
  let h := f.half
  .next (s.onQp f qp 0 (fun q s =>
    match kind with
    | .ack => s.modHalf h (fun v => v.modQp qp (fun q => { q with retries := 0, rnrRetries := 0 }))
    | .nak => s.qpError h qp
    | .rnrNak =>
      if q.rnrLimit ≠ 7 ∧ q.rnrLimit ≤ q.rnrRetries then s.qpError h qp
      else
        (s.sendEth h (.roceResend qp)).modHalf h (fun v =>
          let v := v.modQp qp (fun q => { q with rnrRetries := q.rnrRetries + 1 })
          if v.eventQp = some qp then { v with eventBlocked := true } else v)))

/-- ROCE_ACK_TIMEOUT: the operation is sent again, until its retries run out. -/
def execRoceAckTimeout (h : HalfIx) (qp : Nat) (s : State) : Host.Outcome State Fault Refusal :=
  .next (
    match (s.halfAt h).qp qp with
    | none => s
    | some q =>
      if !s.engineUp h || q.error then s
      else if q.retryLimit ≤ q.retries then s.qpError h qp
      else (s.sendEth h (.roceResend qp)).modHalf h (fun v => v.modQp qp (fun q => { q with retries := q.retries + 1 })))

/-- EVENT_QUEUE_SPACE: the event queue pair takes `space` events more. -/
def execEventQueueSpace (h : HalfIx) (space : Nat) (s : State) : Host.Outcome State Fault Refusal :=
  .next (
    let v := s.halfAt h
    if v.eventBlocked && s.answers h then
      (s.putHalf h { v with eventBlocked := decide (space ≤ v.eventQueue.length) }).eventSpace h space
    else s)

/-! ### Links and failures (R37, R443, R461) -/

/-- ETH_LINK_UP: PCS locked and FEC aligned, once the host ports have been started. -/
def execEthLinkUp (h : HalfIx) (s : State) : Host.Outcome State Fault Refusal :=
  .next (if s.engineUp h then s.modHalf h (fun v => { v with linkUp := true }) else s)

/-- ETH_LINK_DOWN. -/
def execEthLinkDown (h : HalfIx) (s : State) : Host.Outcome State Fault Refusal :=
  .next (s.modHalf h (fun v => { v with linkUp := false }))

/-- PORT_DIE_HALF_FAILURE: the half's queue pairs are lost, and with them a transfer to storage (R532). -/
def execPortDieHalfFailure (h : HalfIx) (s : State) : Host.Outcome State Fault Refusal :=
  .next (
    if (s.halfAt h).alive then
      let s := s.modHalf h (fun v => { v with alive := false, linkUp := false, qps := [], eventQp := none, eventQueue := [], waits := [] })
      let s := { s with held := s.held.filter (fun i => (hostMsg i).all (fun (m : CmdMsg) => m.half != h)) }
      (s.loseCmds (fun c => c.half == h)).failTransfers
    else s)

/-- ALWAYS_ON_DOMAIN_FAILURE: no persistent writes, no signing, no host commands; the crucibles finish the current step. -/
def execAlwaysOnDomainFailure (s : State) : Host.Outcome State Fault Refusal :=
  .next { s with alwaysOn := false, steps := s.steps.stop, store := { s.store with stopped := true } }

end Sys2Proof.Machine
end

