-- ==== Sys2Proof/Machine/Fabric.lean ====
section
/-!
DEFINITION. The commands of the transport layer: injection, resends, arriving packets (R398, R403, R405, R410, R412, R414, R415, R425).
-/
namespace Sys2Proof.Machine

/-- PACKET_INJECT: request, resend or response number `i` of crucible c leaves the transport layer for port `n`. -/
def execPacketInject (c : Cru) (i : Nat) (n : PortIx) (s : State) : Host.Outcome State Fault Refusal :=
  let x := s.crucible c
  .next (
    if x.live then
      match x.findPkt i with
      | some q =>
        if q.sent then
          match q.due with
          | [] => s
          | m :: _ => if x.resendPort c q m = some n then s.resendOne c i m else s
        else s.injectNew c n q
      | none =>
        match x.xport.rsps.find? (fun w => w.num == i) with
        | some w => s.injectRsp c n w
        | none => s
    else s)

/-- The packet at the head of an adaptive queue that waits for credit (R403). -/
def Port.stuck (p : Port) : Option CreditWait :=
  p.waits.find? (fun w =>
    (w.vc == 1 || w.vc == 3 || w.vc == 5) && p.waits.find? (fun v => v.vc == w.vc) == some w &&
      decide (p.creditOf w.vc < w.packet.flitCount))

/-- ESCAPE_TIMEOUT: it moves to the escape channel of its class, with ESCAPE set, at the same port. -/
def execEscapeTimeout (c : Cru) (n : PortIx) (s : State) : Host.Outcome State Fault Refusal :=
  let x := s.crucible c
  let p := x.port n.val
  .next (
    if x.live && p.mode == .up then
      match p.stuck with
      | some w => (s.putCrucible c (x.putPort n.val { p with waits := p.waits.erase w })).enterWait c n
          { w with vc := w.vc + 1, packet := { w.packet with escape := true } }
      | none => s
    else s)

/-- RESEND_TIMEOUT: TIMEOUT has passed with no response. The packet is resent, by port `n` first, or given up after RETRIES; a
packet that never found a port, a response among them, is given up (R405, R412). -/
def execResendTimeout (c : Cru) (i : Nat) (n : PortIx) (s : State) : Host.Outcome State Fault Refusal :=
  let x := s.crucible c
  .next (
    if x.live then
      match x.findPkt i with
      | none =>
        match x.xport.rsps.find? (fun w => w.num == i) with
        | some w => if x.choosePort c [w.dest] w.destCru 3 none = none then s.putCrucible c (x.abandonRsp i) else s
        | none => s
      | some q =>
        if !q.sent then
          if x.choosePort c q.awaited q.destCru q.vc none = none then s.putCrucible c (x.timeoutPkt i) else s
        else if q.answered then s
        else if q.expiries ≥ q.retries then s.putCrucible c (x.timeoutPkt i)
        else
          let first := q.awaited.findSome? (fun m => x.resendPort c q m)
          if first = none ∨ first = some n then
            let s := s.putCrucible c (x.modPkt i (fun q => { q with expiries := q.expiries + 1, due := q.awaited }))
            q.awaited.foldl (fun s m => s.resendOne c i m) s
          else s
    else s)

/-- RESEND_QUIET_END: 100 µs have passed since the last resend; an answered packet is resolved (R410). -/
def execResendQuietEnd (c : Cru) (i : Nat) (s : State) : Host.Outcome State Fault Refusal :=
  let x := s.crucible c
  .next (
    if x.live then
      match x.findPkt i with
      | none => s
      | some q =>
        if q.resent then
          s.putCrucible c (if q.answered then x.dropPkt i else x.modPkt i (fun q => { q with quiet := true }))
        else s
    else s)

/-- A request packet that arrives. -/
def State.arriveRequest (s : State) (kind : Byte) (c : Cru) (n : PortIx) (p : Packet) (mismatch : Bool) : State :=
  match s.takesIn kind c n p with
  | (s, true) => s.takeRequest c n p mismatch
  | (s, false) => s

def execPacketWrite (c : Cru) (n : PortIx) (run : PacketRun) (s : State) : Host.Outcome State Fault Refusal :=
  .next (s.arriveRequest 0x01 c n run.packet run.mismatch)

def execPacketRead (c : Cru) (n : PortIx) (run : PacketRun) (s : State) : Host.Outcome State Fault Refusal :=
  .next (s.arriveRequest 0x02 c n run.packet run.mismatch)

def execTallySignal (c : Cru) (n : PortIx) (p : Packet) (s : State) : Host.Outcome State Fault Refusal :=
  .next (s.arriveRequest 0x03 c n p false)

def execTallyTake (c : Cru) (n : PortIx) (p : Packet) (s : State) : Host.Outcome State Fault Refusal :=
  .next (s.arriveRequest 0x04 c n p false)

/-- A response packet that arrives for crucible r. -/
def State.arriveResponse (s : State) (kind : Byte) (c : Cru) (n : PortIx) (p : Packet) (r : Cru) : State :=
  match s.takesAt kind c n r p with
  | (s, true) => s.atCrucible r (fun x => x.takeResponse r p)
  | (s, false) => s

def execResponse (c : Cru) (n : PortIx) (p : Packet) (r : Cru) (s : State) : Host.Outcome State Fault Refusal :=
  .next (s.arriveResponse 0x10 c n p r)

def execReadData (c : Cru) (n : PortIx) (p : Packet) (r : Cru) (s : State) : Host.Outcome State Fault Refusal :=
  .next (s.arriveResponse 0x11 c n p r)

/-- URGENT_ACK: the message it names is acknowledged. -/
def execUrgentAck (c : Cru) (n : PortIx) (p : Packet) (s : State) : Host.Outcome State Fault Refusal :=
  .next (
    match s.takesIn 0x21 c n p with
    | (s, false) => s
    | (s, true) =>
      let t := packetTarget p c
      match (s.crucible t).xport.urgents.find? (fun u =>
          u.sent && u.type.setWidth 32 == p.aux && u.psn.setWidth 32 == p.psn && u.dest == p.src.toNat &&
            u.destCru.val == p.srcCru.toNat) with
      | some u => s.endUrgent t u.num
      | none => s)

/-- URGENT_RESEND: 5 µs without an acknowledgement. The ninth expiry drops the message. -/
def execUrgentResend (c : Cru) (i : Nat) (s : State) : Host.Outcome State Fault Refusal :=
  let x := s.crucible c
  .next (
    if x.live then
      match x.xport.urgents.find? (fun u => u.num == i && u.sent) with
      | none => s
      | some u =>
        if u.resends < 8 then
          let us := x.xport.urgents.map (fun v => if v.num = i then { v with resends := v.resends + 1 } else v)
          (s.putCrucible c (x.onXport (fun t => { t with urgents := us }))).emitUrgent c u
        else s.endUrgent c i
    else s)

/-- A plane bit of a module, changed on the news of its port (R406). -/
def Crucible.setPlane (x : Crucible) (m plane : Nat) (up : Bool) : Crucible :=
  let b : BitVec 52 := (1 : BitVec 52) <<< plane
  x.onXport (fun t =>
    let old := Store.get planeDefault t.plane m
    { t with plane := Store.set planeDefault t.plane m (if up then old ||| b else old &&& ~~~b) })

/-- The module and plane a port notice names. -/
def noticeFields (p : Packet) : Nat × Nat := (leNat (p.payload.take 2), leNat ((p.payload.drop 2).take 1))

def State.portNotice (s : State) (type : Byte) (up : Bool) (c : Cru) (n : PortIx) (p : Packet) : State :=
  match s.takeUrgent type c n p with
  | (s, true) => s.atCrucible (packetTarget p c) (fun x => x.setPlane (noticeFields p).1 (noticeFields p).2 up)
  | (s, false) => s

def execPortLossNotice (c : Cru) (n : PortIx) (p : Packet) (s : State) : Host.Outcome State Fault Refusal :=
  .next (s.portNotice 1 false c n p)

def execPortUpNotice (c : Cru) (n : PortIx) (p : Packet) (s : State) : Host.Outcome State Fault Refusal :=
  .next (s.portNotice 2 true c n p)

end Sys2Proof.Machine
end

