-- ==== Sys2Proof/Machine/Hang.lean ====
section
/-!
DEFINITION. The commands of the watchdog (R542–R552).
-/
namespace Sys2Proof.Machine

/-- The unit is monitored (R542, R543). -/
def Crucible.monitored (x : Crucible) : StallUnit → Bool
  | .core l => x.hang.win.live.core != 0 && ((x.log l.val).mode == .running || (x.log l.val).mode == .halting)
  | .xfer l => x.hang.win.live.xfer != 0 && !(x.phys l.val).xq.isEmpty
  | .port n => x.hang.win.live.port != 0 && (x.port n.val).mode == .up && !(x.port n.val).waits.isEmpty
  | .mc => x.hang.win.live.mc != 0

/-- PROGRESS_STALL: units whose counters have not changed for their window. From the release of reset to the firmware's first commit
of the window set only the management core is watched, by BOOT_TIMEOUT; nothing is in Banked, nor in a wake,
which is shorter than any window (R544, R552, R558, R581). -/
def execProgressStall (c : Cru) (units : List StallUnit) (s : State) : Host.Outcome State Fault Refusal :=
  let x := s.crucible c
  .next (
    if x.live && (s.power.mode == .on || s.power.mode == .enteringBanked) && !x.hang.booting && !units.isEmpty && units.all x.monitored then s.declareHang c 1 units
    else s)

/-- HANG_RECORD_COMPLETE: the record stands in its slot; the host is told, and the crucible reset. -/
def execHangRecordComplete (c : Cru) (s : State) : Host.Outcome State Fault Refusal :=
  let x := s.crucible c
  .next (
    match x.hang.run with
    | none => s
    | some r =>
      let off := hangSlot x.hang.seq
      let bs := x.hangRecord c r s.steps.oldest
      let x := x.hbmStore .mgmt off bs none
      let s := s.putCrucible c { x with hang := { x.hang with lastComplete := true } }
      (s.cruEvent 0xC005 c (List.replicate 8 0 ++ leBytes 8 off)).hangReset c)

/-- HANG_RECORD_TIMEOUT: the record is abandoned after 10 ms. How much of it was written is not stated: free values, but for COMPLETE,
which is 0. -/
def execHangRecordTimeout (c : Cru) (s : State) : Host.Outcome State Fault Refusal :=
  let x := s.crucible c
  .next (
    match x.hang.run with
    | none => s
    | some _ =>
      let (i, s) := s.fresh
      let bs := padTo hangLength (Config.freeBytes i)
      let bs := listSet bs 26 ((bs.getD 26 0) &&& 0xFE)
      (s.putCrucible c (x.hbmStore .mgmt (hangSlot x.hang.seq) bs none)).hangReset c)

/-- CRUCIBLE_RETURN: the crucible, its firmware running, has passed its stages and serves again. -/
def execCrucibleReturn (c : Cru) (s : State) : Host.Outcome State Fault Refusal :=
  .next (if (s.crucible c).returning then s.crucibleBack c else s)

/-- BOOT_TIMEOUT: 1,000 ms from the release of reset without a commit of the window set. -/
def execBootTimeout (c : Cru) (s : State) : Host.Outcome State Fault Refusal :=
  let x := s.crucible c
  .next (
    if x.hang.booting && !x.frozen && (x.service == .resetting || x.service == .inService) then s.declareHang c 3 [.mc]
    else s)

end Sys2Proof.Machine
end

