-- ==== Sys2Proof/Machine/Hbm.lean ====
section
/-!
DEFINITION. The commands of the HBM controllers and the regulators' window (R308, R317–R324, R328, R329, R650).
-/
namespace Sys2Proof.Machine

/-! ### One burst -/

/-- 1 ms in always-on ticks (R575). -/
def msTicks : Nat := 25000

/-- Position `symbol` of the pseudo-channel that holds a unit. -/
def symbolPlace (unit : Nat) (symbol : Fin 36) : Nat := 36 * (hbmChannel (BitVec.ofNat 36 (unit * 32))).toNat + symbol.val

/-- A symbol position is corrected: the 16th time within 1 ms makes its lane an erasure (R317). -/
def Hbm.noteFix (h : Hbm) (now : W64) (place : Nat) : Hbm :=
  if Store.get falseStore h.erased place then h
  else
    let recent : List Correction := h.fixes.filter (fun f => decide (now.toNat ≤ f.tick.toNat + msTicks)) ++ [⟨place, now⟩]
    if (recent.filter (fun f => f.place == place)).length ≥ 16 then
      { h with erased := Store.set falseStore h.erased place true, fixes := recent.filter (fun f => f.place != place) }
    else { h with fixes := recent }

/-- What the decoder makes of a burst: corrected, uncorrectable, or taken for other data than was written. -/
inductive Decoded where
  | clean
  | corrected
  | uncorrectable
  | missed (data : List Byte)
  deriving DecidableEq, Repr

/-- The code of R317. Without an erased symbol it corrects one wrong symbol and detects two or three; with one erased it corrects that
one and one more, and detects two more. What it makes of more is not stated (log 150). -/
def Hbm.decode (h : Hbm) (now : W64) (unit : Nat) (errors : BurstErrors) : Decoded :=
  let lost := fun (s : Fin 36) => Store.get falseStore h.erased (symbolPlace unit s)
  let erasures := ((List.finRange 36).filter lost).length
  let unknown := (errors.eraseDups.filter (fun s => !lost s)).length
  if errors.isEmpty then .clean
  else if erasures + unknown ≤ 1 ∨ (erasures = 1 ∧ unknown ≤ 1) then .corrected
  else if (erasures = 0 ∧ unknown ≤ 3) ∨ (erasures = 1 ∧ unknown ≤ 2) then .uncorrectable
  else match Config.missed unit now.toNat errors.eraseDups.length with
    | none => .uncorrectable
    | some bs => .missed bs

/-- What a read of one burst does (R318): a unit already poisoned is uncorrectable whatever nature adds. -/
def Crucible.burst (x : Crucible) (unit : Nat) (errors : BurstErrors) (step : Option Nat) : Crucible :=
  let h := x.hbm
  if h.poisoned unit then { x with hbm := h.countUe unit }.markUnclean step
  else
    let fixed := (errors.eraseDups.map (symbolPlace unit)).foldl (fun h p => h.noteFix x.pwr.aon p) (h.countCe (hbmStack (unit * 32)))
    match h.decode x.pwr.aon unit errors with
    | .clean => x
    | .corrected => { x with hbm := fixed }
    | .uncorrectable => { x with hbm := { h.countUe unit with poison := Store.set falseStore h.poison unit true } }.markUnclean step
    | .missed bs => { x with hbm := { fixed with mem := Memory.writeBytes h.mem (unit * 32) ((bs ++ List.replicate 32 0).take 32) } }

/-! ### Accesses under the regulators (R322, R323) -/

/-- The data of a read, and the mark that it is poisoned (R318). -/
structure HbmAnswer where
  src : HbmSource
  off : Nat
  data : List Byte
  poisoned : Bool
  deriving DecidableEq, Repr

/-- An access is granted: it adds to its partition's count at once and is done. -/
def Crucible.serve (x : Crucible) (a : HbmAccess) : List HbmAnswer × Crucible :=
  let q := (hbmChannel (BitVec.ofNat 36 a.off)).toNat
  let h := x.hbm.grantAs a.src none [a.off]
  let x := { x with hbm := { h with lastGrant := Store.set lastGrantDefault h.lastGrant q (BitVec.ofNat 4 (h.partition a.src a.off)) } }
  match a.act with
  | .read e =>
    let x := x.burst (a.off / 32) e (x.sourceStep a.src)
    ([⟨a.src, a.off, Memory.readBytes x.hbm.mem a.off 32, x.hbm.poisoned (a.off / 32)⟩], x)
  | .merge => ([], x)
  | .write at_ bs e =>
    let x := (partUnits at_ bs.length).foldl (fun x u => x.burst u e (x.sourceStep a.src)) (x.gates at_ bs.length)
    ([], { x with hbm := x.hbm.put at_ bs })

/-- An access arrives: it is granted, or waits if its partition is held. -/
def Crucible.offer (x : Crucible) (a : HbmAccess) : List HbmAnswer × Crucible :=
  if x.hbm.isHeld a.src a.off then ([], { x with hbm := { x.hbm with waiting := x.hbm.waiting ++ [a] } }) else x.serve a

/-- The place of an access in the order of grants at its scheduler: its class, then the round robin after the partition last granted. -/
def Hbm.rank (h : Hbm) (used : Store Nat) (q : Nat) (a : HbmAccess) : Nat :=
  let p := h.partition a.src a.off
  h.classOf used p * 16 + (p + 15 - (Store.get lastGrantDefault h.lastGrant q).toNat) % 16

/-- The waiting access that scheduler q grants in a cycle, by its index, for the counts at the start of the cycle; none if all are held. -/
def Hbm.pick (h : Hbm) (q : Nat) : Option Nat :=
  (h.waiting.zipIdx.foldl (fun (best : Option (Nat × Nat)) e =>
    let r := h.rank h.used q e.1
    if (hbmChannel (BitVec.ofNat 36 e.1.off)).toNat = q ∧ r < 32 ∧ best.all (fun b => r < b.1) then some (r, e.2)
    else best) none).map Prod.snd

/-- The schedulers' cycles, each granting at most one access, until every access that waits is held. -/
def Crucible.arbitrate : Nat → Crucible → List HbmAnswer × Crucible
  | 0, x => ([], x)
  | n + 1, x =>
    let w := x.hbm.waiting
    let picks := (w.map (fun a => (hbmChannel (BitVec.ofNat 36 a.off)).toNat)).eraseDups.filterMap x.hbm.pick
    if picks.isEmpty then ([], x)
    else
      let left := (w.zipIdx.filter (fun e => e.2 ∉ picks)).map Prod.fst
      let (out, x) := (picks.filterMap (fun i => w[i]?)).foldl (fun (r : List HbmAnswer × Crucible) a =>
        let (o, x) := r.2.serve a
        (r.1 ++ o, x)) ([], { x with hbm := { x.hbm with waiting := left } })
      let (more, x) := Crucible.arbitrate n x
      (out ++ more, x)

/-- The accesses of a write: 64 bytes each, with one of 32 bytes at each end, and the read of each unit covered in part (R308). -/
def writeParts (src : HbmSource) (a : Nat) (bs : List Byte) (e : BurstErrors) : List HbmAccess :=
  (readAccesses a bs.length).flatMap (fun o =>
    let lo := max a o
    let n := min (a + bs.length) (o + (64 - o % 64)) - lo
    (partUnits lo n).map (fun u => ⟨src, u * 32, .merge⟩) ++ [⟨src, o, .write lo ((bs.drop (lo - a)).take n) e⟩])

/-- The data of reads leave the controller. -/
def State.answerReads (s : State) (c : Cru) (l : List HbmAnswer) : State :=
  { s with out := s.out ++ l.map (fun r => .hbmData c r.src r.off r.data r.poisoned) }

/-- HBM_READ: one burst (R318, R322). -/
def execHbmRead (c : Cru) (src : HbmSource) (off : BitVec 36) (ecc : BurstErrors) (s : State) : Host.Outcome State Fault Refusal :=
  .next (
    let x := s.crucible c
    if x.live then
      let (out, x) := x.offer ⟨src, off.toNat / 32 * 32, .read ecc⟩
      (s.putCrucible c x).answerReads c out
    else s)

/-- HBM_WRITE: a partly covered unit is read, merged and written back; `ecc` is what that read meets (R308, R650). A range that leaves
HBM space or touches a riser unit is no write (R46, R492). -/
def execHbmWrite (c : Cru) (src : HbmSource) (off : BitVec 36) (data : List Byte) (ecc : BurstErrors) (s : State) :
    Host.Outcome State Fault Refusal :=
  .next (s.atCrucible c (fun x =>
    let a := off.toNat
    let n := data.length
    if x.live && decide (a + n ≤ 2 ^ 36) && !x.riser.touchesRiser a n then
      (writeParts src a data ecc).foldl (fun x p => (x.offer p).2) x
    else x))

/-- PATROL_SCRUB: 64 bytes of pseudo-channel q, in increasing local address, outside every partition (R318, R319). -/
def execPatrolScrub (c : Cru) (q : Fin 64) (ecc0 ecc1 : BurstErrors) (s : State) : Host.Outcome State Fault Refusal :=
  .next (s.atCrucible c (fun x =>
    if x.live && decide (x.hbm.scrubInterval ≠ 0) && s.power.mode == .on then
      let at_ := Store.get zeroNat x.hbm.scrubAt q.val
      let u := (hbmOffset (BitVec.ofNat 6 q.val) (BitVec.ofNat 30 at_)).toNat / 32
      let x := (x.burst u ecc0 none).burst (u + 1) ecc1 none
      { x with hbm := { x.hbm with scrubAt := Store.set zeroNat x.hbm.scrubAt q.val ((at_ + 64) % 2 ^ 30) } }
    else x))

/-! ### The accounting window (R322, R324, R328, R329) -/

/-- The rules of R324. -/
def HbmRegs.ok (r : HbmRegs) : Bool :=
  (List.range 16).all (fun p => decide (r.shareOf p ≤ r.ceilOf p)) &&
  decide (((List.range 16).map r.shareOf).foldl (· + ·) 0 ≤ 230) && decide (r.ceilOf 0 ≠ 0)

/-- The rules of R328. -/
def PmapRegs.ok (r : PmapRegs) : Bool :=
  (List.range 16).all (fun i =>
    let e := Store.get pmapDefault r.entries i
    !e.enable || decide (e.base.toNat ≤ e.limit.toNat)) && decide (r.split.toNat ≤ 500)

/-- The commit point of the regulator set. -/
def Hbm.regPoint (h : Hbm) : Hbm :=
  if h.reg.commit then
    if h.reg.shadow.ok then { h with reg := h.reg.accept } else { h with reg := h.reg.reject, status := setFlag h.status 1 }
  else h

/-- The commit point of the partition map. -/
def Hbm.pmapPoint (h : Hbm) : Hbm :=
  if h.pmap.commit then
    if h.pmap.shadow.ok then { h with pmap := h.pmap.accept } else { h with pmap := h.pmap.reject, status := setFlag h.status 3 }
  else h

/-- The counts of the window that ends become USED, and start again at 0. -/
def Hbm.turnWindow (h : Hbm) : Hbm :=
  { h with usedLast := (List.range 16).foldl
             (fun m p => Store.set zero17 m p (BitVec.ofNat 17 (Store.get zeroNat h.used p))) [],
           used := [] }

/-- ACCOUNTING_WINDOW: a window boundary of 1 µs: the counts start again, pending sets are taken, and what waited is granted as far as
the new set allows, the requests of the fabric after the accesses (R415). -/
def execAccountingWindow (c : Cru) (s : State) : Host.Outcome State Fault Refusal :=
  .next (
    let x := s.crucible c
    if x.live then
      let x := { x with hbm := x.hbm.turnWindow.regPoint.pmapPoint }
      let (out, x) := x.arbitrate x.hbm.waiting.length
      ((s.putCrucible c x).answerReads c out).retryRequests c
    else s)

end Sys2Proof.Machine
end

