-- ==== Sys2Proof/Machine/Host.lean ====
section
/-!
DEFINITION. The host commands of R447 as they arrive, and those that were held.
-/
namespace Sys2Proof.Machine

/-- Which rule of R448 and R579 holds a command. -/
def awayRule : Instr → AwayRule
  | .identify _ | .subscribe _ | .wakeCommand _ => .answered
  | .ctrlRead m | .ctrlWrite m => if cmdField m 0 1 = 3 then .answered else .held
  | .bankCommand _ => .bank
  | _ => .held

/-! ### Held commands (R444, R448, R581) -/

/-- A command that was held runs. -/
def State.runHost (s : State) : Instr → State
  | .identify m => s.cmdIdentify m
  | .subscribe m => s.cmdSubscribe m
  | .jobSet m => s.cmdJobSet m
  | .setEpoch m => s.cmdSetEpoch m
  | .setHealthMap m => s.cmdSetHealthMap m
  | .setXrack m => s.cmdSetXrack m
  | .takeOver m => s.cmdTakeOver m
  | .defineWindow m => s.cmdDefineWindow m
  | .deleteWindow m => s.cmdDeleteWindow m
  | .defineRing m => s.cmdDefineRing m
  | .ringCredit m => s.cmdRingCredit m
  | .registerKernel m => s.cmdRegisterKernel m
  | .submitGraph m => s.cmdSubmitGraph m
  | .stepCommand m => s.cmdStep m
  | .stopCommand m => s.cmdStop m
  | .storageTarget m connected blocks formatOk status => s.cmdStorageTarget m connected blocks formatOk status
  | .ingot m => s.cmdIngot m
  | .restore m => s.cmdRestore m
  | .ctrlRead m => s.cmdCtrlRead m
  | .ctrlWrite m => s.cmdCtrlWrite m
  | .updateWrite m => s.cmdUpdateWrite m
  | .activate m => s.cmdActivate m
  | .attest m => s.cmdAttest m
  | .bankCommand m => s.cmdBank m
  | .wakeCommand m => s.cmdWake m
  | .unknownOpcode m opcode => s.cmdUnknown m opcode
  | _ => s

/-- The command may run now: its half's engine works, nothing runs on its queue pair, and the module's state holds it no longer. -/
def State.releasable (s : State) (i : Instr) : Bool :=
  match hostMsg i with
  | none => true
  | some m => s.engineUp m.half && decide (s.qpRunning m.half m.qp = 0) && !s.holds (awayRule i)

/-- The first of the commands held that may run, and those before and after it. One of a queue pair waits for those before it. -/
def State.pickHeld (s : State) (before : List Instr) : List Instr → Option (Instr × List Instr)
  | [] => none
  | i :: rest =>
    let blocked := match hostMsg i with
      | some m => before.any (sameQp m.half m.qp)
      | none => false
    if s.releasable i && !blocked then some (i, before ++ rest) else State.pickHeld s (before ++ [i]) rest

/-- The first command that may run runs. -/
def State.runHeld (s : State) : Option State :=
  match s.pickHeld [] s.held with
  | some (i, rest) => some ({ s with held := rest }.runHost i)
  | none => none

/-- Up to `n` held commands run, as far as they may. -/
def State.runReady (s : State) : Nat → State
  | 0 => s
  | n + 1 =>
    match s.runHeld with
    | some t => State.runReady t n
    | none => s

/-! ### Arrival -/

/-- A command arrives, after those held that may run have run: the engine takes commands in the order it received them (R444). -/
def State.arrive (s : State) (m : CmdMsg) (i : Instr) (run : State → State) : State :=
  (s.runReady s.held.length).arriveCmd m i (awayRule i) run

def execIdentify (m : CmdMsg) (s : State) : Host.Outcome State Fault Refusal := .next (s.arrive m (.identify m) (fun s => s.cmdIdentify m))
def execSubscribe (m : CmdMsg) (s : State) : Host.Outcome State Fault Refusal := .next (s.arrive m (.subscribe m) (fun s => s.cmdSubscribe m))
def execJobSet (m : CmdMsg) (s : State) : Host.Outcome State Fault Refusal := .next (s.arrive m (.jobSet m) (fun s => s.cmdJobSet m))
def execSetEpoch (m : CmdMsg) (s : State) : Host.Outcome State Fault Refusal := .next (s.arrive m (.setEpoch m) (fun s => s.cmdSetEpoch m))
def execSetHealthMap (m : CmdMsg) (s : State) : Host.Outcome State Fault Refusal :=
  .next (s.arrive m (.setHealthMap m) (fun s => s.cmdSetHealthMap m))
def execSetXrack (m : CmdMsg) (s : State) : Host.Outcome State Fault Refusal := .next (s.arrive m (.setXrack m) (fun s => s.cmdSetXrack m))
def execTakeOver (m : CmdMsg) (s : State) : Host.Outcome State Fault Refusal := .next (s.arrive m (.takeOver m) (fun s => s.cmdTakeOver m))
def execDefineWindow (m : CmdMsg) (s : State) : Host.Outcome State Fault Refusal :=
  .next (s.arrive m (.defineWindow m) (fun s => s.cmdDefineWindow m))
def execDeleteWindow (m : CmdMsg) (s : State) : Host.Outcome State Fault Refusal :=
  .next (s.arrive m (.deleteWindow m) (fun s => s.cmdDeleteWindow m))
def execDefineRing (m : CmdMsg) (s : State) : Host.Outcome State Fault Refusal := .next (s.arrive m (.defineRing m) (fun s => s.cmdDefineRing m))
def execRingCredit (m : CmdMsg) (s : State) : Host.Outcome State Fault Refusal := .next (s.arrive m (.ringCredit m) (fun s => s.cmdRingCredit m))
def execRegisterKernel (m : CmdMsg) (s : State) : Host.Outcome State Fault Refusal :=
  .next (s.arrive m (.registerKernel m) (fun s => s.cmdRegisterKernel m))
def execSubmitGraph (m : CmdMsg) (s : State) : Host.Outcome State Fault Refusal :=
  .next (s.arrive m (.submitGraph m) (fun s => s.cmdSubmitGraph m))
def execStepCommand (m : CmdMsg) (s : State) : Host.Outcome State Fault Refusal := .next (s.arrive m (.stepCommand m) (fun s => s.cmdStep m))
def execStopCommand (m : CmdMsg) (s : State) : Host.Outcome State Fault Refusal := .next (s.arrive m (.stopCommand m) (fun s => s.cmdStop m))
def execStorageTarget (m : CmdMsg) (connected : Bool) (blocks : Nat) (formatOk : Bool) (status : W16) (s : State) :
    Host.Outcome State Fault Refusal :=
  .next (s.arrive m (.storageTarget m connected blocks formatOk status) (fun s => s.cmdStorageTarget m connected blocks formatOk status))
def execIngot (m : CmdMsg) (s : State) : Host.Outcome State Fault Refusal := .next (s.arrive m (.ingot m) (fun s => s.cmdIngot m))
def execRestore (m : CmdMsg) (s : State) : Host.Outcome State Fault Refusal := .next (s.arrive m (.restore m) (fun s => s.cmdRestore m))
def execCtrlRead (m : CmdMsg) (s : State) : Host.Outcome State Fault Refusal := .next (s.arrive m (.ctrlRead m) (fun s => s.cmdCtrlRead m))
def execCtrlWrite (m : CmdMsg) (s : State) : Host.Outcome State Fault Refusal := .next (s.arrive m (.ctrlWrite m) (fun s => s.cmdCtrlWrite m))
def execUpdateWrite (m : CmdMsg) (s : State) : Host.Outcome State Fault Refusal :=
  .next (s.arrive m (.updateWrite m) (fun s => s.cmdUpdateWrite m))
def execActivate (m : CmdMsg) (s : State) : Host.Outcome State Fault Refusal := .next (s.arrive m (.activate m) (fun s => s.cmdActivate m))
def execAttest (m : CmdMsg) (s : State) : Host.Outcome State Fault Refusal := .next (s.arrive m (.attest m) (fun s => s.cmdAttest m))
def execBankCommand (m : CmdMsg) (s : State) : Host.Outcome State Fault Refusal := .next (s.arrive m (.bankCommand m) (fun s => s.cmdBank m))
def execWakeCommand (m : CmdMsg) (s : State) : Host.Outcome State Fault Refusal := .next (s.arrive m (.wakeCommand m) (fun s => s.cmdWake m))

/-- The opcodes of R447. -/
def knownOpcodes : List Nat :=
  [0x0001, 0x0002, 0x0010, 0x0011, 0x0012, 0x0013, 0x0014, 0x0020, 0x0021, 0x0022, 0x0023, 0x0030, 0x0031, 0x0040, 0x0041, 0x0050,
   0x0051, 0x0052, 0x0060, 0x0061, 0x0070, 0x0071, 0x0072, 0x0080, 0x0081]

/-- UNKNOWN_OPCODE: an opcode outside the table. -/
def execUnknownOpcode (m : CmdMsg) (opcode : W16) (s : State) : Host.Outcome State Fault Refusal :=
  .next (if opcode.toNat ∈ knownOpcodes then s else s.arrive m (.unknownOpcode m opcode) (fun s => s.cmdUnknown m opcode))

end Sys2Proof.Machine
end

