-- ==== Sys2Proof/Machine/LoadStore.lean ====
section
/-!
DEFINITION. Scratchpad loads and stores (R128): opcodes 0x20 to 0x2C.
-/
namespace Sys2Proof.Machine

/-- The conditions of a scalar access of `size` bytes (R66, R104, R128): SCRATCH_ADDRESS with the offset in DETAIL. -/
def scalarAccess (p : PhysCore) (f : FmtM) (size : Nat) : List (Option (Byte × W32)) :=
  let a := scratchAddr p f.rb f.imm
  [if badScratch a size then some (0x03, detail32 a) else none]

/-- A load of `size` bytes into sT through `r`. -/
def loadS (s : State) (k : CoreId) (op : Byte) (f : FmtM) (size : Nat) (r : Nat → W64) : State :=
  s.issue k op f.bits fun g p =>
    ⟨decide (f.resv ≠ 0) || badReg16 f.rb, none, p.seqNext, scalarAccess p f size,
     .run g (p.setS f.rt (r (leNat (Memory.readBytes p.scratch (scratchAddr p f.rb f.imm) size))))⟩

/-- A store of the low `size` bytes of a value. -/
def storeS (s : State) (k : CoreId) (op : Byte) (f : FmtM) (size : Nat) (addrReg : Bool) (v : PhysCore → Nat) : State :=
  s.issue k op f.bits fun g p =>
    ⟨decide (f.resv ≠ 0) || badReg16 f.rb || (addrReg && badReg16 f.rt), none, p.seqNext, scalarAccess p f size,
     .run g (p.writeScratch (scratchAddr p f.rb f.imm) (leBytes size (v p)))⟩

/-- A scalar load, whose read checks the parity of its bytes: an error that stays is met again by the re-read, and retires the core
(R468, R470). -/
def State.loadChecked (s : State) (mismatch : Bool) (k : CoreId) (f : FmtM) (size : Nat) (run : State → State) : State :=
  let p := (s.crucible k.cru).phys k.core.val
  if p.parityAgrees (scratchAddr p f.rb f.imm) size then s.scalarChecked mismatch k run else s.lastingMismatch k run

/-- Sign extension of an n-bit number. -/
def sextNat (n : Nat) (v : Nat) : W64 := (BitVec.ofNat n v).signExtend 64

def execLdU8 (k : CoreId) (f : FmtM) (mismatch : Bool) (s : State) : Host.Outcome State Fault Refusal :=
  .next (s.loadChecked mismatch k f 1 fun s => loadS s k 0x20 f 1 (BitVec.ofNat 64))

def execLdU16 (k : CoreId) (f : FmtM) (mismatch : Bool) (s : State) : Host.Outcome State Fault Refusal :=
  .next (s.loadChecked mismatch k f 2 fun s => loadS s k 0x21 f 2 (BitVec.ofNat 64))

def execLdU32 (k : CoreId) (f : FmtM) (mismatch : Bool) (s : State) : Host.Outcome State Fault Refusal :=
  .next (s.loadChecked mismatch k f 4 fun s => loadS s k 0x22 f 4 (BitVec.ofNat 64))

def execLd64 (k : CoreId) (f : FmtM) (mismatch : Bool) (s : State) : Host.Outcome State Fault Refusal :=
  .next (s.loadChecked mismatch k f 8 fun s => loadS s k 0x23 f 8 (BitVec.ofNat 64))

def execLdS8 (k : CoreId) (f : FmtM) (mismatch : Bool) (s : State) : Host.Outcome State Fault Refusal :=
  .next (s.loadChecked mismatch k f 1 fun s => loadS s k 0x24 f 1 (sextNat 8))

def execLdS16 (k : CoreId) (f : FmtM) (mismatch : Bool) (s : State) : Host.Outcome State Fault Refusal :=
  .next (s.loadChecked mismatch k f 2 fun s => loadS s k 0x25 f 2 (sextNat 16))

def execLdS32 (k : CoreId) (f : FmtM) (mismatch : Bool) (s : State) : Host.Outcome State Fault Refusal :=
  .next (s.loadChecked mismatch k f 4 fun s => loadS s k 0x26 f 4 (sextNat 32))

/-- ld.a: aT := bits [47:0] of the word. -/
def execLdA (k : CoreId) (f : FmtM) (mismatch : Bool) (s : State) : Host.Outcome State Fault Refusal :=
  .next (s.loadChecked mismatch k f 8 fun s => s.issue k 0x27 f.bits fun g p =>
    ⟨decide (f.resv ≠ 0) || badReg16 f.rb || badReg16 f.rt, none, p.seqNext, scalarAccess p f 8,
     .run g (p.setA f.rt (BitVec.ofNat 48 (leNat (Memory.readBytes p.scratch (scratchAddr p f.rb f.imm) 8))))⟩)

def execSt8 (k : CoreId) (f : FmtM) (s : State) : Host.Outcome State Fault Refusal :=
  .next (storeS s k 0x28 f 1 false (fun p => (p.sreg f.rt).toNat))

def execSt16 (k : CoreId) (f : FmtM) (s : State) : Host.Outcome State Fault Refusal :=
  .next (storeS s k 0x29 f 2 false (fun p => (p.sreg f.rt).toNat))

def execSt32 (k : CoreId) (f : FmtM) (s : State) : Host.Outcome State Fault Refusal :=
  .next (storeS s k 0x2a f 4 false (fun p => (p.sreg f.rt).toNat))

def execSt64 (k : CoreId) (f : FmtM) (s : State) : Host.Outcome State Fault Refusal :=
  .next (storeS s k 0x2b f 8 false (fun p => (p.sreg f.rt).toNat))

/-- st.a: stores aT, zero-extended. -/
def execStA (k : CoreId) (f : FmtM) (s : State) : Host.Outcome State Fault Refusal :=
  .next (storeS s k 0x2c f 8 true (fun p => (p.areg f.rt).toNat))

end Sys2Proof.Machine
end

