-- ==== Sys2Proof/Machine/Pmbus.lean ====
section
/-!
DEFINITION. PMBus (R573).
-/
namespace Sys2Proof.Machine

/-- PMBus answers for as long as input lasts. -/
def State.pmbusUp (s : State) : Bool := !s.power.off

def State.pmbusReply (s : State) (o : Out) : State := if s.pmbusUp then s.emit [o] else s

/-! ### LINEAR11 -/

/-- Mantissa and exponent of a word, the mantissa not negative. -/
def linearParts (w : W16) : Nat × Int := ((w.extractLsb' 0 11).toNat, (w.extractLsb' 11 5).toInt)

/-- The word's value lies within one unit of its mantissa of n / d. -/
def linearNear (w : W16) (n d : Nat) : Bool :=
  let (m, e) := linearParts w
  let v := m * 2 ^ e.toNat * d
  let x := n * 2 ^ (-e).toNat
  let u := 2 ^ e.toNat * d
  decide (m < 1024) && decide (v ≤ x + u) && decide (x ≤ v + u)

/-- The finest exponent that holds n / d, from −16 on. -/
def linearFit (n d : Nat) : W16 :=
  match (List.range 32).find? (fun i => decide (n * 2 ^ 16 / (d * 2 ^ i) < 1024)) with
  | some i => BitVec.ofNat 5 (i + 16) ++ BitVec.ofNat 11 (n * 2 ^ 16 / (d * 2 ^ i))
  | none => 0x7BFF

/-- A LINEAR11 word for n / d. The format leaves the exponent and the rounding open (log 45). -/
def linear11 (n d : Nat) : W16 := if linearNear (Config.linear11 n d) n d then Config.linear11 n d else linearFit n d

def State.pmbusWord (s : State) (w : W16) : State := s.pmbusReply (.pmbus (leBytes 2 w.toNat))

/-! ### The commands -/

/-- CLEAR_FAULTS: every PWR_EVENT bit, and what STATUS_WORD keeps besides. -/
def execClearFaults (s : State) : Host.Outcome State Fault Refusal :=
  .next (if s.pmbusUp then { s with power := { s.power with event := 0, cml := false, uv := false, ov := false } } else s)

/-- STATUS_WORD. -/
def Power.statusBits (p : Power) : W16 :=
  (if p.cml then 0x0002 else 0) ||| (if p.event.getLsbD 2 || p.tripped then 0x0004 else 0) ||| (if p.uv then 0x0008 else 0) |||
    (if p.ov then 0x0020 else 0) ||| (if p.mode.powered then 0 else 0x0800)

def execStatusWord (s : State) : Host.Outcome State Fault Refusal := .next (s.pmbusWord s.power.statusBits)

/-- READ_VIN, in V. -/
def execReadVin (s : State) : Host.Outcome State Fault Refusal := .next (s.pmbusWord (linear11 s.power.vin.toNat 1000))

/-- READ_IIN, in A. -/
def execReadIin (s : State) : Host.Outcome State Fault Refusal := .next (s.pmbusWord (linear11 s.power.iin.toNat 1000))

/-- The highest of some readings of the crucibles. -/
def State.hottest (s : State) (f : PowerBlock → Nat) : Nat := (cruList.map (fun c => f (s.crucible c).pwr)).foldl max 0

/-- READ_TEMPERATURE_1: the highest hot spot, in °C. -/
def execReadTemperature1 (s : State) : Host.Outcome State Fault Refusal :=
  .next (s.pmbusWord (linear11 (s.hottest (fun p => p.die.toNat)) 4))

/-- READ_TEMPERATURE_2: the highest stack, in °C. -/
def execReadTemperature2 (s : State) : Host.Outcome State Fault Refusal :=
  .next (s.pmbusWord (linear11 (s.hottest (fun p => max p.hbm0.toNat p.hbm1.toNat)) 4))

/-- READ_PIN: the 10 ms average, in W. -/
def execReadPin (s : State) : Host.Outcome State Fault Refusal := .next (s.pmbusWord (linear11 s.power.avg.toNat 1))

/-- PMBUS_REVISION. -/
def execPmbusRevision (s : State) : Host.Outcome State Fault Refusal := .next (s.pmbusReply (.pmbus [0x33]))

/-- UNSUPPORTED_PMBUS_COMMAND: a NACK of its data byte; CML shows it (log 44). -/
def execUnsupportedPmbusCommand (code : Byte) (s : State) : Host.Outcome State Fault Refusal :=
  .next (if s.pmbusUp then ({ s with power := { s.power with cml := true } }).emit [.pmbusNack code] else s)

end Sys2Proof.Machine
end

