-- ==== Sys2Proof/Machine/Registers.lean ====
section
/-!
DEFINITION. The commands on control registers (R10–R19 and the registers of the chapters). Each is an access by one accessor; one that
does not reach its target has no effect (R59).
-/
namespace Sys2Proof.Machine

/-- A write that reaches crucible c. -/
def State.onReach (s : State) (a : Accessor) (c : Cru) (f : State → State) : Host.Outcome State Fault Refusal :=
  .next (if s.reach a c then f s else s)

/-- A commit field of crucible c is written 1 while it reads 0; while it reads 1 the write does nothing (R16). -/
def State.commitSet (s : State) (a : Accessor) (c : Cru) (pending : Crucible → Bool) (f : Crucible → Crucible) :
    Host.Outcome State Fault Refusal :=
  s.onReach a c (fun s => s.atCrucible c (fun x => if pending x then x else f x))

/-! ### Commits -/

def execNumCommit (a : Accessor) (c : Cru) (s : State) : Host.Outcome State Fault Refusal :=
  s.commitSet a c (fun x => x.num.regs.commit) Crucible.numCommit

def execHbmRegCommit (a : Accessor) (c : Cru) (s : State) : Host.Outcome State Fault Refusal :=
  s.commitSet a c (fun x => x.hbm.reg.commit) Crucible.hbmRegCommit

def execHbmPmapCommit (a : Accessor) (c : Cru) (s : State) : Host.Outcome State Fault Refusal :=
  s.commitSet a c (fun x => x.hbm.pmap.commit) Crucible.hbmPmapCommit

def execTallyXlatCommit (a : Accessor) (c : Cru) (i : Fin 8) (s : State) : Host.Outcome State Fault Refusal :=
  s.commitSet a c (fun x => (x.tally.set i.val).commit) (fun x => x.xlatCommit i.val)

/-- TALLY_XLAT_COMMIT_POINT: no core in virtual mode with the context is Running or Halting. -/
def execTallyXlatCommitPoint (c : Cru) (i : Fin 8) (s : State) : Host.Outcome State Fault Refusal :=
  .next (s.atCrucible c (fun x => if x.live then x.xlatPoint i.val else x))

def execTallyForceCommit (a : Accessor) (c : Cru) (s : State) : Host.Outcome State Fault Refusal :=
  s.commitSet a c (fun x => x.tally.force.commit) (fun x => x.forceTally a)

def execFabCommit (a : Accessor) (c : Cru) (n : PortIx) (s : State) : Host.Outcome State Fault Refusal :=
  s.commitSet a c (fun x => (x.port n.val).set.commit) (fun x => x.modPort n.val (fun p => p.commit n.val))

def execFabJobCommit (a : Accessor) (c : Cru) (s : State) : Host.Outcome State Fault Refusal :=
  s.commitSet a c (fun x => x.xport.job.commit) Crucible.jobCommit

def execFabXrackCommit (a : Accessor) (c : Cru) (s : State) : Host.Outcome State Fault Refusal :=
  s.commitSet a c (fun x => x.xport.xrack.commit) Crucible.xrackCommit

def execResNoseCommit (a : Accessor) (c : Cru) (s : State) : Host.Outcome State Fault Refusal :=
  s.commitSet a c (fun x => x.res.seed.commit) Crucible.noseCommit

def execHangWinCommit (a : Accessor) (c : Cru) (s : State) : Host.Outcome State Fault Refusal :=
  s.commitSet a c (fun x => x.hang.win.commit) Crucible.hangCommit

/-! ### Writes -/

/-- Bit 15 of the offset in its page says that it is a shadow offset. -/
def isShadow (off : Nat) : Bool := off / 0x8000 % 2 == 1

/-- SHADOW_WRITE: at a shadow offset; a write at any other offset is another command. -/
def execShadowWrite (a : Accessor) (sp : CtrlSpace) (off : Nat) (v : W32) (s : State) : Host.Outcome State Fault Refusal :=
  .next (if isShadow off then s.ctrlWriteWord a sp off v else s)

def execTallyCtxSel (a : Accessor) (k : CoreId) (v : W32) (s : State) : Host.Outcome State Fault Refusal :=
  s.onReach a k.cru (fun s => s.atCrucible k.cru (fun x => x.selectCtx k.core.val v))

def execTallyLogClear (a : Accessor) (c : Cru) (s : State) : Host.Outcome State Fault Refusal :=
  s.onReach a c (fun s => s.clearTallyLog a c)

/-- POP: the oldest fault record is removed. -/
def execPopRecord (a : Accessor) (c : Cru) (s : State) : Host.Outcome State Fault Refusal :=
  s.onReach a c (fun s => s.popFault a c)

def execForceHang (a : Accessor) (c : Cru) (s : State) : Host.Outcome State Fault Refusal :=
  s.onReach a c (fun s => s.forceHangNow c)

def execMcKick (a : Accessor) (c : Cru) (s : State) : Host.Outcome State Fault Refusal :=
  s.onReach a c (fun s => s.atCrucible c Crucible.kick)

def execFabE2eWrite (a : Accessor) (c : Cru) (v : W32) (s : State) : Host.Outcome State Fault Refusal :=
  s.onReach a c (fun s => s.atCrucible c (fun x => x.writeE2e v))

def execEthVlanWrite (a : Accessor) (h : HalfIx) (v : W32) (s : State) : Host.Outcome State Fault Refusal :=
  .next (if s.portDieUp && s.speaks a && (s.halfAt h).alive then s.modHalf h (fun x => x.writeVlan v) else s)

def execPwrLimitWrite (a : Accessor) (v : W32) (s : State) : Host.Outcome State Fault Refusal :=
  .next (if s.portDieUp && s.speaks a then { s with power := s.power.writeLimit v } else s)

def execIntervalWrite (a : Accessor) (c : Cru) (sillage : Bool) (v : W32) (s : State) : Host.Outcome State Fault Refusal :=
  s.onReach a c (fun s => s.atCrucible c (fun x => x.writeInterval sillage v))

def execUePendingClear (a : Accessor) (c : Cru) (s : State) : Host.Outcome State Fault Refusal :=
  s.onReach a c (fun s => s.clearUePending a c)

def execEventSummaryClear (a : Accessor) (k : CoreId) (s : State) : Host.Outcome State Fault Refusal :=
  s.onReach a k.cru (fun s => s.clearNumEvent a k.cru k.core.val)

/-- REGISTER_WRITE: any offset. -/
def execRegisterWrite (a : Accessor) (sp : CtrlSpace) (off : Nat) (v : W32) (s : State) : Host.Outcome State Fault Refusal :=
  .next (s.ctrlWriteWord a sp off v)

/-! ### Reads -/

/-- A read that reaches crucible c, else 0. -/
def State.readReach (s : State) (a : Accessor) (c : Cru) (f : State → W32 × State) : Host.Outcome State Fault Refusal :=
  let (v, s) := if s.reach a c then f s else (0, s)
  .next { s with lastRead := v }

def execTallyWordRead (a : Accessor) (k : CoreId) (i : Fin 48) (s : State) : Host.Outcome State Fault Refusal :=
  s.readReach a k.cru (fun s => s.readTallyLo a k.cru k.core.val i.val)

def execResSigRead (a : Accessor) (k : CoreId) (s : State) : Host.Outcome State Fault Refusal :=
  s.readReach a k.cru (fun s => s.readSigLo a k.cru k.core.val)

def execPwrAonRead (a : Accessor) (c : Cru) (s : State) : Host.Outcome State Fault Refusal :=
  s.readReach a c (fun s => s.readAonLo a c)

/-- What an access to an unassigned offset, or of another width or alignment, sets (R13, R54). -/
def State.missed (s : State) (a : Accessor) (sp : CtrlSpace) (off : Nat) : State :=
  match sp with
  | .crucible c => if s.reach a c then s.atCrucible c (fun x => x.unassigned off) else s
  | .portDie view =>
    match s.viewUp a view with
    | some h => s.pdUnassigned h off
    | none => s

/-- The offset and width name no register. -/
def State.isUnassigned (s : State) (a : Accessor) (sp : CtrlSpace) (off width : Nat) : Bool :=
  width != 4 || off % 4 != 0 ||
    (match sp with
     | .crucible c => (s.cruRead c off).isNone
     | .portDie view =>
       match s.viewUp a view with
       | some h => (s.pdRead h off).isNone
       | none => true)

/-- UNASSIGNED_ACCESS: a read or a write of `width` bytes where nothing is; it reads 0. -/
def execUnassignedAccess (a : Accessor) (sp : CtrlSpace) (off : Nat) (width : Nat) (s : State) :
    Host.Outcome State Fault Refusal :=
  .next (if s.isUnassigned a sp off width then { s.missed a sp off with lastRead := 0 } else s)

end Sys2Proof.Machine
end

