-- ==== Sys2Proof/Machine/Scalar.lean ====
section
/-!
DEFINITION. Scalar arithmetic and moves (R127; R63, R64): opcodes 0x01 to 0x1C.
-/
namespace Sys2Proof.Machine

/-- sD := r sA sB. IMM and the reserved field must be 0 (R120). -/
def aluRR (s : State) (k : CoreId) (op : Byte) (f : FmtA) (r : W64 → W64 → W64) : State :=
  s.issue k op f.bits fun g p =>
    simpleIssue (decide (f.resv ≠ 0) || decide (f.imm ≠ 0)) g p (p.setS f.rd (r (p.sreg f.ra) (p.sreg f.rb)))

/-- sD := r sA IMM. RB and the reserved field must be 0. -/
def aluRI (s : State) (k : CoreId) (op : Byte) (f : FmtA) (r : W64 → W32 → W64) : State :=
  s.issue k op f.bits fun g p =>
    simpleIssue (decide (f.resv ≠ 0) || decide (f.rb ≠ 0)) g p (p.setS f.rd (r (p.sreg f.ra) f.imm))

/-- sD := r sA IMM[5:0], with IMM[31:6] reserved. -/
def aluShift (s : State) (k : CoreId) (op : Byte) (f : FmtA) (r : W64 → Nat → W64) : State :=
  s.issue k op f.bits fun g p =>
    simpleIssue (decide (f.resv ≠ 0) || decide (f.rb ≠ 0) || decide (f.imm.toNat ≥ 64)) g p
      (p.setS f.rd (r (p.sreg f.ra) f.imm.toNat))

/-- A shift distance sB[5:0]. -/
def shamt (v : W64) : Nat := v.toNat % 64

/-- 1 or 0. -/
def boolWord (b : Bool) : W64 := if b then 1 else 0

/-- The high 64 bits of the unsigned product. -/
def mulHigh (a b : W64) : W64 := BitVec.ofNat 64 (a.toNat * b.toNat / 2 ^ 64)

def execAdd (k : CoreId) (f : FmtA) (mismatch : Bool) (s : State) : Host.Outcome State Fault Refusal :=
  .next (s.scalarChecked mismatch k fun s => aluRR s k 0x01 f (fun a b => a + b))

def execSub (k : CoreId) (f : FmtA) (mismatch : Bool) (s : State) : Host.Outcome State Fault Refusal :=
  .next (s.scalarChecked mismatch k fun s => aluRR s k 0x02 f (fun a b => a - b))

def execAndB (k : CoreId) (f : FmtA) (mismatch : Bool) (s : State) : Host.Outcome State Fault Refusal :=
  .next (s.scalarChecked mismatch k fun s => aluRR s k 0x03 f (fun a b => a &&& b))

def execOrB (k : CoreId) (f : FmtA) (mismatch : Bool) (s : State) : Host.Outcome State Fault Refusal :=
  .next (s.scalarChecked mismatch k fun s => aluRR s k 0x04 f (fun a b => a ||| b))

def execXorB (k : CoreId) (f : FmtA) (mismatch : Bool) (s : State) : Host.Outcome State Fault Refusal :=
  .next (s.scalarChecked mismatch k fun s => aluRR s k 0x05 f (fun a b => a ^^^ b))

def execSll (k : CoreId) (f : FmtA) (mismatch : Bool) (s : State) : Host.Outcome State Fault Refusal :=
  .next (s.scalarChecked mismatch k fun s => aluRR s k 0x06 f (fun a b => a <<< shamt b))

def execSrl (k : CoreId) (f : FmtA) (mismatch : Bool) (s : State) : Host.Outcome State Fault Refusal :=
  .next (s.scalarChecked mismatch k fun s => aluRR s k 0x07 f (fun a b => a >>> shamt b))

def execSra (k : CoreId) (f : FmtA) (mismatch : Bool) (s : State) : Host.Outcome State Fault Refusal :=
  .next (s.scalarChecked mismatch k fun s => aluRR s k 0x08 f (fun a b => a.sshiftRight (shamt b)))

def execMul (k : CoreId) (f : FmtA) (mismatch : Bool) (s : State) : Host.Outcome State Fault Refusal :=
  .next (s.scalarChecked mismatch k fun s => aluRR s k 0x09 f (fun a b => a * b))

def execMulhu (k : CoreId) (f : FmtA) (mismatch : Bool) (s : State) : Host.Outcome State Fault Refusal :=
  .next (s.scalarChecked mismatch k fun s => aluRR s k 0x0a f (mulHigh))

def execSlt (k : CoreId) (f : FmtA) (mismatch : Bool) (s : State) : Host.Outcome State Fault Refusal :=
  .next (s.scalarChecked mismatch k fun s => aluRR s k 0x0b f (fun a b => boolWord (a.slt b)))

def execSltu (k : CoreId) (f : FmtA) (mismatch : Bool) (s : State) : Host.Outcome State Fault Refusal :=
  .next (s.scalarChecked mismatch k fun s => aluRR s k 0x0c f (fun a b => boolWord (a.ult b)))

def execSeq (k : CoreId) (f : FmtA) (mismatch : Bool) (s : State) : Host.Outcome State Fault Refusal :=
  .next (s.scalarChecked mismatch k fun s => aluRR s k 0x0d f (fun a b => boolWord (a == b)))

def execAddi (k : CoreId) (f : FmtA) (mismatch : Bool) (s : State) : Host.Outcome State Fault Refusal :=
  .next (s.scalarChecked mismatch k fun s => aluRI s k 0x10 f (fun a i => a + sextImm i))

def execAndi (k : CoreId) (f : FmtA) (mismatch : Bool) (s : State) : Host.Outcome State Fault Refusal :=
  .next (s.scalarChecked mismatch k fun s => aluRI s k 0x11 f (fun a i => a &&& sextImm i))

def execOri (k : CoreId) (f : FmtA) (mismatch : Bool) (s : State) : Host.Outcome State Fault Refusal :=
  .next (s.scalarChecked mismatch k fun s => aluRI s k 0x12 f (fun a i => a ||| sextImm i))

def execXori (k : CoreId) (f : FmtA) (mismatch : Bool) (s : State) : Host.Outcome State Fault Refusal :=
  .next (s.scalarChecked mismatch k fun s => aluRI s k 0x13 f (fun a i => a ^^^ sextImm i))

def execSlli (k : CoreId) (f : FmtA) (mismatch : Bool) (s : State) : Host.Outcome State Fault Refusal :=
  .next (s.scalarChecked mismatch k fun s => aluShift s k 0x14 f (fun a n => a <<< n))

def execSrli (k : CoreId) (f : FmtA) (mismatch : Bool) (s : State) : Host.Outcome State Fault Refusal :=
  .next (s.scalarChecked mismatch k fun s => aluShift s k 0x15 f (fun a n => a >>> n))

def execSrai (k : CoreId) (f : FmtA) (mismatch : Bool) (s : State) : Host.Outcome State Fault Refusal :=
  .next (s.scalarChecked mismatch k fun s => aluShift s k 0x16 f (fun a n => a.sshiftRight n))

/-- li: sD := sext(IMM); RA is reserved too. -/
def execLi (k : CoreId) (f : FmtA) (mismatch : Bool) (s : State) : Host.Outcome State Fault Refusal :=
  .next (s.scalarChecked mismatch k fun s => s.issue k 0x17 f.bits fun g p =>
    simpleIssue (decide (f.resv ≠ 0) || decide (f.ra ≠ 0) || decide (f.rb ≠ 0)) g p (p.setS f.rd (sextImm f.imm)))

/-- lih: IMM in bits [63:32], sA[31:0] below. -/
def execLih (k : CoreId) (f : FmtA) (mismatch : Bool) (s : State) : Host.Outcome State Fault Refusal :=
  .next (s.scalarChecked mismatch k fun s => aluRI s k 0x18 f (fun a i => i ++ a.setWidth 32))

/-- mov.as: aD := sA[47:0] (R63). RD names an address register (R121). -/
def execMovAs (k : CoreId) (f : FmtA) (mismatch : Bool) (s : State) : Host.Outcome State Fault Refusal :=
  .next (s.scalarChecked mismatch k fun s => s.issue k 0x19 f.bits fun g p =>
    simpleIssue (decide (f.resv ≠ 0) || decide (f.rb ≠ 0) || decide (f.imm ≠ 0) || badReg16 f.rd) g p
      (p.setA f.rd ((p.sreg f.ra).setWidth 48)))

/-- mov.sa: sD := aA, zero-extended (R63). RA names an address register. -/
def execMovSa (k : CoreId) (f : FmtA) (mismatch : Bool) (s : State) : Host.Outcome State Fault Refusal :=
  .next (s.scalarChecked mismatch k fun s => s.issue k 0x1a f.bits fun g p =>
    simpleIssue (decide (f.resv ≠ 0) || decide (f.rb ≠ 0) || decide (f.imm ≠ 0) || badReg16 f.ra) g p
      (p.setS f.rd ((p.areg f.ra).setWidth 64)))

/-- aaddi: aD := aA + sext(IMM) modulo 2^48. -/
def execAaddi (k : CoreId) (f : FmtA) (mismatch : Bool) (s : State) : Host.Outcome State Fault Refusal :=
  .next (s.scalarChecked mismatch k fun s => s.issue k 0x1b f.bits fun g p =>
    simpleIssue (decide (f.resv ≠ 0) || decide (f.rb ≠ 0) || badReg16 f.rd || badReg16 f.ra) g p
      (p.setA f.rd (p.areg f.ra + f.imm.signExtend 48)))

/-- aadd: aD := aA + sB[47:0] modulo 2^48. -/
def execAadd (k : CoreId) (f : FmtA) (mismatch : Bool) (s : State) : Host.Outcome State Fault Refusal :=
  .next (s.scalarChecked mismatch k fun s => s.issue k 0x1c f.bits fun g p =>
    simpleIssue (decide (f.resv ≠ 0) || decide (f.imm ≠ 0) || badReg16 f.rd || badReg16 f.ra) g p
      (p.setA f.rd (p.areg f.ra + (p.sreg f.rb).setWidth 48)))

end Sys2Proof.Machine
end

