-- ==== Sys2Proof/Machine/TallyOps.lean ====
section
/-!
DEFINITION. Tally instructions and the fence (R88, R131–R134, R334–R343, R351, R352): opcodes 0x50 to 0x58.
-/
namespace Sys2Proof.Machine

/-- TALLY_INDEX of TIDX: 48 to 62, or an invalid identifier in virtual mode, with the identifier in DETAIL (R104, R131, R351). TIDX
63 is ILLEGAL. -/
def tidxFault (tb : TallyBlock) (g : LogCore) (t : BitVec 6) : Option W32 :=
  match tallyTarget tb g t.toNat with
  | some _ => none
  | none => some (t.setWidth 32)

/-- The physical word TIDX names. -/
def tidxWord (tb : TallyBlock) (g : LogCore) (t : BitVec 6) : Nat := (tallyTarget tb g t.toNat).getD 0

/-- Issue of a tally instruction: which of RS and CAP it uses, its condition on the word, and its effect there. -/
def issueTally (s : State) (k : CoreId) (op : Byte) (f : FmtT) (useRs useCap : Bool) (cond : W64 → Option Byte)
    (effect : LogCore → PhysCore → Nat → Effect) : State :=
  let tb := (s.crucible k.cru).tally
  let s := s.atCrucible k.cru (fun x =>
    if x.canIssue k.core.val then x.settleWord k.core.val (tidxWord tb (x.log k.core.val) f.tidx) else x)
  s.issue k op f.bits fun g p =>
    let w := tidxWord tb g f.tidx
    ⟨decide (f.resv ≠ 0) || decide (f.tidx.toNat = 63) || (!useRs && decide (f.rs ≠ 0)) || (!useCap && decide (f.cap ≠ 0)),
     tidxFault tb g f.tidx, p.seqNext, [(cond (p.tallyWord w)).map (fun c => (c, f.tidx.setWidth 32))], effect g p w⟩

/-- tly.signal: TALLY_OVERFLOW at capacity (R337, R338). -/
def execTlySignal (k : CoreId) (f : FmtT) (s : State) : Host.Outcome State Fault Refusal :=
  .next (issueTally s k 0x50 f false false (fun v => if atCapacity v then some 0x08 else none)
    (fun g p w => .run g (p.tallyInc w)))

/-- tly.wait: takes one signal, or blocks issue while the count is 0 (R88). -/
def execTlyWait (k : CoreId) (f : FmtT) (s : State) : Host.Outcome State Fault Refusal :=
  .next (issueTally s k 0x51 f false false (fun _ => none)
    (fun g p w => if tallyCount (p.tallyWord w) = 0 then .wait (.tally w) else .run g (p.tallyDec w)))

/-- tly.take: TALLY_UNDERFLOW at count 0. -/
def execTlyTake (k : CoreId) (f : FmtT) (s : State) : Host.Outcome State Fault Refusal :=
  .next (issueTally s k 0x52 f false false (fun v => if tallyCount v = 0 then some 0x09 else none)
    (fun g p w => .run g (p.tallyDec w)))

/-- tly.init: CAPACITY, VALUE, COUNT 0 and FULL 0. -/
def execTlyInit (k : CoreId) (f : FmtT) (s : State) : Host.Outcome State Fault Refusal :=
  .next (issueTally s k 0x53 f true true (fun _ => none)
    (fun g p w => .run g (p.setTally w (tallyInitWord f.cap ((p.sreg f.rs).setWidth 32)))))

/-- tly.read: sS := the whole word. -/
def execTlyRead (k : CoreId) (f : FmtT) (mismatch : Bool) (s : State) : Host.Outcome State Fault Refusal :=
  .next (s.scalarChecked mismatch k fun s => issueTally s k 0x54 f true false (fun _ => none)
    (fun g p w => .run g (p.setS f.rs (p.tallyWord w))))

/-- WAIT_TAKES_SIGNAL: a blocked tly.wait finds COUNT at 1 or above (R339). -/
def execWaitTakesSignal (k : CoreId) (s : State) : Host.Outcome State Fault Refusal :=
  .next (s.atCrucible k.cru (fun x => x.waitTakesSignal k.core.val))

/-! ### The fence (R133, R343) -/

/-- Every packet of core `l` is resolved (R413): answered, and past the quiet time of its resends. -/
def Crucible.packetsResolved (x : Crucible) (l : Nat) : Bool :=
  x.xport.pkts.all (fun q =>
    match q.owner with
    | some o => o.core != l
    | none => true)

/-- Both conditions of R133: the operations queued before have completed, held ones included, and their packets are
acknowledged. No later instruction has issued. -/
def Crucible.fenceOpen (x : Crucible) (l : Nat) : Bool := (x.phys l).queuesDone && x.packetsResolved l

/-- fence: every field below OP is reserved. -/
def execFence (k : CoreId) (f : FmtT) (s : State) : Host.Outcome State Fault Refusal :=
  let isOpen := (s.crucible k.cru).fenceOpen k.core.val
  .next (s.issue k 0x58 f.bits fun g p =>
    ⟨decide (f.bits ≠ 0), none, p.seqNext, [], if isOpen then .run g p else .wait .fence⟩)

def Crucible.fenceRelease (x : Crucible) (l : Nat) : Crucible :=
  let g := x.log l
  if x.live && g.mode == .running && g.waiting == some .fence && x.fenceOpen l then x.retire l g (x.phys l) (x.phys l).seqNext else x

/-- FENCE_RELEASE: the fence's conditions hold and issue continues. -/
def execFenceRelease (k : CoreId) (s : State) : Host.Outcome State Fault Refusal :=
  .next (s.atCrucible k.cru (fun x => x.fenceRelease k.core.val))

end Sys2Proof.Machine
end

