-- ==== Sys2Proof/Machine/System.lean ====
section
/-!
DEFINITION. System instructions (R91, R94, R95, R135, R136): opcodes 0x60 to 0x67; undefined words (R119, R120); the step instruction
(R91, R211, R214, R471).
-/
namespace Sys2Proof.Machine

/-! ### Undefined words -/

/-- Bits [hi:lo] of the 56 bits below OP. -/
def fieldMask (hi lo : Nat) : BitVec 56 := BitVec.ofNat 56 (2 ^ (hi + 1) - 2 ^ lo)

def maskTRS : BitVec 56 := fieldMask 55 51
def maskRA : BitVec 56 := fieldMask 50 46
def maskRB : BitVec 56 := fieldMask 45 41
def maskImm : BitVec 56 := fieldMask 31 0
def maskTally : BitVec 56 := fieldMask 55 50
def maskVd : BitVec 56 := fieldMask 49 45
def maskVa : BitVec 56 := fieldMask 44 40
def maskVb : BitVec 56 := fieldMask 39 35
def maskVc : BitVec 56 := fieldMask 34 30

/-- The fields an opcode uses below OP, or none for an undefined opcode (R119, R120, R127–R154). -/
def usedFields (op : Nat) : Option (BitVec 56) :=
  if 0x01 ≤ op ∧ op ≤ 0x0D then some (maskTRS ||| maskRA ||| maskRB)
  else if 0x10 ≤ op ∧ op ≤ 0x13 ∨ op = 0x18 ∨ op = 0x1B then some (maskTRS ||| maskRA ||| maskImm)
  else if 0x14 ≤ op ∧ op ≤ 0x16 then some (maskTRS ||| maskRA ||| fieldMask 5 0)
  else if op = 0x17 then some (maskTRS ||| maskImm)
  else if op = 0x19 ∨ op = 0x1A then some (maskTRS ||| maskRA)
  else if op = 0x1C then some (maskTRS ||| maskRA ||| maskRB)
  else if 0x20 ≤ op ∧ op ≤ 0x2C then some (maskTRS ||| maskRA ||| maskImm)
  else if 0x30 ≤ op ∧ op ≤ 0x35 then some (maskTRS ||| maskRA ||| fieldMask 15 0)
  else if op = 0x36 then some (fieldMask 15 0)
  else if op = 0x37 ∨ op = 0x39 then some (maskTRS ||| fieldMask 15 0)
  else if op = 0x38 then some maskTRS
  else if op = 0x40 then some (maskTRS ||| maskRA ||| maskRB)
  else if 0x41 ≤ op ∧ op ≤ 0x44 then some (maskTRS ||| maskRA)
  else if op = 0x50 ∨ op = 0x51 ∨ op = 0x52 then some maskTally
  else if op = 0x53 then some (maskTally ||| maskVd ||| fieldMask 7 0)
  else if op = 0x54 then some (maskTally ||| maskVd)
  else if op = 0x58 ∨ op = 0x60 ∨ op = 0x61 then some 0
  else if op = 0x62 then some (fieldMask 15 0)
  else if 0x63 ≤ op ∧ op ≤ 0x67 then some maskTRS
  else if op = 0x80 then some (maskTally ||| maskVd)
  else if 0x81 ≤ op ∧ op ≤ 0x85 then some (maskTally ||| fieldMask 49 30 ||| fieldMask 29 29)
  else if op = 0x88 then some (maskTally ||| fieldMask 49 30 ||| fieldMask 28 24 ||| fieldMask 21 17)
  else if 0x90 ≤ op ∧ op ≤ 0x95 then some (maskTally ||| maskVd ||| maskVa ||| fieldMask 19 0)
  else if op = 0x98 then some (maskTally ||| maskVa ||| maskVc ||| fieldMask 19 0)
  else if 0x99 ≤ op ∧ op ≤ 0x9D then some (maskTally ||| maskVa ||| maskVc ||| fieldMask 29 29 ||| fieldMask 19 0)
  else if op = 0xA0 then some (maskTally ||| maskVd ||| maskVa ||| fieldMask 9 0)
  else if op = 0xA1 then some (maskTally ||| maskVa ||| maskVc ||| fieldMask 9 0)
  else if op = 0xA2 ∨ op = 0xAE ∨ op = 0xAF ∨ (0xB0 ≤ op ∧ op ≤ 0xB3) ∨ (0xB8 ≤ op ∧ op ≤ 0xBA) then
    some (maskTally ||| maskVd ||| maskVa)
  else if op = 0xAB then some (maskTally ||| maskVd ||| maskVa ||| maskVb ||| maskVc)
  else if 0xA8 ≤ op ∧ op ≤ 0xAD then some (maskTally ||| maskVd ||| maskVa ||| maskVb)
  else if op = 0xC0 then some (maskTally ||| fieldMask 49 25 ||| fieldMask 19 17)
  else if 0xC1 ≤ op ∧ op ≤ 0xC3 then some (maskTally ||| fieldMask 49 17)
  else if op = 0xC8 ∨ op = 0xC9 then some (maskTally ||| maskVb ||| maskVc ||| fieldMask 18 18)
  else none

/-- The word is undefined, or holds a non-zero bit in a field its instruction does not use (R119, R120). -/
def illegalWord (w : W64) : Bool :=
  match usedFields (w.extractLsb' 56 8).toNat with
  | none => true
  | some m => decide (w.extractLsb' 0 56 &&& ~~~m ≠ 0)

def Crucible.issueIllegal (x : Crucible) (l : Nat) (w : W64) : Crucible :=
  if x.canIssue l && illegalWord w then x.raise l 0x01 srcScalar (x.phys l).pc (w.setWidth 32) else x

/-- ILLEGAL_INSTRUCTION (R105, R119, R120): DETAIL holds bits [31:0]. A defined word with no reserved bit set is no such event. -/
def execIllegalInstruction (k : CoreId) (w : W64) (s : State) : Host.Outcome State Fault Refusal :=
  .next (s.atCrucible k.cru (fun x => x.issueIllegal k.core.val w))

/-! ### System instructions -/

def execNop (k : CoreId) (f : FmtS) (s : State) : Host.Outcome State Fault Refusal :=
  .next (s.issue k 0x60 f.bits fun g p => simpleIssue (decide (f.bits ≠ 0)) g p p)

/-- halt: the core stops before the next instruction; its program counter stays on the halt (R95). -/
def execHaltCore (k : CoreId) (f : FmtS) (s : State) : Host.Outcome State Fault Refusal :=
  .next (s.issue k 0x61 f.bits fun _ p => ⟨decide (f.bits ≠ 0), none, p.pc.toNat, [], .halt⟩)

/-- trap: the fault TRAP with CODE in DETAIL. -/
def execTrap (k : CoreId) (f : FmtS) (s : State) : Host.Outcome State Fault Refusal :=
  .next (s.issue k 0x62 f.bits fun g p =>
    ⟨decide (f.resv ≠ 0) || decide (f.rs ≠ 0), none, p.pc.toNat, [some (0x0F, f.code.setWidth 32)], .run g p⟩)

/-! ### The step instruction -/

/-- The counters move and clear (R211), the live thresholds are taken (R214), STEP_MISMATCHES returns to 0 (R471). -/
def LogCore.newStep (g : LogCore) (thr : NumRegs) : LogCore :=
  { g with satPrev := g.sat, flushPrev := g.flush, sat := 0, flush := 0, thr := thr, mismatches := 0 }

/-- The step register is loaded, the sequence register becomes 0 (R91). -/
def PhysCore.newStep (p : PhysCore) (v : W48) : PhysCore := { p with step := v, seq := 0 }

/-- step: waits for empty queues (R91). RS names the scalar register; CODE is reserved. -/
def execStepStart (k : ScalarRun) (f : FmtS) (s : State) : Host.Outcome State Fault Refusal :=
  .next (s.scalarChecked k.mismatch k.toCoreId fun s =>
    let thr := (s.crucible k.cru).num.regs.live
    s.issue k.toCoreId 0x63 f.bits fun g p =>
      let v := (p.sreg f.rs).setWidth 48
      ⟨decide (f.resv ≠ 0) || decide (f.code ≠ 0), none, p.seqNext, [],
       if p.queuesEmpty then .run (g.newStep thr) (p.newStep v) else .wait (.stepStart v)⟩)

def Crucible.stepProceeds (x : Crucible) (l : Nat) : Crucible :=
  let g := x.log l
  let p := x.phys l
  if x.live && g.mode == .running && p.queuesEmpty then
    match g.waiting with
    | some (.stepStart v) => x.retire l (g.newStep x.num.regs.live) (p.newStep v) p.seqNext
    | _ => x
  else x

/-- STEP_START_PROCEEDS: the waiting step instruction finds all three queues empty. -/
def execStepStartProceeds (k : ScalarRun) (s : State) : Host.Outcome State Fault Refusal :=
  .next (s.scalarChecked k.mismatch k.toCoreId fun s => s.atCrucible k.cru (fun x => x.stepProceeds k.core.val))

/-! ### Reading the core's own registers -/

/-- sS := a value; CODE is reserved. -/
def readSystem (s : State) (k : CoreId) (op : Byte) (f : FmtS) (v : PhysCore → W64) : State :=
  s.issue k op f.bits fun g p => simpleIssue (decide (f.resv ≠ 0) || decide (f.code ≠ 0)) g p (p.setS f.rs (v p))

/-- rd.cyc. The counter has advanced by a number of cycles that the spec leaves to the clock: a free value (log 9). -/
def State.rdCycle (s : State) (k : CoreId) (f : FmtS) : State :=
  let d := Config.freeNat s.freeCtr
  let s := { s with freeCtr := s.freeCtr + 1 }
  s.issue k 0x64 f.bits fun g p =>
    let p := { p with cyc := p.cyc + BitVec.ofNat 64 d }
    simpleIssue (decide (f.resv ≠ 0) || decide (f.code ≠ 0)) g p (p.setS f.rs p.cyc)

def execRdCyc (k : CoreId) (f : FmtS) (mismatch : Bool) (s : State) : Host.Outcome State Fault Refusal :=
  .next (s.scalarChecked mismatch k fun s => s.rdCycle k f)

def execRdStep (k : CoreId) (f : FmtS) (mismatch : Bool) (s : State) : Host.Outcome State Fault Refusal :=
  .next (s.scalarChecked mismatch k fun s => readSystem s k 0x65 f (fun p => p.step.setWidth 64))

/-- rd.seq. A register past its last number reads its low 32 bits. -/
def execRdSeq (k : CoreId) (f : FmtS) (mismatch : Bool) (s : State) : Host.Outcome State Fault Refusal :=
  .next (s.scalarChecked mismatch k fun s => readSystem s k 0x66 f (fun p => BitVec.ofNat 64 (p.seq % 2 ^ 32)))

/-- The identity word: logical module index [31:20], crucible [17:16], logical core [8:0] (R136). -/
def identityWord (self : BitVec 12) (k : CoreId) : W64 :=
  BitVec.ofNat 64 (self.toNat * 2 ^ 20 + k.cru.val * 2 ^ 16 + k.core.val)

def execRdId (k : CoreId) (f : FmtS) (mismatch : Bool) (s : State) : Host.Outcome State Fault Refusal :=
  let self := (s.crucible k.cru).xport.job.live.self
  .next (s.scalarChecked mismatch k fun s => readSystem s k 0x67 f (fun _ => identityWord self k))

end Sys2Proof.Machine
end

