-- ==== Sys2Proof/Machine/Transfer.lean ====
section
/-!
DEFINITION. Transfer instructions (R148–R154): opcodes 0xC0 to 0xC9, and the start of a transfer (R86).
-/
namespace Sys2Proof.Machine

/-- The source side (R148). -/
def srcSide (p : PhysCore) (f : FmtQX) : Side :=
  if f.slocal = 1 then .own ((p.areg f.sadr).setWidth 22) else .global (formAddr (p.sreg f.sseg) (p.areg f.sadr))

/-- The destination side. -/
def dstSide (p : PhysCore) (f : FmtQX) : Side :=
  if f.dlocal = 1 then .own ((p.areg f.dadr).setWidth 22) else .global (formAddr (p.sreg f.dseg) (p.areg f.dadr))

/-- The conditions of ILLEGAL common to the copies and the casts: reserved bits, an address register above a15, and the segment
field of a local side (R120, R121, R148). -/
def xferIllegal (f : FmtQX) : Bool :=
  decide (f.resv ≠ 0) || badReg16 f.sadr || badReg16 f.dadr || (f.slocal == 1 && decide (f.sseg ≠ 0)) ||
    (f.dlocal == 1 && decide (f.dseg ≠ 0))

/-- COUNT_LIMIT: bits [63:32] of a length register (R149). -/
def lengthFault (v : W64) : Option (Byte × W32) :=
  if v.extractLsb' 32 32 ≠ 0 then some (0x06, v.setWidth 32) else none

/-- The queue entry of a transfer instruction. -/
def xferEntry (x : Crucible) (op : Byte) (kind : XferOp) (f : FmtQX) (g : LogCore) (p : PhysCore) (src : Side)
    (rows len srcStride dstStride : Nat) (mask : W128) (col : Bool) : XferEntry :=
  let e : XferEntry :=
    { op := kind, word := instrWord op f.bits, seq := BitVec.ofNat 32 p.seq, pc := p.pc, tally := tallyFieldWord x.tally g f.tally,
      src := src, dst := dstSide p f, rows := rows, len := len, srcStride := srcStride, dstStride := dstStride, mask := mask,
      col := col, phase := .queued, toInject := 0, toArrive := 0, cut := 0, gen := x.xport.gen, staged := [], badSrc := false, badDst := false }
  if e.hasWork then e else { e with phase := .complete }

/-- Issue of a transfer instruction. `count` is its COUNT_LIMIT condition. -/
def issueXfer (s : State) (k : CoreId) (op : Byte) (f : FmtQX) (illegal : Bool) (count : PhysCore → Option (Byte × W32))
    (entry : Crucible → LogCore → PhysCore → XferEntry) : State :=
  let x := s.crucible k.cru
  s.issue k op f.bits fun g p =>
    let e := entry x g p
    ⟨illegal, tallyFieldFault x.tally g f.tally, p.seqNext, [x.addrFault k e, count p, seqLimit p], enterXfer g p e⟩

/-- xcopy. -/
def execXcopy (k : CoreId) (f : FmtQX) (s : State) : Host.Outcome State Fault Refusal :=
  .next (issueXfer s k 0xC0 f (xferIllegal f || decide (f.raux ≠ 0)) (fun p => lengthFault (p.sreg f.rlen)) (fun x g p =>
    xferEntry x 0xC0 .copy f g p (srcSide p f) 1 ((p.sreg f.rlen).extractLsb' 0 32).toNat 0 0 0 (f.col == 1)))

/-- xcopy.2d: rows and row bytes in RLEN, strides in RAUX. -/
def execXcopy2d (k : CoreId) (f : FmtQX) (s : State) : Host.Outcome State Fault Refusal :=
  .next (issueXfer s k 0xC1 f (xferIllegal f) (fun _ => none) (fun x g p =>
    let n := p.sreg f.rlen
    let t := p.sreg f.raux
    xferEntry x 0xC1 .copy2d f g p (srcSide p f) (n.extractLsb' 32 32).toNat (n.extractLsb' 0 32).toNat
      (t.extractLsb' 32 32).toNat (t.extractLsb' 0 32).toNat 0 (f.col == 1)))

/-- xcast.core: the group mask is a register pair. -/
def execXcastCore (k : CoreId) (f : FmtQX) (s : State) : Host.Outcome State Fault Refusal :=
  .next (issueXfer s k 0xC2 f (xferIllegal f || f.raux.getLsbD 0 || f.dlocal == 1) (fun p => lengthFault (p.sreg f.rlen))
    (fun x g p =>
      xferEntry x 0xC2 .castCore f g p (srcSide p f) 1 ((p.sreg f.rlen).extractLsb' 0 32).toNat 0 0
        (p.sreg (f.raux + 1) ++ p.sreg f.raux) (f.col == 1)))

/-- xcast.mod: the module mask is one register. -/
def execXcastMod (k : CoreId) (f : FmtQX) (s : State) : Host.Outcome State Fault Refusal :=
  .next (issueXfer s k 0xC3 f (xferIllegal f || f.dlocal == 1) (fun p => lengthFault (p.sreg f.rlen)) (fun x g p =>
    xferEntry x 0xC3 .castMod f g p (srcSide p f) 1 ((p.sreg f.rlen).extractLsb' 0 32).toNat 0 0
      ((p.sreg f.raux).setWidth 128) (f.col == 1)))

/-- The unused fields of a remote tally operation (R154). -/
def tallyXferIllegal (f : FmtQX) : Bool :=
  decide (f.resv ≠ 0) || decide (f.sseg ≠ 0) || decide (f.sadr ≠ 0) || decide (f.rlen ≠ 0) || decide (f.raux ≠ 0) ||
    decide (f.slocal ≠ 0) || decide (f.col ≠ 0) || badReg16 f.dadr || (f.dlocal == 1 && decide (f.dseg ≠ 0))

/-- xtly.signal. -/
def execXtlySignal (k : CoreId) (f : FmtQX) (s : State) : Host.Outcome State Fault Refusal :=
  .next (issueXfer s k 0xC8 f (tallyXferIllegal f) (fun _ => none) (fun x g p =>
    xferEntry x 0xC8 .signal f g p (.own 0) 0 0 0 0 0 false))

/-- xtly.take. -/
def execXtlyTake (k : CoreId) (f : FmtQX) (s : State) : Host.Outcome State Fault Refusal :=
  .next (issueXfer s k 0xC9 f (tallyXferIllegal f) (fun _ => none) (fun x g p =>
    xferEntry x 0xC9 .take f g p (.own 0) 0 0 0 0 0 false))

/-- TRANSFER_START: the oldest transfer not started, in issue order. `mismatch` is nature's. -/
def execTransferStart (k : CoreId) (mismatch : Option (BitVec 4)) (s : State) : Host.Outcome State Fault Refusal :=
  .next (s.atCrucible k.cru (fun x => (x.startXfer k mismatch).dropStale))

end Sys2Proof.Machine
end

