-- ==== Sys2Proof/Machine/Dispatch.lean ====
section
/-!
DEFINITION. What each command does: one arm for each row of spec/opcode_table.json, in its order.
-/
namespace Sys2Proof.Machine

def exec (i : Instr) (s : State) : Host.Outcome State Fault Refusal :=
  match i with
  | .add k f mismatch => Sys2Proof.Machine.execAdd k f mismatch s
  | .sub k f mismatch => Sys2Proof.Machine.execSub k f mismatch s
  | .andB k f mismatch => Sys2Proof.Machine.execAndB k f mismatch s
  | .orB k f mismatch => Sys2Proof.Machine.execOrB k f mismatch s
  | .xorB k f mismatch => Sys2Proof.Machine.execXorB k f mismatch s
  | .sll k f mismatch => Sys2Proof.Machine.execSll k f mismatch s
  | .srl k f mismatch => Sys2Proof.Machine.execSrl k f mismatch s
  | .sra k f mismatch => Sys2Proof.Machine.execSra k f mismatch s
  | .mul k f mismatch => Sys2Proof.Machine.execMul k f mismatch s
  | .mulhu k f mismatch => Sys2Proof.Machine.execMulhu k f mismatch s
  | .slt k f mismatch => Sys2Proof.Machine.execSlt k f mismatch s
  | .sltu k f mismatch => Sys2Proof.Machine.execSltu k f mismatch s
  | .seq k f mismatch => Sys2Proof.Machine.execSeq k f mismatch s
  | .addi k f mismatch => Sys2Proof.Machine.execAddi k f mismatch s
  | .andi k f mismatch => Sys2Proof.Machine.execAndi k f mismatch s
  | .ori k f mismatch => Sys2Proof.Machine.execOri k f mismatch s
  | .xori k f mismatch => Sys2Proof.Machine.execXori k f mismatch s
  | .slli k f mismatch => Sys2Proof.Machine.execSlli k f mismatch s
  | .srli k f mismatch => Sys2Proof.Machine.execSrli k f mismatch s
  | .srai k f mismatch => Sys2Proof.Machine.execSrai k f mismatch s
  | .li k f mismatch => Sys2Proof.Machine.execLi k f mismatch s
  | .lih k f mismatch => Sys2Proof.Machine.execLih k f mismatch s
  | .movAs k f mismatch => Sys2Proof.Machine.execMovAs k f mismatch s
  | .movSa k f mismatch => Sys2Proof.Machine.execMovSa k f mismatch s
  | .aaddi k f mismatch => Sys2Proof.Machine.execAaddi k f mismatch s
  | .aadd k f mismatch => Sys2Proof.Machine.execAadd k f mismatch s
  | .ldU8 k f mismatch => Sys2Proof.Machine.execLdU8 k f mismatch s
  | .ldU16 k f mismatch => Sys2Proof.Machine.execLdU16 k f mismatch s
  | .ldU32 k f mismatch => Sys2Proof.Machine.execLdU32 k f mismatch s
  | .ld64 k f mismatch => Sys2Proof.Machine.execLd64 k f mismatch s
  | .ldS8 k f mismatch => Sys2Proof.Machine.execLdS8 k f mismatch s
  | .ldS16 k f mismatch => Sys2Proof.Machine.execLdS16 k f mismatch s
  | .ldS32 k f mismatch => Sys2Proof.Machine.execLdS32 k f mismatch s
  | .ldA k f mismatch => Sys2Proof.Machine.execLdA k f mismatch s
  | .st8 k f => Sys2Proof.Machine.execSt8 k f s
  | .st16 k f => Sys2Proof.Machine.execSt16 k f s
  | .st32 k f => Sys2Proof.Machine.execSt32 k f s
  | .st64 k f => Sys2Proof.Machine.execSt64 k f s
  | .stA k f => Sys2Proof.Machine.execStA k f s
  | .beq k f => Sys2Proof.Machine.execBeq k f s
  | .bne k f => Sys2Proof.Machine.execBne k f s
  | .blt k f => Sys2Proof.Machine.execBlt k f s
  | .bge k f => Sys2Proof.Machine.execBge k f s
  | .bltu k f => Sys2Proof.Machine.execBltu k f s
  | .bgeu k f => Sys2Proof.Machine.execBgeu k f s
  | .jmp k f => Sys2Proof.Machine.execJmp k f s
  | .jal k f mismatch => Sys2Proof.Machine.execJal k f mismatch s
  | .jr k f => Sys2Proof.Machine.execJr k f s
  | .bdnz k f mismatch => Sys2Proof.Machine.execBdnz k f mismatch s
  | .illegalInstruction k w => Sys2Proof.Machine.execIllegalInstruction k w s
  | .tset k f mismatch => Sys2Proof.Machine.execTset k f mismatch s
  | .tbase k f mismatch => Sys2Proof.Machine.execTbase k f mismatch s
  | .trows k f mismatch => Sys2Proof.Machine.execTrows k f mismatch s
  | .tgetLo k f mismatch => Sys2Proof.Machine.execTgetLo k f mismatch s
  | .tgetHi k f mismatch => Sys2Proof.Machine.execTgetHi k f mismatch s
  | .tlySignal k f => Sys2Proof.Machine.execTlySignal k f s
  | .tlyWait k f => Sys2Proof.Machine.execTlyWait k f s
  | .waitTakesSignal k => Sys2Proof.Machine.execWaitTakesSignal k s
  | .tlyTake k f => Sys2Proof.Machine.execTlyTake k f s
  | .tlyInit k f => Sys2Proof.Machine.execTlyInit k f s
  | .tlyRead k f mismatch => Sys2Proof.Machine.execTlyRead k f mismatch s
  | .fence k f => Sys2Proof.Machine.execFence k f s
  | .fenceRelease k => Sys2Proof.Machine.execFenceRelease k s
  | .nop k f => Sys2Proof.Machine.execNop k f s
  | .haltCore k f => Sys2Proof.Machine.execHaltCore k f s
  | .trap k f => Sys2Proof.Machine.execTrap k f s
  | .stepStart k f => Sys2Proof.Machine.execStepStart k f s
  | .stepStartProceeds k => Sys2Proof.Machine.execStepStartProceeds k s
  | .rdCyc k f mismatch => Sys2Proof.Machine.execRdCyc k f mismatch s
  | .rdStep k f mismatch => Sys2Proof.Machine.execRdStep k f mismatch s
  | .rdSeq k f mismatch => Sys2Proof.Machine.execRdSeq k f mismatch s
  | .rdId k f mismatch => Sys2Proof.Machine.execRdId k f mismatch s
  | .queueSpaceIssue k => Sys2Proof.Machine.execQueueSpaceIssue k s
  | .tldW k f => Sys2Proof.Machine.execTldW k f s
  | .weightLoadStart k => Sys2Proof.Machine.execWeightLoadStart k s
  | .tmacI8 k f => Sys2Proof.Machine.execTmacI8 k f s
  | .tmacF8 k f => Sys2Proof.Machine.execTmacF8 k f s
  | .tmacBf16 k f => Sys2Proof.Machine.execTmacBf16 k f s
  | .tmacF16 k f => Sys2Proof.Machine.execTmacF16 k f s
  | .tmacF32 k f => Sys2Proof.Machine.execTmacF32 k f s
  | .tmacStreamStart k => Sys2Proof.Machine.execTmacStreamStart k s
  | .rowEntry k run => Sys2Proof.Machine.execRowEntry k run s
  | .tdrain k f => Sys2Proof.Machine.execTdrain k f s
  | .drainStart k mismatch => Sys2Proof.Machine.execDrainStart k mismatch s
  | .vaccRd k f => Sys2Proof.Machine.execVaccRd k f s
  | .vaccWr k f => Sys2Proof.Machine.execVaccWr k f s
  | .vbcast k f => Sys2Proof.Machine.execVbcast k f s
  | .vaddF32 k f => Sys2Proof.Machine.execVaddF32 k f s
  | .vsubF32 k f => Sys2Proof.Machine.execVsubF32 k f s
  | .vmulF32 k f => Sys2Proof.Machine.execVmulF32 k f s
  | .vfmaF32 k f => Sys2Proof.Machine.execVfmaF32 k f s
  | .vmaxF32 k f => Sys2Proof.Machine.execVmaxF32 k f s
  | .vminF32 k f => Sys2Proof.Machine.execVminF32 k f s
  | .vabsF32 k f => Sys2Proof.Machine.execVabsF32 k f s
  | .vnegF32 k f => Sys2Proof.Machine.execVnegF32 k f s
  | .vexp2F32 k f => Sys2Proof.Machine.execVexp2F32 k f s
  | .vlog2F32 k f => Sys2Proof.Machine.execVlog2F32 k f s
  | .vrcpF32 k f => Sys2Proof.Machine.execVrcpF32 k f s
  | .vrsqrtF32 k f => Sys2Proof.Machine.execVrsqrtF32 k f s
  | .vrowMax k f => Sys2Proof.Machine.execVrowMax k f s
  | .vrowSum k f => Sys2Proof.Machine.execVrowSum k f s
  | .vrowAmax k f => Sys2Proof.Machine.execVrowAmax k f s
  | .vldF32 k f => Sys2Proof.Machine.execVldF32 k f s
  | .vldBf16 k f => Sys2Proof.Machine.execVldBf16 k f s
  | .vldF16 k f => Sys2Proof.Machine.execVldF16 k f s
  | .vldE4m3 k f => Sys2Proof.Machine.execVldE4m3 k f s
  | .vldE5m2 k f => Sys2Proof.Machine.execVldE5m2 k f s
  | .vldI8 k f => Sys2Proof.Machine.execVldI8 k f s
  | .vstF32 k f => Sys2Proof.Machine.execVstF32 k f s
  | .vstBf16 k f => Sys2Proof.Machine.execVstBf16 k f s
  | .vstF16 k f => Sys2Proof.Machine.execVstF16 k f s
  | .vstE4m3 k f => Sys2Proof.Machine.execVstE4m3 k f s
  | .vstE5m2 k f => Sys2Proof.Machine.execVstE5m2 k f s
  | .vstI8 k f => Sys2Proof.Machine.execVstI8 k f s
  | .vectorOpStart k mismatch => Sys2Proof.Machine.execVectorOpStart k mismatch s
  | .xcopy k f => Sys2Proof.Machine.execXcopy k f s
  | .xcopy2d k f => Sys2Proof.Machine.execXcopy2d k f s
  | .xcastCore k f => Sys2Proof.Machine.execXcastCore k f s
  | .xcastMod k f => Sys2Proof.Machine.execXcastMod k f s
  | .xtlySignal k f => Sys2Proof.Machine.execXtlySignal k f s
  | .xtlyTake k f => Sys2Proof.Machine.execXtlyTake k f s
  | .transferStart k mismatch => Sys2Proof.Machine.execTransferStart k mismatch s
  | .packetInject c ix n => Sys2Proof.Machine.execPacketInject c ix n s
  | .completionSignal k q ix => Sys2Proof.Machine.execCompletionSignal k q ix s
  | .heldSignalApplied k q ix => Sys2Proof.Machine.execHeldSignalApplied k q ix s
  | .escapeTimeout c n => Sys2Proof.Machine.execEscapeTimeout c n s
  | .resendTimeout c ix n => Sys2Proof.Machine.execResendTimeout c ix n s
  | .resendQuietEnd c ix => Sys2Proof.Machine.execResendQuietEnd c ix s
  | .packetWrite c n run => Sys2Proof.Machine.execPacketWrite c n run s
  | .packetRead c n run => Sys2Proof.Machine.execPacketRead c n run s
  | .tallySignal c n p => Sys2Proof.Machine.execTallySignal c n p s
  | .tallyTake c n p => Sys2Proof.Machine.execTallyTake c n p s
  | .response c n p r => Sys2Proof.Machine.execResponse c n p r s
  | .readData c n p r => Sys2Proof.Machine.execReadData c n p r s
  | .urgentAck c n p => Sys2Proof.Machine.execUrgentAck c n p s
  | .urgentResend c ix => Sys2Proof.Machine.execUrgentResend c ix s
  | .portLossNotice c n p => Sys2Proof.Machine.execPortLossNotice c n p s
  | .portUpNotice c n p => Sys2Proof.Machine.execPortUpNotice c n p s
  | .epochStale c n p => Sys2Proof.Machine.execEpochStale c n p s
  | .stepReport c n p => Sys2Proof.Machine.execStepReport c n p s
  | .stepChecked c n p => Sys2Proof.Machine.execStepChecked c n p s
  | .replayStep c n p => Sys2Proof.Machine.execReplayStep c n p s
  | .drainQuietEnd => Sys2Proof.Machine.execDrainQuietEnd s
  | .drainedReport c n p => Sys2Proof.Machine.execDrainedReport c n p s
  | .resumeStep c n p => Sys2Proof.Machine.execResumeStep c n p s
  | .codewordReceived c n w => Sys2Proof.Machine.execCodewordReceived c n w s
  | .retryRequest c n number => Sys2Proof.Machine.execRetryRequest c n number s
  | .retryRequestTimeout c n => Sys2Proof.Machine.execRetryRequestTimeout c n s
  | .laneLockLoss c n lane => Sys2Proof.Machine.execLaneLockLoss c n lane s
  | .laneMarginal c n lane => Sys2Proof.Machine.execLaneMarginal c n lane s
  | .spareAdapted c n => Sys2Proof.Machine.execSpareAdapted c n s
  | .laneDrop c n lane switchPoint => Sys2Proof.Machine.execLaneDrop c n lane switchPoint s
  | .laneSwap c n lane switchPoint => Sys2Proof.Machine.execLaneSwap c n lane switchPoint s
  | .laneAck c n lane switchPoint => Sys2Proof.Machine.execLaneAck c n lane switchPoint s
  | .portDown c n => Sys2Proof.Machine.execPortDown c n s
  | .keepAlive c n switchPoint => Sys2Proof.Machine.execKeepAlive c n switchPoint s
  | .lockLoss c n => Sys2Proof.Machine.execLockLoss c n s
  | .detectSignal c n lanes => Sys2Proof.Machine.execDetectSignal c n lanes s
  | .detectTimeout c n => Sys2Proof.Machine.execDetectTimeout c n s
  | .exchangePage c n page => Sys2Proof.Machine.execExchangePage c n page s
  | .trainDone c n passed => Sys2Proof.Machine.execTrainDone c n passed s
  | .checkDone c n failed => Sys2Proof.Machine.execCheckDone c n failed s
  | .backoffExpiry c n => Sys2Proof.Machine.execBackoffExpiry c n s
  | .backoffReset c n => Sys2Proof.Machine.execBackoffReset c n s
  | .resumeOrderedSet c n => Sys2Proof.Machine.execResumeOrderedSet c n s
  | .resumeTimeout c n => Sys2Proof.Machine.execResumeTimeout c n s
  | .portEnable a c n value => Sys2Proof.Machine.execPortEnable a c n value s
  | .portRetrain a c n => Sys2Proof.Machine.execPortRetrain a c n s
  | .runCore a k startPc => Sys2Proof.Machine.execRunCore a k startPc s
  | .haltRequest a k => Sys2Proof.Machine.execHaltRequest a k s
  | .heldSignalDrop k => Sys2Proof.Machine.execHeldSignalDrop k s
  | .clearFault a k => Sys2Proof.Machine.execClearFault a k s
  | .clearingDone k => Sys2Proof.Machine.execClearingDone k s
  | .remapCommit a c => Sys2Proof.Machine.execRemapCommit a c s
  | .remapCommitPoint c => Sys2Proof.Machine.execRemapCommitPoint c s
  | .istoreCommit a c => Sys2Proof.Machine.execIstoreCommit a c s
  | .istoreCopy c => Sys2Proof.Machine.execIstoreCopy c s
  | .istoreCopyDone c => Sys2Proof.Machine.execIstoreCopyDone c s
  | .numCommit a c => Sys2Proof.Machine.execNumCommit a c s
  | .hbmRegCommit a c => Sys2Proof.Machine.execHbmRegCommit a c s
  | .hbmPmapCommit a c => Sys2Proof.Machine.execHbmPmapCommit a c s
  | .accountingWindow c => Sys2Proof.Machine.execAccountingWindow c s
  | .tallyXlatCommit a c x => Sys2Proof.Machine.execTallyXlatCommit a c x s
  | .tallyXlatCommitPoint c x => Sys2Proof.Machine.execTallyXlatCommitPoint c x s
  | .tallyForceCommit a c => Sys2Proof.Machine.execTallyForceCommit a c s
  | .fabCommit a c n => Sys2Proof.Machine.execFabCommit a c n s
  | .fabJobCommit a c => Sys2Proof.Machine.execFabJobCommit a c s
  | .jobSetCommitPoint c => Sys2Proof.Machine.execJobSetCommitPoint c s
  | .fabXrackCommit a c => Sys2Proof.Machine.execFabXrackCommit a c s
  | .resNoseCommit a c => Sys2Proof.Machine.execResNoseCommit a c s
  | .hangWinCommit a c => Sys2Proof.Machine.execHangWinCommit a c s
  | .storeReadRecord a => Sys2Proof.Machine.execStoreReadRecord a s
  | .storeReadHistory a => Sys2Proof.Machine.execStoreReadHistory a s
  | .storeAppendConfig a => Sys2Proof.Machine.execStoreAppendConfig a s
  | .shadowWrite a sp off v => Sys2Proof.Machine.execShadowWrite a sp off v s
  | .tallyCtxSel a k v => Sys2Proof.Machine.execTallyCtxSel a k v s
  | .tallyLogClear a c => Sys2Proof.Machine.execTallyLogClear a c s
  | .tallyWordRead a k ix => Sys2Proof.Machine.execTallyWordRead a k ix s
  | .resSigRead a k => Sys2Proof.Machine.execResSigRead a k s
  | .pwrAonRead a c => Sys2Proof.Machine.execPwrAonRead a c s
  | .popRecord a c => Sys2Proof.Machine.execPopRecord a c s
  | .forceHang a c => Sys2Proof.Machine.execForceHang a c s
  | .mcKick a c => Sys2Proof.Machine.execMcKick a c s
  | .fabE2eWrite a c v => Sys2Proof.Machine.execFabE2eWrite a c v s
  | .ethVlanWrite a h v => Sys2Proof.Machine.execEthVlanWrite a h v s
  | .pwrLimitWrite a v => Sys2Proof.Machine.execPwrLimitWrite a v s
  | .intervalWrite a c sillage v => Sys2Proof.Machine.execIntervalWrite a c sillage v s
  | .uePendingClear a c => Sys2Proof.Machine.execUePendingClear a c s
  | .eventSummaryClear a k => Sys2Proof.Machine.execEventSummaryClear a k s
  | .unassignedAccess a sp off width => Sys2Proof.Machine.execUnassignedAccess a sp off width s
  | .registerWrite a sp off v => Sys2Proof.Machine.execRegisterWrite a sp off v s
  | .hbmRead c src off ecc => Sys2Proof.Machine.execHbmRead c src off ecc s
  | .hbmWrite c src off data ecc => Sys2Proof.Machine.execHbmWrite c src off data ecc s
  | .patrolScrub c q ecc0 ecc1 => Sys2Proof.Machine.execPatrolScrub c q ecc0 ecc1 s
  | .identify m => Sys2Proof.Machine.execIdentify m s
  | .subscribe m => Sys2Proof.Machine.execSubscribe m s
  | .attest m => Sys2Proof.Machine.execAttest m s
  | .bankCommand m => Sys2Proof.Machine.execBankCommand m s
  | .wakeCommand m => Sys2Proof.Machine.execWakeCommand m s
  | .unknownOpcode m opcode => Sys2Proof.Machine.execUnknownOpcode m opcode s
  | .jobSet m => Sys2Proof.Machine.execJobSet m s
  | .setEpoch m => Sys2Proof.Machine.execSetEpoch m s
  | .setHealthMap m => Sys2Proof.Machine.execSetHealthMap m s
  | .setXrack m => Sys2Proof.Machine.execSetXrack m s
  | .takeOver m => Sys2Proof.Machine.execTakeOver m s
  | .takeoverCopyDone ok => Sys2Proof.Machine.execTakeoverCopyDone ok s
  | .defineWindow m => Sys2Proof.Machine.execDefineWindow m s
  | .deleteWindow m => Sys2Proof.Machine.execDeleteWindow m s
  | .defineRing m => Sys2Proof.Machine.execDefineRing m s
  | .ringCredit m => Sys2Proof.Machine.execRingCredit m s
  | .registerKernel m => Sys2Proof.Machine.execRegisterKernel m s
  | .submitGraph m => Sys2Proof.Machine.execSubmitGraph m s
  | .placementDone r => Sys2Proof.Machine.execPlacementDone r s
  | .stepCommand m => Sys2Proof.Machine.execStepCommand m s
  | .stopCommand m => Sys2Proof.Machine.execStopCommand m s
  | .storageTarget m connected blocks formatOk status => Sys2Proof.Machine.execStorageTarget m connected blocks formatOk status s
  | .ingot m => Sys2Proof.Machine.execIngot m s
  | .ingotStart => Sys2Proof.Machine.execIngotStart s
  | .restore m => Sys2Proof.Machine.execRestore m s
  | .ctrlRead m => Sys2Proof.Machine.execCtrlRead m s
  | .ctrlWrite m => Sys2Proof.Machine.execCtrlWrite m s
  | .updateWrite m => Sys2Proof.Machine.execUpdateWrite m s
  | .activate m => Sys2Proof.Machine.execActivate m s
  | .activationStart => Sys2Proof.Machine.execActivationStart s
  | .crucibleRestartDone c => Sys2Proof.Machine.execCrucibleRestartDone c s
  | .activationPauseTimeout part => Sys2Proof.Machine.execActivationPauseTimeout part s
  | .trialTimeout => Sys2Proof.Machine.execTrialTimeout s
  | .bankedEntered => Sys2Proof.Machine.execBankedEntered s
  | .wakeEnd late => Sys2Proof.Machine.execWakeEnd late s
  | .rdmaWrite f r => Sys2Proof.Machine.execRdmaWrite f r s
  | .rdmaWriteWithImmediate f r imm => Sys2Proof.Machine.execRdmaWriteWithImmediate f r imm s
  | .rdmaRead f r length => Sys2Proof.Machine.execRdmaRead f r length s
  | .dataQpSend f qp => Sys2Proof.Machine.execDataQpSend f qp s
  | .cmReq f r => Sys2Proof.Machine.execCmReq f r s
  | .cnp f qp => Sys2Proof.Machine.execCnp f qp s
  | .cnpRateIncrease h qp => Sys2Proof.Machine.execCnpRateIncrease h qp s
  | .pfcPause h priority pause => Sys2Proof.Machine.execPfcPause h priority pause s
  | .arp f target => Sys2Proof.Machine.execArp f target s
  | .neighbourDiscovery f target => Sys2Proof.Machine.execNeighbourDiscovery f target s
  | .icmpEcho f family target data => Sys2Proof.Machine.execIcmpEcho f family target data s
  | .unsupportedFrame h => Sys2Proof.Machine.execUnsupportedFrame h s
  | .nvmeCompletion f target command status data => Sys2Proof.Machine.execNvmeCompletion f target command status data s
  | .targetRdmaRead f extent => Sys2Proof.Machine.execTargetRdmaRead f extent s
  | .outputEntrySend ring => Sys2Proof.Machine.execOutputEntrySend ring s
  | .eventQueueSpace h space => Sys2Proof.Machine.execEventQueueSpace h space s
  | .portDieHalfFailure h => Sys2Proof.Machine.execPortDieHalfFailure h s
  | .computePhaseStart => Sys2Proof.Machine.execComputePhaseStart s
  | .gradientFinal tile => Sys2Proof.Machine.execGradientFinal tile s
  | .updatePhaseStart => Sys2Proof.Machine.execUpdatePhaseStart s
  | .checkPhaseEnd => Sys2Proof.Machine.execCheckPhaseEnd s
  | .riserCopyUnit c u => Sys2Proof.Machine.execRiserCopyUnit c u s
  | .riserWriteStall c off write => Sys2Proof.Machine.execRiserWriteStall c off write s
  | .noseRoundStart => Sys2Proof.Machine.execNoseRoundStart s
  | .noseRoundEnd => Sys2Proof.Machine.execNoseRoundEnd s
  | .sillageDigestDone => Sys2Proof.Machine.execSillageDigestDone s
  | .sillageCompare => Sys2Proof.Machine.execSillageCompare s
  | .sillageMissing => Sys2Proof.Machine.execSillageMissing s
  | .coreRetirement k => Sys2Proof.Machine.execCoreRetirement k s
  | .progressStall c units => Sys2Proof.Machine.execProgressStall c units s
  | .hangRecordComplete c => Sys2Proof.Machine.execHangRecordComplete c s
  | .hangRecordTimeout c => Sys2Proof.Machine.execHangRecordTimeout c s
  | .crucibleReturn c => Sys2Proof.Machine.execCrucibleReturn c s
  | .bootTimeout c => Sys2Proof.Machine.execBootTimeout c s
  | .standbyEntry slot => Sys2Proof.Machine.execStandbyEntry slot s
  | .pwrEnHigh => Sys2Proof.Machine.execPwrEnHigh s
  | .powerUpComplete => Sys2Proof.Machine.execPowerUpComplete s
  | .railFault => Sys2Proof.Machine.execRailFault s
  | .inputLost vin => Sys2Proof.Machine.execInputLost vin s
  | .inputOverVoltage vin => Sys2Proof.Machine.execInputOverVoltage vin s
  | .pwrEnLow => Sys2Proof.Machine.execPwrEnLow s
  | .powerDownComplete => Sys2Proof.Machine.execPowerDownComplete s
  | .vinWarn vin => Sys2Proof.Machine.execVinWarn vin s
  | .sysRstN slot => Sys2Proof.Machine.execSysRstN slot s
  | .temperatureSample t => Sys2Proof.Machine.execTemperatureSample t s
  | .thermTripRelease => Sys2Proof.Machine.execThermTripRelease s
  | .powerSample vin iin => Sys2Proof.Machine.execPowerSample vin iin s
  | .clearFaults => Sys2Proof.Machine.execClearFaults s
  | .statusWord => Sys2Proof.Machine.execStatusWord s
  | .readVin => Sys2Proof.Machine.execReadVin s
  | .readIin => Sys2Proof.Machine.execReadIin s
  | .readTemperature1 => Sys2Proof.Machine.execReadTemperature1 s
  | .readTemperature2 => Sys2Proof.Machine.execReadTemperature2 s
  | .readPin => Sys2Proof.Machine.execReadPin s
  | .pmbusRevision => Sys2Proof.Machine.execPmbusRevision s
  | .unsupportedPmbusCommand code => Sys2Proof.Machine.execUnsupportedPmbusCommand code s
  | .storeOpen => Sys2Proof.Machine.execStoreOpen s
  | .persistentRecord r => Sys2Proof.Machine.execPersistentRecord r s
  | .recordDurable ok => Sys2Proof.Machine.execRecordDurable ok s
  | .wearRecord => Sys2Proof.Machine.execWearRecord s
  | .storeDailyCheck bad => Sys2Proof.Machine.execStoreDailyCheck bad s
  | .portDieBoot => Sys2Proof.Machine.execPortDieBoot s
  | .crucibleBoot c => Sys2Proof.Machine.execCrucibleBoot c s
  | .alwaysOnDomainFailure => Sys2Proof.Machine.execAlwaysOnDomainFailure s
  | .ethLinkUp h => Sys2Proof.Machine.execEthLinkUp h s
  | .ethLinkDown h => Sys2Proof.Machine.execEthLinkDown h s
  | .roceAck f qp kind => Sys2Proof.Machine.execRoceAck f qp kind s
  | .roceAckTimeout h qp => Sys2Proof.Machine.execRoceAckTimeout h qp s
  | .sendWithoutReceiveBuffer f qp => Sys2Proof.Machine.execSendWithoutReceiveBuffer f qp s
  | .flashSectorDone ok => Sys2Proof.Machine.execFlashSectorDone ok s

end Sys2Proof.Machine
end

