-- ==== Sys2Proof/Machine/Tick.lean ====
section
/-!
DEFINITION. What happens while no command waits (log 10): a held command that may run does; else one always-on tick passes (R575), and
what is due by then is done.
-/
namespace Sys2Proof.Machine

/-- One tick of 40 ns of the token bucket: RATE GB/s, up to BURST KiB (R418). -/
def Xport.refill (t : Xport) : Xport :=
  { t with bucket := min (t.xrack.live.burst.toNat * 1024) (t.bucket + 40 * t.xrack.live.rate.toNat) }

/-- A tick at a non-zero throttle level: 25,000 of them are a millisecond of PWR_THROTTLE_MS (R572, R589). -/
def PowerBlock.countThrottle (p : PowerBlock) (level : BitVec 3) : PowerBlock :=
  if p.throttle level = 0 then p
  else if p.throttleTicks + 1 < 25000 then { p with throttleTicks := p.throttleTicks + 1 }
  else { p with throttleTicks := 0, throttleMs := satAdd p.throttleMs 1 }

/-- The 44 cycles of 1.1 GHz that pass in a tick, on the cycle counter of every core that is Running (R61). -/
def Crucible.countCycles (x : Crucible) : Crucible :=
  x.core.logi.foldl (fun (y : Crucible) (e : Nat × LogCore) =>
    if e.2.mode = .running ∧ e.1 < 500 then y.modPhys e.1 (fun p => { p with cyc := p.cyc + 44 }) else y) x

/-- The controller trains the stacks of a crucible that has been reset (R312, R331). -/
def Hbm.beginTraining (h : Hbm) : Hbm :=
  let begun := fun (t : StackStatus) => if t.state = 0 then { t with state := 1 } else t
  { h with stack0 := begun h.stack0, stack1 := begun h.stack1 }

/-- One tick of a crucible's always-on clock. -/
def Crucible.tick (x : Crucible) (level : BitVec 3) (powered : Bool) : Crucible :=
  let x := { x with pwr := { x.pwr with aon := x.pwr.aon + 1 } }
  if !powered then x
  else
    let x := { x with pwr := x.pwr.countThrottle level, xport := x.xport.refill }
    let x := if x.linkOn then { x with ports := x.ports.map (fun e => (e.1, e.2.stream)) } else x
    if x.live then x.countCycles
    else if x.service = .resetting then { x with hbm := x.hbm.beginTraining } else x

/-- One tick of the module. -/
def State.tick (s : State) : State :=
  let s := s.mapCrucibles (fun x => x.tick s.power.level s.power.mode.powered)
  { s with power := { s.power with aon := s.power.aon + 1 },
           boot := { s.boot with trial := s.boot.trial.map (fun n => n - 1) } }

/-- What the ports have due once their codewords have gone: lane changes, closings, and UC packets that waited for a port. -/
def State.settlePorts (s : State) : State :=
  cruList.foldl (fun s c =>
    let s := (((s.crucible c).ports.filter (fun e => !e.2.changes.isEmpty || e.2.closing)).map Prod.fst).foldl
      (fun s n => s.settlePort c (Fin.ofNat 16 n)) s
    if (s.crucible c).xport.ucWaits.isEmpty then s else s.retryUc c) s

/-- What is due: jobs whose crucibles are gone (R59), records that waited (R38), faults found (R495), what takes a placement's place (R303),
passes whose inputs are there (R260), chunks that may leave or have come (R255), transfers to and from storage (R529, R539), the confirmation
of a trial (R636), the end of an hour of the archive (R606). -/
def State.settle (s : State) : State := { s with store := s.store.closeHour s.power.aon }.settleJobs.sendRecords.gatherFaults.takeNext.tickPasses.tickReduce.pushIngot.pushRestore.tryConfirm

/-- A step with an empty queue. -/
def State.idle (s : State) : State :=
  if s.power.off then s
  else match s.runHeld with
    | some t => t
    | none => if s.portDieUp then s.tick.settlePorts.settle else s.tick.settlePorts

end Sys2Proof.Machine
end

