-- ==== Sys2Proof/Safety.lean ====
section
/-!
DEFINITION. The terms in which statements speak of a run: what one core holds, when it issues, what a command leaves unchanged, and the
invariants of the machine.
-/
namespace Sys2Proof.Machine

/-! ### Views of a state -/

/-- The physical core that logical core `k` is bound to (R98). -/
def State.phys (s : State) (k : CoreId) : PhysCore := (s.crucible k.cru).phys k.core.val

/-- The registers of logical core `k`. -/
def State.logi (s : State) (k : CoreId) : LogCore := (s.crucible k.cru).log k.core.val

/-- Core `k` issues: its crucible runs, it is Running and no instruction of it waits (R81, R84, R93). -/
def State.issues (s : State) (k : CoreId) : Prop := (s.crucible k.cru).canIssue k.core.val = true

/-- Core `k` issues, and the next instruction in sequence exists (R69). -/
def State.ready (s : State) (k : CoreId) : Prop := s.issues k ∧ (s.phys k).seqNext < 8192

/-! ### Frames -/

/-- From `s` to `t` nothing changes but core `k`: no other core, no memory outside it, no register of its crucible or of any other. -/
def OnlyCore (k : CoreId) (s t : State) : Prop :=
  ∃ P L, t = s.putCrucible k.cru { s.crucible k.cru with core := { (s.crucible k.cru).core with phys := P, logi := L } } ∧
    (∀ q, q ≠ (s.crucible k.cru).physIx k.core.val →
      Store.get physDefault P q = Store.get physDefault (s.crucible k.cru).core.phys q) ∧
    (∀ l, l ≠ k.core.val → Store.get logiDefault L l = Store.get logiDefault (s.crucible k.cru).core.logi l)

/-- From `s` to `t` nothing changes outside crucible `c`. -/
def OnlyCrucible (c : Cru) (s t : State) : Prop := t = s.putCrucible c (t.crucible c)

/-- From `s` to `t` nothing changes but what the transport layer and the ports of the crucibles hold, and what has been sent. -/
def FabricOnly (s t : State) : Prop :=
  t = { s with cru := t.cru, out := t.out } ∧
  ∀ c, t.crucible c = { s.crucible c with xport := (t.crucible c).xport, ports := (t.crucible c).ports,
                                          chooseLast := (t.crucible c).chooseLast }

/-- From `s` to `t` nothing changes but port `n` of crucible `c` and what has been sent. -/
def OnlyPort (c : Cru) (n : PortIx) (s t : State) : Prop :=
  t = { s.putCrucible c { s.crucible c with ports := (t.crucible c).ports } with out := t.out } ∧
  ∀ m, m ≠ n.val → (t.crucible c).port m = (s.crucible c).port m

/-! ### Packets -/

/-- Packet `p`, for crucible `d`, reaches it from port `n` of crucible `c` and passes checks 1 to 6 of R415. -/
def PassesAt (s : State) (c : Cru) (n : PortIx) (d : Cru) (p : Packet) : Prop :=
  s.reaches c n d = true ∧ (s.crucible d).xport.job.live.check p = .accept

/-- The same of a packet whose header names its crucible. -/
def Passes (s : State) (c : Cru) (n : PortIx) (p : Packet) : Prop := PassesAt s c n (packetTarget p c) p

/-- It is an urgent message of this type, and newer than what its slot holds (R425). -/
def News (s : State) (type : Byte) (c : Cru) (n : PortIx) (p : Packet) : Prop :=
  Passes s c n p ∧ p.kind = 0x20 ∧ p.aux = type.setWidth 32 ∧ (s.crucible (packetTarget p c)).xport.isNews p = true

/-! ### How a command ends -/

/-- `i` completes: it answers a next state of which `p` holds. -/
def Completes (i : Instr) (s : State) (p : State → Prop) : Prop := ∃ t, exec i s = .next t ∧ p t

/-- `i` issues on core `k` and executes: the core holds `p'` and `g'`, its program counter is `next`, its progress counter has
advanced (R542), and nothing else has changed. -/
def Retires (i : Instr) (k : CoreId) (s : State) (g' : LogCore) (p' : PhysCore) (next : Nat) : Prop :=
  Completes i s fun t =>
    t.phys k = { p' with pc := BitVec.ofNat 13 next } ∧
    t.logi k = { g' with waiting := none, progCore := g'.progCore + 1 } ∧ OnlyCore k s t

/-- `i` passes its checks and waits at issue: its core holds the wait, and nothing else has changed. -/
def Waits (i : Instr) (k : CoreId) (s : State) (w : Waiting) : Prop :=
  Completes i s fun t => t.phys k = s.phys k ∧ t.logi k = { s.logi k with waiting := some w } ∧ OnlyCore k s t

/-- `i` faults its core: issue has stopped, the operations that had not started are gone, the record names the fault and the core is
Faulted with its summary bit set (R105). No register of the core has changed, and nothing outside it but the note that its step is not
clean (R495). -/
def Faults (i : Instr) (k : CoreId) (s : State) (cause : Byte) (detail : W32) : Prop :=
  Completes i s fun t =>
    t.phys k = (s.phys k).dropUnstarted ∧
    t.logi k = { s.logi k with mode := .faulted, waiting := none, mgmtHalt := false, runWaiting := none,
                               fault := ⟨cause, srcScalar, false, (s.phys k).pc, detail⟩, faultOrder := issueOrder (s.phys k).step (s.phys k).seq,
                               faultAt := (s.crucible k.cru).pwr.aon, faultFlag := true, clearReq := false } ∧
    OnlyCore k (s.atCrucible k.cru (fun x => x.markUnclean (some (s.phys k).step.toNat))) t

/-- `i` answers the state it met. -/
def NoEffect (i : Instr) (s : State) : Prop := exec i s = .next s

/-! ### Host commands -/

/-- Frames reach the half, with the tagging it accepts (R436). -/
def Received (s : State) (f : Frame) : Prop := s.hears f.half = true ∧ f.vid = (s.halfAt f.half).vlan

/-- Between `s` and `t` half `h` sends the message; it waits there while its priority is paused (R438). -/
def Sent (s t : State) (h : HalfIx) (m : EthMsg) : Prop :=
  let k := (t.halfAt h).markOf m
  ((t.halfAt h).holdsBack k = false → t.out = s.out ++ [.eth h k m]) ∧
  ((t.halfAt h).holdsBack k = true → t.out = s.out ∧ ∃ n, (t.halfAt h).waits = (s.halfAt h).waits ++ [⟨k, n, m⟩])

/-- Half `h` has sent the message, or it waits there. -/
def Told (t : State) (h : HalfIx) (m : EthMsg) : Prop :=
  Out.eth h ((t.halfAt h).markOf m) m ∈ t.out ∨ ∃ n, Outgoing.mk ((t.halfAt h).markOf m) n m ∈ (t.halfAt h).waits

/-- The message `m` reaches the command engine on a command queue pair that works and has nothing outstanding, no packet of it was marked
CE, no earlier command is still to run, and the module's power state does not hold it (R444, R448). -/
def Taken (s : State) (m : CmdMsg) (r : AwayRule) : Prop :=
  Received s m.toFrame ∧ s.engineUp m.half = true ∧
  (∃ q, (s.halfAt m.half).qp m.qp = some q ∧ q.kind = .command ∧ q.error = false) ∧
  s.outstanding m.half m.qp = 0 ∧ s.holds r = false ∧ m.ce = false ∧ s.runHeld = none

/-- It also passes the checks of R446 that come before those of its own parameters. -/
def Sound (s : State) (m : CmdMsg) (op : W16) (fs : Fields) (r : AwayRule) : Prop :=
  Taken s m r ∧ malformed m fs = none ∧ (s.boot.mode = .recovery → servedInRecovery op = true) ∧ s.epochMismatch m = false

/-- From `s` to `t` the halves keep everything but their counters and what waits to be sent. -/
def CountsOnly (s t : State) : Prop :=
  ∀ h, t.halfAt h = { s.halfAt h with ethCount := (t.halfAt h).ethCount, cmdCount := (t.halfAt h).cmdCount, waits := (t.halfAt h).waits }

/-- From `s` to `t` nothing changes but counters of the halves and what has been sent. -/
def SentOnly (s t : State) : Prop := t = { s with out := t.out, half := t.half } ∧ CountsOnly s t

/-- `i` is answered at once: the response is sent, and `p` holds of the state after it. -/
def Answers (i : Instr) (m : CmdMsg) (op : W16) (s : State) (status : W16) (detail : W32) (away : BitVec 4) (body : List Byte)
    (p : State → Prop) : Prop :=
  Completes i s fun t => Sent s t m.half (.response m.qp (op ||| 0x8000) status m.tag detail away body) ∧ p t

/-- `i` is answered with an error, and has no other effect (R446). -/
def Rejects (i : Instr) (m : CmdMsg) (op : W16) (s : State) (status : W16) (detail : W32) (away : BitVec 4) : Prop :=
  Answers i m op s status detail away [] (SentOnly s)

/-- A range of a window whose crucible's HBM can be used. -/
def InWindow (s : State) (id off len : Nat) : Prop :=
  ∃ w, s.window id = some w ∧ off + len ≤ w.len ∧ (s.crucible w.cru).stores = true

/-- The bytes that the engine reads there. -/
def State.windowBytes (s : State) (id off len : Nat) : List Byte := (s.readWindow id off len).1

/-- The state once a command has been taken: its half has counted one command, and its frames. -/
def State.heard (s : State) (m : CmdMsg) : State :=
  s.modHalf m.half (fun h => (h.ethAdd 0 (frames (h.mtu m.qp) (32 + m.body.length))).cmdBump 0)

/-- An RDMA access of `n` bytes at `off` by this RKEY may use window `w`, which is no ring's: bit `right` of its ACCESS is 1, the range lies
in it, and its crucible can be reached (R442, R443). -/
def Usable (s : State) (h : HalfIx) (rkey : W32) (off n right : Nat) (w : Window) : Prop :=
  s.engineUp h = true ∧ s.host.windows.find? (fun v => v.rkey == rkey) = some w ∧ off + n ≤ w.len ∧ w.access.getLsbD right = true ∧
  (s.crucible w.cru).service ≠ .outOfService ∧ (s.crucible w.cru).stores = true ∧ s.power.mode = .on ∧ w.ring = none

/-- A queue pair of half `h` that works, while frames reach the half. -/
def Works (s : State) (h : HalfIx) (n : Nat) (q : Qp) : Prop :=
  s.hears h = true ∧ (s.halfAt h).qp n = some q ∧ q.error = false

end Sys2Proof.Machine
end

