-- ==== Sys2Proof/Certificates/Slice0/Obligations.lean ====
section
/-!
DEFINITION. The statements for the provers.
-/
open Sys2Proof Sys2Proof.Machine

/-! ### The queue of commands -/

/-- A step runs the command at the front of the queue on the state with the queue's rest; with no command waiting it is one idle step
(log 10). -/
def Obligations.StepRunsFrontCommand : Prop :=
  ∀ (s : State) (c : Instr) (rest : List Instr),
    step { s with pending := c :: rest } = exec c { s with pending := rest } ∧
    step { s with pending := [] } = .next (State.idle { s with pending := [] })

/-! ### Sirba cores: registers -/

/-- R62: s0 reads 0 and every write to it is discarded. Every other scalar register, every address register and every lane of a vector
register reads what was written to it last, and a write changes no other register. -/
def Obligations.RegisterFile : Prop :=
  ∀ (p : PhysCore) (i j : BitVec 5) (v : W64) (w : W48) (ws : List W32) (l : Nat),
    p.sreg 0 = 0 ∧ p.setS 0 v = p ∧
    (i ≠ 0 → (p.setS i v).sreg i = v) ∧ (j ≠ i → (p.setS i v).sreg j = p.sreg j) ∧
    (p.setA i w).areg i = w ∧ (j ≠ i → (p.setA i w).areg j = p.areg j) ∧
    (ws.length = 64 → l < 64 →
      (p.setLanes i 0 ws).lane i l = ws.getD l 0 ∧ (j ≠ i → (p.setLanes i 0 ws).lane j l = p.lane j l))

/-! ### Sirba cores: scalar instructions -/

/-- R127: the scalar arithmetic instructions and moves, without a mismatch in their unit (ScalarUnitMismatch has one). Each writes its one result and steps to the next instruction. -/
def Obligations.ScalarArithmetic : Prop :=
  ∀ (s : State) (k : CoreId) (f : FmtA), s.ready k → f.resv = 0 →
    let p := s.phys k
    let a := p.sreg f.ra
    let b := p.sreg f.rb
    let n := f.imm.toNat
    let sets (i : Instr) (v : W64) := Retires i k s (s.logi k) (p.setS f.rd v) p.seqNext
    let setsA (i : Instr) (v : W48) := Retires i k s (s.logi k) (p.setA f.rd v) p.seqNext
    (f.imm = 0 →
      sets (.add k f) (a + b) ∧ sets (.sub k f) (a - b) ∧ sets (.andB k f) (a &&& b) ∧ sets (.orB k f) (a ||| b) ∧
      sets (.xorB k f) (a ^^^ b) ∧ sets (.sll k f) (a <<< (b.toNat % 64)) ∧ sets (.srl k f) (a >>> (b.toNat % 64)) ∧
      sets (.sra k f) (a.sshiftRight (b.toNat % 64)) ∧ sets (.mul k f) (BitVec.ofNat 64 (a.toNat * b.toNat)) ∧
      sets (.mulhu k f) (BitVec.ofNat 64 (a.toNat * b.toNat / 2 ^ 64)) ∧
      sets (.slt k f) (if a.toInt < b.toInt then 1 else 0) ∧ sets (.sltu k f) (if a.toNat < b.toNat then 1 else 0) ∧
      sets (.seq k f) (if a = b then 1 else 0) ∧
      (f.rd.toNat < 16 → f.ra.toNat < 16 → setsA (.aadd k f) (p.areg f.ra + b.setWidth 48))) ∧
    (f.rb = 0 →
      sets (.addi k f) (a + f.imm.signExtend 64) ∧ sets (.andi k f) (a &&& f.imm.signExtend 64) ∧
      sets (.ori k f) (a ||| f.imm.signExtend 64) ∧ sets (.xori k f) (a ^^^ f.imm.signExtend 64) ∧
      (n < 64 → sets (.slli k f) (a <<< n) ∧ sets (.srli k f) (a >>> n) ∧ sets (.srai k f) (a.sshiftRight n)) ∧
      (f.ra = 0 → sets (.li k f) (f.imm.signExtend 64)) ∧ sets (.lih k f) (f.imm ++ a.setWidth 32) ∧
      (f.imm = 0 → f.rd.toNat < 16 → setsA (.movAs k f) (a.setWidth 48)) ∧
      (f.imm = 0 → f.ra.toNat < 16 → sets (.movSa k f) ((p.areg f.ra).setWidth 64)) ∧
      (f.rd.toNat < 16 → f.ra.toNat < 16 → setsA (.aaddi k f) (p.areg f.ra + f.imm.signExtend 48)))

/-- R128: the scratchpad loads and stores. At an aligned address below 0x100000 a load writes its one register; a store writes the low
bytes of its value, lowest address first, and no other byte of the scratchpad, no register and nothing outside the core. Any other
address is SCRATCH_ADDRESS; a field that names no register of its kind, or a reserved bit set, is ILLEGAL. R468, R470: a byte that a load
reads and that disagrees with its parity bit fails the re-read too, so the load is not completed and the core awaits its retirement. -/
def Obligations.ScratchpadLoadsAndStores : Prop :=
  ∀ (s : State) (k : CoreId) (f : FmtM), s.issues k →
    let p := s.phys k
    let a := (p.areg f.rb + f.imm.signExtend 48).toNat
    let bytes (n : Nat) := leNat (Memory.readBytes p.scratch a n)
    let access (i : Instr) (op : Byte) (size : Nat) (addrReg : Bool) (done : Prop) :=
      let fields := f.resv = 0 ∧ f.rb.toNat < 16 ∧ (addrReg = true → f.rt.toNat < 16)
      (¬fields → Faults i k s 0x01 (BitVec.setWidth 32 (instrWord op f.bits))) ∧
      (fields → p.seqNext < 8192 →
        (a < 0x100000 → a % size = 0 → done) ∧
        ((0x100000 ≤ a ∨ a % size ≠ 0) → Faults i k s 0x03 (BitVec.ofNat 32 a)))
    let checked (i : Instr) (size : Nat) (p' : PhysCore) :=
      (p.parityAgrees a size = true → Retires i k s (s.logi k) p' p.seqNext) ∧
      (p.parityAgrees a size = false → Completes i s fun t =>
        t.phys k = p ∧ (t.logi k).mode = (if p.queuesEmpty then .halted else .halting) ∧
        (t.logi k).retireDue = some ⟨0x0E, srcScalar, false, p.pc, BitVec.ofNat 32 p.seq⟩ ∧ OnlyCrucible k.cru s t)
    let loads (i : Instr) (op : Byte) (size : Nat) (v : W64) := access i op size false (checked i size (p.setS f.rt v))
    let stores (i : Instr) (op : Byte) (n : Nat) (addrReg : Bool) (v : Nat) :=
      access i op n addrReg (Completes i s fun t =>
        (∀ j, j < n → Memory.read (t.phys k).scratch (a + j) = BitVec.ofNat 8 (v / 256 ^ j)) ∧
        (∀ b, b < a ∨ a + n ≤ b → Memory.read (t.phys k).scratch b = Memory.read p.scratch b) ∧
        t.phys k = { p with pc := BitVec.ofNat 13 p.seqNext, scratch := (t.phys k).scratch, parity := (t.phys k).parity } ∧
        (t.phys k).parityAgrees a n = true ∧
        t.logi k = { s.logi k with waiting := none, progCore := (s.logi k).progCore + 1 } ∧ OnlyCore k s t)
    loads (.ldU8 k f) 0x20 1 (BitVec.ofNat 64 (bytes 1)) ∧ loads (.ldU16 k f) 0x21 2 (BitVec.ofNat 64 (bytes 2)) ∧
    loads (.ldU32 k f) 0x22 4 (BitVec.ofNat 64 (bytes 4)) ∧ loads (.ld64 k f) 0x23 8 (BitVec.ofNat 64 (bytes 8)) ∧
    loads (.ldS8 k f) 0x24 1 ((BitVec.ofNat 8 (bytes 1)).signExtend 64) ∧
    loads (.ldS16 k f) 0x25 2 ((BitVec.ofNat 16 (bytes 2)).signExtend 64) ∧
    loads (.ldS32 k f) 0x26 4 ((BitVec.ofNat 32 (bytes 4)).signExtend 64) ∧
    access (.ldA k f) 0x27 8 true (checked (.ldA k f) 8 (p.setA f.rt (BitVec.ofNat 48 (bytes 8)))) ∧
    stores (.st8 k f) 0x28 1 false (p.sreg f.rt).toNat ∧ stores (.st16 k f) 0x29 2 false (p.sreg f.rt).toNat ∧
    stores (.st32 k f) 0x2A 4 false (p.sreg f.rt).toNat ∧ stores (.st64 k f) 0x2B 8 false (p.sreg f.rt).toNat ∧
    stores (.stA k f) 0x2C 8 true (p.areg f.rt).toNat

/-- R129: the branches. A taken branch moves to its target, an untaken one to the next instruction and its target is not checked; jal
writes the index of the next instruction and bdnz the decremented count. A step or a target outside 0 to 8191 is PC_RANGE with that
index in DETAIL; a reserved field that is not 0 is ILLEGAL. -/
def Obligations.Branches : Prop :=
  ∀ (s : State) (k : CoreId) (f : FmtB), s.issues k →
    let p := s.phys k
    let a := p.sreg f.ra
    let b := p.sreg f.rb
    let goes (i : Instr) (op : Byte) (fields : Prop) (p' : PhysCore) (next : Nat) :=
      (¬(f.resv = 0 ∧ fields) → Faults i k s 0x01 (BitVec.setWidth 32 (instrWord op f.bits))) ∧
      (f.resv = 0 → fields →
        (next < 8192 → Retires i k s (s.logi k) p' next) ∧ (8192 ≤ next → Faults i k s 0x02 (BitVec.ofNat 32 next)))
    let branch (i : Instr) (op : Byte) (taken : Prop) [Decidable taken] :=
      goes i op True p (if taken then f.target.toNat else p.seqNext)
    branch (.beq k f) 0x30 (a = b) ∧ branch (.bne k f) 0x31 (a ≠ b) ∧ branch (.blt k f) 0x32 (a.toInt < b.toInt) ∧
    branch (.bge k f) 0x33 (b.toInt ≤ a.toInt) ∧ branch (.bltu k f) 0x34 (a.toNat < b.toNat) ∧
    branch (.bgeu k f) 0x35 (b.toNat ≤ a.toNat) ∧
    goes (.jmp k f) 0x36 (f.ra = 0 ∧ f.rb = 0) p f.target.toNat ∧
    goes (.jal k f) 0x37 (f.rb = 0) (p.setS f.ra (BitVec.ofNat 64 (p.pc.toNat + 1))) f.target.toNat ∧
    goes (.jr k f) 0x38 (f.rb = 0 ∧ f.target = 0) p a.toNat ∧
    goes (.bdnz k f) 0x39 (f.rb = 0) (p.setS f.ra (a - 1)) (if a - 1 ≠ 0 then f.target.toNat else p.seqNext)

/-- R130: the descriptor instructions. Each writes its one descriptor or register; an address of 0x100000 or above for tbase is
SCRATCH_ADDRESS, a row count of 65536 or above for trows COUNT_LIMIT, and a reserved field that is not 0 or a field that names no
register of its kind ILLEGAL. -/
def Obligations.DescriptorInstructions : Prop :=
  ∀ (s : State) (k : CoreId) (f : FmtD), s.issues k →
    let p := s.phys k
    let d := p.treg f.td
    let a := p.areg f.ra
    let n := p.sreg f.ra
    let does (i : Instr) (op : Byte) (fields : Prop) (bad : Option (Byte × W32)) (p' : PhysCore) :=
      (¬(f.resv = 0 ∧ f.td.toNat < 16 ∧ fields) → Faults i k s 0x01 (BitVec.setWidth 32 (instrWord op f.bits))) ∧
      (f.resv = 0 → f.td.toNat < 16 → fields → p.seqNext < 8192 →
        (bad = none → Retires i k s (s.logi k) p' p.seqNext) ∧ (∀ c v, bad = some (c, v) → Faults i k s c v))
    does (.tset k f) 0x40 True none (p.setT f.td (p.sreg f.rb ++ p.sreg f.ra)) ∧
    does (.tbase k f) 0x41 (f.rb = 0 ∧ f.ra.toNat < 16) (if a.toNat < 0x100000 then none else some (0x03, a.setWidth 32))
      (p.setT f.td (d.extractLsb' 20 108 ++ a.extractLsb' 0 20)) ∧
    does (.trows k f) 0x42 (f.rb = 0) (if n.toNat < 65536 then none else some (0x06, n.setWidth 32))
      (p.setT f.td (d.extractLsb' 48 80 ++ n.extractLsb' 0 16 ++ d.extractLsb' 0 32)) ∧
    does (.tgetLo k f) 0x43 (f.rb = 0) none (p.setS f.ra (d.extractLsb' 0 64)) ∧
    does (.tgetHi k f) 0x44 (f.rb = 0) none (p.setS f.ra (d.extractLsb' 64 64))

/-! ### Sirba cores: tally words, fence, system -/

/-- R131, R88, R334, R337, R339: the tally instructions on the word they name, whose COUNT, CAPACITY, FULL and VALUE are separate
fields, after what the cycles before them have done at that word (log 151: the model's choice). A tly.wait that finds COUNT 0 waits, and
takes one signal once COUNT is 1 or above. -/
def Obligations.TallyInstructions : Prop :=
  (∀ (w : W64) (n : Nat) (cap : Byte) (v : W32), n < 65536 →
    tallyCount (tallyPut w n) = n ∧ tallyCap (tallyPut w n) = tallyCap w ∧ tallyFull (tallyPut w n) = tallyFull w ∧
    (tallyPut w n).extractLsb' 0 32 = w.extractLsb' 0 32 ∧
    tallyFull (tallySetFull w) = true ∧ tallyCount (tallySetFull w) = tallyCount w ∧ tallyCap (tallySetFull w) = tallyCap w ∧
    tallyCount (tallyInitWord cap v) = 0 ∧ tallyCap (tallyInitWord cap v) = cap.toNat ∧ tallyFull (tallyInitWord cap v) = false ∧
    (tallyInitWord cap v).extractLsb' 0 32 = v) ∧
  ∀ (s : State) (k : CoreId) (f : FmtT) (w : Nat),
    let x := (s.crucible k.cru).settleWord k.core.val w
    let p := x.phys k.core.val
    let g := x.log k.core.val
    let v := p.tallyWord w
    (s.ready k → f.resv = 0 → tallyTarget (s.crucible k.cru).tally (s.logi k) f.tidx.toNat = some w →
      (f.rs = 0 → f.cap = 0 → tallyCount v < tallyCap v →
        Retires (.tlySignal k f) k s g (p.setTally w (tallyPut v (tallyCount v + 1))) p.seqNext) ∧
      (f.rs = 0 → f.cap = 0 → tallyCount v ≠ 0 →
        Retires (.tlyWait k f) k s g (p.setTally w (tallyPut v (tallyCount v - 1))) p.seqNext ∧
        Retires (.tlyTake k f) k s g (p.setTally w (tallyPut v (tallyCount v - 1))) p.seqNext) ∧
      (f.rs = 0 → f.cap = 0 → tallyCount v = 0 → Completes (.tlyWait k f) s fun t =>
        t.phys k = p ∧ t.logi k = { g with waiting := some (.tally w) } ∧ OnlyCore k s t) ∧
      Retires (.tlyInit k f) k s g (p.setTally w (tallyInitWord f.cap ((p.sreg f.rs).setWidth 32))) p.seqNext ∧
      (f.cap = 0 → Retires (.tlyRead k f) k s g (p.setS f.rs v) p.seqNext)) ∧
    ((s.phys k).firstHeld w = none → (s.logi k).waiting = none → x = s.crucible k.cru) ∧
    (let p := s.phys k
     let v := p.tallyWord w
     (s.crucible k.cru).live = true → (s.logi k).mode = .running → (s.logi k).waiting = some (.tally w) → tallyCount v ≠ 0 →
      Retires (.waitTakesSignal k) k s (s.logi k) (p.setTally w (tallyPut v (tallyCount v - 1))) p.seqNext)

/-- R133, R91, R135, R136, R211, R214: the fence and the system instructions. A fence waits until every operation queued before it has
completed and every packet of the core is resolved. A step instruction waits for empty queues, then loads the step register from
sS[47:0] and zeroes the sequence register; at the same time the counters of saturated and flushed elements move and clear, the
thresholds are taken and the mismatch count returns to 0. rd.cyc reads the cycle counter, which has advanced by a number of cycles that
the model leaves free (log 9: the model's choice); sS and the counter end equal. -/
def Obligations.FenceAndSystem : Prop :=
  ∀ (s : State) (k : CoreId) (f : FmtS) (e : FmtT) (v : W48),
    let x := s.crucible k.cru
    let p := s.phys k
    let g := s.logi k
    let begun (v : W48) := { p with step := v, seq := 0 }
    let counted := { g with satPrev := g.sat, flushPrev := g.flush, sat := 0, flush := 0, thr := x.num.regs.live, mismatches := 0 }
    let reads (i : Instr) (v : W64) := Retires i k s g (p.setS f.rs v) p.seqNext
    (s.ready k →
      (e.bits = 0 →
        (p.queuesDone = true → x.packetsResolved k.core.val = true → Retires (.fence k e) k s g p p.seqNext) ∧
        (¬(p.queuesDone = true ∧ x.packetsResolved k.core.val = true) → Waits (.fence k e) k s .fence)) ∧
      (f.bits = 0 → Retires (.nop k f) k s g p p.seqNext) ∧
      (f.resv = 0 → f.code = 0 →
        (p.tq = [] ∧ p.vq = [] ∧ p.xq = [] → Retires (.stepStart ⟨k, false⟩ f) k s counted (begun ((p.sreg f.rs).setWidth 48)) p.seqNext) ∧
        (¬(p.tq = [] ∧ p.vq = [] ∧ p.xq = []) → Waits (.stepStart ⟨k, false⟩ f) k s (.stepStart ((p.sreg f.rs).setWidth 48))) ∧
        reads (.rdStep k f) (p.step.setWidth 64) ∧
        (p.seq < 2 ^ 32 → reads (.rdSeq k f) (BitVec.ofNat 64 p.seq)) ∧
        reads (.rdId k f)
          (BitVec.ofNat 64 (x.xport.job.live.self.toNat * 2 ^ 20 + k.cru.val * 2 ^ 16 + k.core.val)) ∧
        (∃ d : Nat, Completes (.rdCyc k f) s fun t =>
          t.phys k = { ({ p with cyc := p.cyc + BitVec.ofNat 64 d } : PhysCore).setS f.rs (p.cyc + BitVec.ofNat 64 d)
                       with pc := BitVec.ofNat 13 p.seqNext } ∧
          t.logi k = { g with waiting := none, progCore := g.progCore + 1 } ∧
          OnlyCore k { s with freeCtr := s.freeCtr + 1 } t))) ∧
    (x.live = true → g.mode = .running → p.seqNext < 8192 →
      (g.waiting = some .fence → p.queuesDone = true → x.packetsResolved k.core.val = true →
        Retires (.fenceRelease k) k s g p p.seqNext) ∧
      (g.waiting = some (.stepStart v) → p.tq = [] ∧ p.vq = [] ∧ p.xq = [] →
        Retires (.stepStartProceeds ⟨k, false⟩) k s counted (begun v) p.seqNext))

/-- R95, R105, R119, R120, R135: halt stops issue with the program counter on it, and a core with empty queues is then Halted; trap takes
the fault TRAP with its code in DETAIL; a word that is undefined or has a reserved bit set is ILLEGAL, with its low 32 bits in DETAIL. -/
def Obligations.HaltTrapIllegal : Prop :=
  ∀ (s : State) (k : CoreId) (f : FmtS) (w : W64), s.issues k →
    (f.bits = 0 → Completes (.haltCore k f) s fun t =>
      t.phys k = s.phys k ∧
      t.logi k = { s.logi k with waiting := none, mgmtHalt := false,
                                 mode := if (s.phys k).queuesEmpty then .halted else .halting } ∧ OnlyCore k s t) ∧
    (f.resv = 0 → f.rs = 0 → Faults (.trap k f) k s 0x0F (f.code.setWidth 32)) ∧
    (illegalWord w = true → Faults (.illegalInstruction k w) k s 0x01 (w.setWidth 32))

/-- R467 to R470: a mismatch in the scalar unit, which the commands of instructions that write a register carry (log 96). The first of
a step is repeated: the instruction has the effect it has without one, and the mismatch is counted and recorded with the sequence
register. At the second the instruction is not completed: the core halts, no register of it changes, and a RETIRE_REQUEST record is
appended; the core awaits its retirement with RESIDUE_RETIRE. A command whose instruction writes no register meets no mismatch. R471: a
step instruction that is repeated returns the count to 0. -/
def Obligations.ScalarUnitMismatch : Prop :=
  ∀ (s t : State) (k : CoreId) (a : FmtA) (m : FmtM) (b : FmtB) (d : FmtD) (e : FmtT) (f : FmtS) (i : Bool → Instr),
    let ofStep : List (Bool → Instr) := [fun b => .stepStart ⟨k, b⟩ f, fun b => .stepStartProceeds ⟨k, b⟩]
    let left (n : BitVec 2) : BitVec 2 := if (∀ b, i b = .stepStart ⟨k, b⟩ f) ∨ (∀ b, i b = .stepStartProceeds ⟨k, b⟩) then 0 else n
    i ∈ ofStep ++ [(.add k a ·), (.sub k a ·), (.andB k a ·), (.orB k a ·), (.xorB k a ·), (.sll k a ·), (.srl k a ·), (.sra k a ·),
      (.mul k a ·), (.mulhu k a ·), (.slt k a ·), (.sltu k a ·), (.seq k a ·), (.addi k a ·), (.andi k a ·), (.ori k a ·),
      (.xori k a ·), (.slli k a ·), (.srli k a ·), (.srai k a ·), (.li k a ·), (.lih k a ·), (.movAs k a ·), (.movSa k a ·),
      (.aaddi k a ·), (.aadd k a ·), (.ldU8 k m ·), (.ldU16 k m ·), (.ldU32 k m ·), (.ld64 k m ·), (.ldS8 k m ·), (.ldS16 k m ·),
      (.ldS32 k m ·), (.ldA k m ·), (.jal k b ·), (.bdnz k b ·), (.tset k d ·), (.tbase k d ·), (.trows k d ·), (.tgetLo k d ·),
      (.tgetHi k d ·), (.tlyRead k e ·), (.rdCyc k f ·), (.rdStep k f ·), (.rdSeq k f ·), (.rdId k f ·)] →
    exec (i false) s = .next t →
    let x := s.crucible k.cru
    let p := s.phys k
    let g := s.logi k
    let old := x.physIx k.core.val
    let record (type : BitVec 4) : FaultRec :=
      ⟨p.step, type, 6, BitVec.ofNat 10 old, BitVec.ofNat 9 k.core.val, BitVec.ofNat 32 p.seq⟩
    let counted (u : State) (n : BitVec 2) (type : BitVec 4) : Prop :=
      (u.logi k).mismatches = n ∧
      (u.crucible k.cru).res.physTotal =
        Store.set zero16 x.res.physTotal old (satAdd (Store.get zero16 x.res.physTotal old) 1) ∧
      (x.res.records.length < 64 → (u.crucible k.cru).res.records = x.res.records ++ [record type])
    ((t.logi k).progCore = g.progCore → exec (i true) s = .next t) ∧
    ((t.logi k).progCore ≠ g.progCore → g.mismatches = 0 →
      Completes (i true) s fun u =>
        counted u (left 1) 1 ∧ u.phys k = t.phys k ∧ u.logi k = { t.logi k with mismatches := left 1 } ∧ OnlyCrucible k.cru t u) ∧
    ((t.logi k).progCore ≠ g.progCore → g.mismatches ≠ 0 →
      Completes (i true) s fun u =>
        counted u (if g.mismatches = 1 then 2 else g.mismatches) 3 ∧ u.phys k = p ∧
        (u.logi k).mode = (if p.queuesEmpty then .halted else .halting) ∧ (u.logi k).waiting = none ∧
        (u.logi k).retireDue = some ⟨0x0E, srcScalar, false, p.pc, BitVec.ofNat 32 p.seq⟩ ∧ OnlyCrucible k.cru s u)

/-! ### Sirba cores: entering the queues -/

/-- R81, R83, R84, R92, R138, R139, R140, R144: a tensor instruction whose fields, descriptor, rows and sequence number pass enters the
tensor queue with the next sequence number, or waits at issue while the queue holds 16 entries. -/
def Obligations.TensorInstructionsEnterQueue : Prop :=
  ∀ (s : State) (k : CoreId) (f : FmtQT), s.ready k → f.resv = 0 → f.ta.toNat < 16 →
    let x := s.crucible k.cru
    let p := s.phys k
    let g := s.logi k
    let d := p.treg f.ta
    let start := (p.sreg f.rrow + f.rowoff.setWidth 64).toNat
    let noWork := descEmpty d || p.lastLoad.k == 0 || p.lastLoad.n == 0
    let enters (i : Instr) (e : TensorEntry) :=
      (p.tq.length < 16 → Retires i k s g (p.pushTensor e) p.seqNext) ∧ (16 ≤ p.tq.length → Waits i k s (.tensor e))
    let mac (i : Instr) (op : Byte) (m : MacKind) :=
      macX m (descFormat d) = true → macW m p.lastLoad.format p.lastLoad.aux = true →
        enters i (tensorEntry x.tally g p f op (.mac m) start p.lastLoad.id noWork)
    tallyFieldFault x.tally g f.tally = none → badDesc d = false → p.seq < 2 ^ 32 →
    ¬(is4Bit (descFormat d) = true ∧ descTranspose d = true) →
    (f.rrow = 0 → f.rowoff = 0 → f.as = 0 → f.flags = 0 → logicalRows d ≤ 32 → logicalCols d ≤ 64 → badAux d = false →
      (descEmpty d = true ∨ descAuxBase d + auxBytes d ≤ 0x100000) →
      enters (.tldW k f) (tensorEntry x.tally g p f 0x80 .load 0 (p.lastLoad.id + 1) (descEmpty d))) ∧
    (f.as = 0 → f.flags.extractLsb' 0 7 = 0 → logicalRows d ≤ 512 → logicalCols d = p.lastLoad.k →
      (noWork = true ∨ start ≤ 511 ∧ start + logicalRows d ≤ 512) →
      mac (.tmacI8 k f) 0x81 .i8 ∧ mac (.tmacF8 k f) 0x82 .f8 ∧ mac (.tmacBf16 k f) 0x83 .bf16 ∧ mac (.tmacF16 k f) 0x84 .f16 ∧
      mac (.tmacF32 k f) 0x85 .f32) ∧
    (drainIllegal f d = false → descTranspose d = false → descRows d ≤ 512 → descCols d ≤ 64 →
      descFormat d ≠ 3 → descFormat d ≠ 4 → descFormat d ≠ 9 →
      ((descEmpty d = true ∨ start ≤ 511 ∧ start + descRows d ≤ 512) →
        (flagStats f.flags = false ∧ flagScale f.flags = false ∧ flagBscaled f.flags = false ∨ descEmpty d = true ∨
          (p.areg f.as).toNat < 0x100000 ∧ (p.areg f.as).toNat + asBytes f.flags d ≤ 0x100000 ∧
            (flagStats f.flags = true → (p.areg f.as).toNat % 4 = 0)) →
        enters (.tdrain k f) (tensorEntry x.tally g p f 0x88 .drain start p.lastLoad.id (descEmpty d))))

/-- R81, R83, R84, R92, R145, R147: a vector instruction whose fields, row or address and sequence number pass enters the vector queue
with the next sequence number, or waits at issue while the queue holds 16 entries. -/
def Obligations.VectorInstructionsEnterQueue : Prop :=
  ∀ (s : State) (k : CoreId) (f : FmtQV), s.ready k → f.resv = 0 →
    let x := s.crucible k.cru
    let p := s.phys k
    let g := s.logi k
    let row := (p.sreg f.va + f.imm.setWidth 64).toNat
    let adr := (p.areg f.va + f.imm.setWidth 48).toNat
    let enters (i : Instr) (op : Byte) (at_ : Nat) :=
      let e := vectorEntry x.tally g p op f at_
      (p.vq.length < 16 → Retires i k s g (p.pushVector e) p.seqNext) ∧ (16 ≤ p.vq.length → Waits i k s (.vector e))
    let two (i : Instr) (op : Byte) := f.imm = 0 → f.vb = 0 → f.vc = 0 → enters i op 0
    let three (i : Instr) (op : Byte) := f.imm = 0 → f.vc = 0 → enters i op 0
    let memory (i : Instr) (op : Byte) (size : Nat) :=
      f.va.toNat < 16 → adr < 0x100000 → adr % size = 0 → enters i op adr
    tallyFieldFault x.tally g f.tally = none → p.seq < 2 ^ 32 →
    (f.sr = 0 →
      (f.imm.toNat < 1024 → f.vb = 0 → row ≤ 511 →
        (f.vc = 0 → enters (.vaccRd k f) 0xA0 row) ∧ (f.vd = 0 → enters (.vaccWr k f) 0xA1 row)) ∧
      two (.vbcast k f) 0xA2 ∧ three (.vaddF32 k f) 0xA8 ∧ three (.vsubF32 k f) 0xA9 ∧ three (.vmulF32 k f) 0xAA ∧
      (f.imm = 0 → enters (.vfmaF32 k f) 0xAB 0) ∧ three (.vmaxF32 k f) 0xAC ∧ three (.vminF32 k f) 0xAD ∧
      two (.vabsF32 k f) 0xAE ∧ two (.vnegF32 k f) 0xAF ∧ two (.vexp2F32 k f) 0xB0 ∧ two (.vlog2F32 k f) 0xB1 ∧
      two (.vrcpF32 k f) 0xB2 ∧ two (.vrsqrtF32 k f) 0xB3 ∧ two (.vrowMax k f) 0xB8 ∧ two (.vrowSum k f) 0xB9 ∧
      two (.vrowAmax k f) 0xBA ∧
      (f.vb = 0 → f.vc = 0 →
        memory (.vldF32 k f) 0x90 256 ∧ memory (.vldBf16 k f) 0x91 128 ∧ memory (.vldF16 k f) 0x92 128 ∧
        memory (.vldE4m3 k f) 0x93 64 ∧ memory (.vldE5m2 k f) 0x94 64 ∧ memory (.vldI8 k f) 0x95 64) ∧
      (f.vd = 0 → f.vb = 0 → memory (.vstF32 k f) 0x98 256)) ∧
    (f.vd = 0 → f.vb = 0 →
      memory (.vstBf16 k f) 0x99 128 ∧ memory (.vstF16 k f) 0x9A 128 ∧ memory (.vstE4m3 k f) 0x9B 64 ∧
      memory (.vstE5m2 k f) 0x9C 64 ∧ memory (.vstI8 k f) 0x9D 64)

/-- R81, R83, R84, R92, R148, R149, R152, R153, R154: a transfer instruction whose fields, ranges, length and sequence number pass enters
the transfer queue with the next sequence number, or waits at issue while the queue holds 64 entries. -/
def Obligations.TransferInstructionsEnterQueue : Prop :=
  ∀ (s : State) (k : CoreId) (f : FmtQX), s.ready k → f.resv = 0 → f.dadr.toNat < 16 → (f.dlocal = 1 → f.dseg = 0) →
    let x := s.crucible k.cru
    let p := s.phys k
    let g := s.logi k
    let n := p.sreg f.rlen
    let t := p.sreg f.raux
    let len := (n.extractLsb' 0 32).toNat
    let src : Side :=
      if f.slocal = 1 then .own ((p.areg f.sadr).setWidth 22) else .global (formAddr (p.sreg f.sseg) (p.areg f.sadr))
    let enters (i : Instr) (e : XferEntry) :=
      x.addrFault k e = none →
      (p.xq.length < 64 → Retires i k s g (p.pushXfer e) p.seqNext) ∧ (64 ≤ p.xq.length → Waits i k s (.xfer e))
    tallyFieldFault x.tally g f.tally = none → p.seq < 2 ^ 32 →
    (f.sadr.toNat < 16 → (f.slocal = 1 → f.sseg = 0) →
      enters (.xcopy2d k f) (xferEntry x 0xC1 .copy2d f g p src (n.extractLsb' 32 32).toNat len (t.extractLsb' 32 32).toNat
        (t.extractLsb' 0 32).toNat 0 (f.col == 1)) ∧
      (n.extractLsb' 32 32 = 0 →
        (f.raux = 0 → enters (.xcopy k f) (xferEntry x 0xC0 .copy f g p src 1 len 0 0 0 (f.col == 1))) ∧
        (f.dlocal = 0 → f.raux.toNat % 2 = 0 →
          enters (.xcastCore k f) (xferEntry x 0xC2 .castCore f g p src 1 len 0 0 (p.sreg (f.raux + 1) ++ t) (f.col == 1))) ∧
        (f.dlocal = 0 →
          enters (.xcastMod k f) (xferEntry x 0xC3 .castMod f g p src 1 len 0 0 (t.setWidth 128) (f.col == 1))))) ∧
    (f.sseg = 0 → f.sadr = 0 → f.rlen = 0 → f.raux = 0 → f.slocal = 0 → f.col = 0 →
      enters (.xtlySignal k f) (xferEntry x 0xC8 .signal f g p (.own 0) 0 0 0 0 0 false) ∧
      enters (.xtlyTake k f) (xferEntry x 0xC9 .take f g p (.own 0) 0 0 0 0 0 false))

/-- R84: an instruction that waits for space issues once its queue has an entry free, takes its place at the queue's end and the next
sequence number. -/
def Obligations.WaitingInstructionIssues : Prop :=
  ∀ (s : State) (k : CoreId),
    let p := s.phys k
    let g := s.logi k
    (s.crucible k.cru).live = true → g.mode = .running →
    (∀ e, g.waiting = some (.tensor e) → p.tq.length < 16 →
      Retires (.queueSpaceIssue k) k s g (p.pushTensor e) p.seqNext) ∧
    (∀ e, g.waiting = some (.vector e) → p.vq.length < 16 →
      Retires (.queueSpaceIssue k) k s g (p.pushVector e) p.seqNext) ∧
    (∀ e, g.waiting = some (.xfer e) → p.xq.length < 64 →
      Retires (.queueSpaceIssue k) k s g (p.pushXfer e) p.seqNext)

/-- R105, R124: a word with several faults takes the first in the order of R124; here, for a tensor instruction, a reserved bit comes
before a bad tally field, that before a step past the last index, that before a bad descriptor, that before a bad row, and the count
limit comes last. -/
def Obligations.FaultOrder : Prop :=
  ∀ (s : State) (k : CoreId) (f : FmtQT) (v : W32), s.issues k →
    let p := s.phys k
    let tb := (s.crucible k.cru).tally
    let d := p.treg f.ta
    let start := startRow p f
    let fields := f.resv = 0 ∧ f.as = 0 ∧ f.flags.extractLsb' 0 7 = 0 ∧ f.ta.toNat < 16
    (¬fields → Faults (.tmacI8 k f) k s 0x01 (BitVec.setWidth 32 (instrWord 0x81 f.bits))) ∧
    (fields → tallyFieldFault tb (s.logi k) f.tally = some v → Faults (.tmacI8 k f) k s 0x07 v) ∧
    (fields → tallyFieldFault tb (s.logi k) f.tally = none →
      (p.pc.toNat = 8191 → Faults (.tmacI8 k f) k s 0x02 8192) ∧
      (p.pc.toNat < 8191 →
        (badDesc d = true → Faults (.tmacI8 k f) k s 0x05 (f.ta.setWidth 32)) ∧
        (badDesc d = false → logicalRows d ≤ 512 → logicalCols d = p.lastLoad.k → descFormat d = 0 → p.lastLoad.format = 0 →
          descEmpty d = false → p.lastLoad.k ≠ 0 → p.lastLoad.n ≠ 0 →
          ((start > 511 ∨ start + logicalRows d > 512) → Faults (.tmacI8 k f) k s 0x04 (BitVec.ofNat 32 start)) ∧
          (start ≤ 511 → start + logicalRows d ≤ 512 → p.seq = 2 ^ 32 → Faults (.tmacI8 k f) k s 0x06 0))))

/-! ### Sirba cores: the queues at work -/

/-- R159, R160, R161, R163, R166: the oldest weight load, not started and first in its queue, makes its accesses and fills the standby set
from its tile; here all of them before the next command. A stream that may start activates the set it was issued for, if that stands by,
and the standby set becomes free. R468, R469: an access whose check fails leaves the set as it was; the mismatch is counted. -/
def Obligations.WeightLoadAndStreamStart : Prop :=
  ∀ (s : State) (k : CoreId) (before : List TensorEntry) (e : TensorEntry) (u : BitVec 4),
    let p := s.phys k
    let d := e.desc
    (s.crucible k.cru).live = true →
    (findEntry (fun e => e.isLoad && e.open_) [] p.tq = some (before, e) → before = [] → e.phase = .queued → e.rowsDone = 0 →
      ((∀ i, i < loadAccesses d → p.loadAgrees d (loadAccess d i) = true) →
        Completes (.weightLoadStart ⟨k, none, none⟩) s fun t =>
          t.phys k = { p with tq := listSet p.tq 0 { e with phase := .complete, rowsDone := loadAccesses d, rowBuf := [] },
                              standby := (t.phys k).standby, standbyFull := true } ∧
          (t.phys k).standby.id = e.loadId ∧ (t.phys k).standby.k = logicalRows d ∧ (t.phys k).standby.n = logicalCols d ∧
          (t.phys k).standby.format = descFormat d ∧ (t.phys k).standby.aux = descAuxMode d ∧
          (descAuxMode d = 0 → ∀ i j, i < logicalRows d → j < logicalCols d → logicalCols d ≤ 64 →
            Store.get zero32 (t.phys k).standby.cells (64 * i + j) = BitVec.ofNat 32 (tileAt p.scratch d i j)) ∧
          OnlyCore k s t) ∧
      (loadAccesses d ≠ 0 → (s.logi k).mismatches = 0 →
        Completes (.weightLoadStart ⟨k, some 0, some u⟩) s fun t =>
          t.phys k = { p with tq := (t.phys k).tq } ∧ (t.logi k).mismatches = 1 ∧ (t.logi k).mode = (s.logi k).mode ∧
          OnlyCrucible k.cru s t)) ∧
    (findEntry (fun e => e.isMac && e.phase == .queued) [] p.tq = some (before, e) →
      (∀ b ∈ before, b.phase = .complete ∨ b.phase = .held) →
      Completes (.tmacStreamStart k) s fun t =>
        t.logi k = s.logi k ∧ OnlyCore k s t ∧
        t.phys k = { p with tq := listSet p.tq before.length { e with phase := .running }, active := (t.phys k).active,
                            standby := (t.phys k).standby, standbyFull := (t.phys k).standbyFull } ∧
        (p.standbyFull = true → p.standby.id = e.loadId →
          (t.phys k).active = p.standby ∧ (t.phys k).standbyFull = false) ∧
        (¬(p.standbyFull = true ∧ p.standby.id = e.loadId) →
          (t.phys k).active = p.active ∧ (t.phys k).standby = p.standby ∧ (t.phys k).standbyFull = p.standbyFull))

/-- R139, R156, R164, R171, R192: a row that enters is summed with what its accumulator row holds at that moment; the oldest row in the
chain is written to its accumulator row, columns 0 to N − 1, and every other accumulator word is unchanged; after its last row the tmac
is complete. A row may enter and be written with no command between. R172, R466, R468, R469: a row whose first check fails is not
written; it and the rows behind it leave the chain and the mismatch is counted. -/
def Obligations.RowEntryWritesItsRow : Prop :=
  ∀ (s : State) (k : CoreId) (before : List TensorEntry) (e : TensorEntry) (kind : MacKind) (u : BitVec 4) (w : ChainRow)
      (ws : List ChainRow),
    let p := s.phys k
    let r := e.row + e.rowsDone
    let n := p.active.n
    let row := if e.rowBuf = [] then operandRow p.scratch e.desc e.rowsDone else e.rowBuf.headD []
    let sum (i : Nat) := (chainWord kind (descFormat e.desc) p.active row (if flagZero e.flags then 0 else p.accWord r i) i).1
    let writes (run : RowRun) (v : Nat → W32) (m : Nat) := Completes (.rowEntry k run) s fun t =>
      (∀ i, i < m → (t.phys k).accWord r i = v i) ∧
      (∀ i, i < 64 * r ∨ 64 * r + m ≤ i → Store.get zero32 (t.phys k).acc i = Store.get zero32 p.acc i) ∧
      (∃ e', t.phys k = { p with acc := (t.phys k).acc, accRes := (t.phys k).accRes, tq := listSet p.tq before.length e' } ∧
        e'.rowsDone = e.rowsDone + 1 ∧ e'.chain = e.chain.tail ∧
        e'.phase = (if e.rowsDone + 1 = logicalRows e.desc then Phase.complete else .running)) ∧ OnlyCore k s t
    let fails (run : RowRun) := Completes (.rowEntry k run) s fun t =>
      t.phys k = { p with tq := (t.phys k).tq } ∧ (t.phys k).tq.length = p.tq.length ∧ (t.logi k).mismatches = 1 ∧
      (∀ e', (t.phys k).tq[before.length]? = some e' → e'.chain = [] ∧ e'.rowsDone = e.rowsDone) ∧
      (t.logi k).mode = (s.logi k).mode ∧ OnlyCrucible k.cru s t
    (s.crucible k.cru).live = true → e.op = .mac kind →
    findEntry (fun e => e.isMac && e.phase == .running) [] p.tq = some (before, e) → rowHeld before r = false →
    e.rowsDone < logicalRows e.desc → n ≤ 64 →
    (e.chain = [] →
      ((e.rowBuf = [] → p.operandAgrees e.desc e.rowsDone = true) →
        (p.rowAgrees kind e row r = true → writes .whole sum n) ∧
        Completes (.rowEntry k .enter) s (fun t =>
          ∃ e' c, t.phys k = { p with tq := listSet p.tq before.length e' } ∧ e'.chain = [c] ∧ e'.rowsDone = e.rowsDone ∧
            c.words.length = n ∧ (∀ i, i < n → (c.words.map Prod.fst).getD i 0 = sum i) ∧
            c.agreed = p.rowAgrees kind e row r ∧ t.logi k = s.logi k ∧ OnlyCore k s t)) ∧
      ((s.logi k).mismatches = 0 →
        (e.rowBuf = [] → p.operandAgrees e.desc e.rowsDone = false → fails .whole ∧ fails .enter) ∧ fails (.fail u))) ∧
    (e.chain = w :: ws → w.words.length ≤ 64 →
      (w.agreed = true → writes .write (fun i => (w.words.map Prod.fst).getD i 0) w.words.length) ∧
      ((s.logi k).mismatches = 0 → (w.agreed = false → fails .write) ∧ fails (.fail u)))

/-- R142, R167, R168: a drain without statistics or scales, whose rows do not overlap and whose accumulator words agree with their check
bits (R466), writes each of its rows converted to the destination's format; the accumulator is unchanged, so is every byte outside its
rows, and the drain is complete. -/
def Obligations.DrainWritesItsTile : Prop :=
  ∀ (s : State) (k : CoreId) (before : List TensorEntry) (e : TensorEntry),
    let p := s.phys k
    let d := e.desc
    let width := descCols d * (formatBits (descFormat d) / 8)
    let word (j n : Nat) := p.accWord (e.row + j) n
    (s.crucible k.cru).live = true →
    findEntry (fun e => e.isDrain && e.open_) [] p.tq = some (before, e) →
    (∀ b ∈ before, b.phase = .complete ∨ b.phase = .held) → e.rowsDone = 0 → e.flags = 0 → width ≤ descStride d →
    (∀ j, j < descRows d → p.drainAgrees e j = true) →
      Completes (.drainStart k none) s fun t =>
        (∀ j n, j < descRows d → n < descCols d →
          Memory.readBytes (t.phys k).scratch (descBase d + j * descStride d + n * (formatBits (descFormat d) / 8))
              (formatBits (descFormat d) / 8) =
            leBytes (formatBits (descFormat d) / 8)
              (if descFormat d = 7 then (word j n).toNat else (convert (formatDest (descFormat d)) none (fp32 (word j n))).code)) ∧
        (∀ a, (∀ j, j < descRows d → a < descBase d + j * descStride d ∨ descBase d + j * descStride d + width ≤ a) →
          Memory.read (t.phys k).scratch a = Memory.read p.scratch a) ∧
        t.phys k = { p with scratch := (t.phys k).scratch, parity := (t.phys k).parity,
                            tq := listSet p.tq before.length { e with rowsDone := descRows d, phase := .complete, rowBuf := [] } } ∧
        OnlyCore k s t

/-- R145, R146, R147: what the vector unit leaves in lane i, by opcode, of an operation whose operands agree with their residues and
parity (R466, R468). -/
def Obligations.VectorResults : Prop :=
  ∀ (s : State) (k : CoreId) (n : Nat) (e : VectorEntry) (i : Nat),
    let p := s.phys k
    let a := p.lane e.va i
    let b := p.lane e.vb i
    (s.crucible k.cru).live = true → nextVector 0 p.vq = some (n, e) → e.storedFail p = none → i < 64 →
    let lane (op : Byte) (v : W32) :=
      e.op = op → Completes (.vectorOpStart k none) s fun t =>
        (t.phys k).lane e.vd i = v ∧
        (∀ r j, r ≠ e.vd → j < 64 → (t.phys k).lane r j = p.lane r j) ∧
        t.phys k = { p with v := (t.phys k).v, vRes := (t.phys k).vRes, vq := listSet p.vq n { e with phase := .complete } } ∧
        t.logi k = s.logi k ∧ OnlyCore k s t
    let element (f : BitVec 4) (size : Nat) := widen f (leNat (Memory.readBytes p.scratch (e.at_ + i * size) size))
    lane 0xA0 (p.accWord e.at_ i) ∧ lane 0xA2 e.scalar ∧ lane 0xA8 (fp32Add a b) ∧ lane 0xA9 (fp32Sub a b) ∧
    lane 0xAA (fp32Mul a b) ∧ lane 0xAB (fp32Fma a b (p.lane e.vc i)) ∧ lane 0xAC (fp32Max a b) ∧ lane 0xAD (fp32Min a b) ∧
    lane 0xAE (a &&& 0x7FFFFFFF) ∧ lane 0xAF (a ^^^ 0x80000000) ∧ lane 0xB0 (fp32Exp2 a) ∧ lane 0xB1 (fp32Log2 a) ∧
    lane 0xB2 (fp32Rcp a) ∧ lane 0xB3 (fp32Rsqrt a) ∧
    lane 0xB8 ((List.range 63).foldl (fun r j => fp32Max r (p.lane e.va (j + 1))) (fp32Max (p.lane e.va 0) (p.lane e.va 0))) ∧
    lane 0xBA ((List.range 63).foldl (fun r j => fp32Max r (p.lane e.va (j + 1) &&& 0x7FFFFFFF))
      (fp32Max (p.lane e.va 0 &&& 0x7FFFFFFF) (p.lane e.va 0 &&& 0x7FFFFFFF))) ∧
    lane 0xB9 ((List.range 63).foldl (fun r j => fp32Add r (p.lane e.va (j + 1))) (p.lane e.va 0)) ∧
    lane 0x90 (element 7 4) ∧ lane 0x91 (element 5 2) ∧ lane 0x92 (element 6 2) ∧ lane 0x93 (element 1 1) ∧
    lane 0x94 (element 2 1) ∧ lane 0x95 (element 0 1)

/-- R145, R147, R199: what the vector unit stores. A store writes its 64 lanes, each converted to the element's format, with the
generator of R206 under SR; vacc.wr writes an accumulator row bit for bit. Nothing else of the scratchpad or the buffer changes. -/
def Obligations.VectorStores : Prop :=
  ∀ (s : State) (k : CoreId) (n : Nat) (e : VectorEntry) (i : Nat),
    let p := s.phys k
    let w := p.lane e.vc i
    (s.crucible k.cru).live = true → nextVector 0 p.vq = some (n, e) → e.storedFail p = none → i < 64 →
    let vq := listSet p.vq n { e with phase := .complete }
    let stores (op : Byte) (size code : Nat) :=
      e.op = op → Completes (.vectorOpStart k none) s fun t =>
        Memory.readBytes (t.phys k).scratch (e.at_ + i * size) size = leBytes size code ∧
        (∀ a, a < e.at_ ∨ e.at_ + 64 * size ≤ a → Memory.read (t.phys k).scratch a = Memory.read p.scratch a) ∧
        t.phys k = { p with scratch := (t.phys k).scratch, parity := (t.phys k).parity, vq := vq } ∧ OnlyCore k s t
    let narrow (f : BitVec 4) :=
      (convert (formatDest f) (if e.sr then some (srRand (k.cru.val * 500 + k.core.val) p.step e.seq i) else none) (fp32 w)).code
    stores 0x98 4 w.toNat ∧ stores 0x99 2 (narrow 5) ∧ stores 0x9A 2 (narrow 6) ∧ stores 0x9B 1 (narrow 1) ∧
    stores 0x9C 1 (narrow 2) ∧ stores 0x9D 1 (narrow 0) ∧
    (e.op = 0xA1 → Completes (.vectorOpStart k none) s fun t =>
      (t.phys k).accWord e.at_ i = w ∧
      (∀ j, j < 64 * e.at_ ∨ 64 * e.at_ + 64 ≤ j → Store.get zero32 (t.phys k).acc j = Store.get zero32 p.acc j) ∧
      t.phys k = { p with acc := (t.phys k).acc, accRes := (t.phys k).accRes, vq := vq } ∧ OnlyCore k s t) ∧
    ((s.logi k).mismatches = 0 → ∀ u, e.storedFail p = some u → Completes (.vectorOpStart k none) s fun t =>
      t.phys k = p ∧ (t.logi k).mismatches = 1 ∧ OnlyCrucible k.cru s t)

/-- R89, R123, R132, R166, R336, R339: a complete operation signals its tally once and frees its entry; at a word at capacity the signal
is held and FULL set. A held signal is applied once its word is below capacity and its turn has come: tensor before vector before
transfer, and within a queue in the order of issue. -/
def Obligations.CompletionSignals : Prop :=
  ∀ (s : State) (k : CoreId) (e : VectorEntry) (i w : Nat),
    let p := s.phys k
    let v := p.tallyWord w
    (s.crucible k.cru).live = true → (s.logi k).mode = .running → p.vq[i]? = some e → e.tally = some w →
    (∀ j f, p.vq[j]? = some f → f.seq = e.seq → j = i) → (s.logi k).waiting ≠ some (.tally w) →
    let applied (c : Instr) := tallyCount v < tallyCap v → Completes c s fun t =>
      t.phys k = { p.setTally w (tallyPut v (tallyCount v + 1)) with vq := listDrop p.vq i } ∧ t.logi k = s.logi k ∧ OnlyCore k s t
    (e.phase = .complete → (p.firstHeld w = none → applied (.completionSignal k .vector i)) ∧
      (tallyCap v ≤ tallyCount v → Completes (.completionSignal k .vector i) s fun t =>
        t.phys k = { p.setTally w (tallySetFull v) with vq := listSet p.vq i { e with phase := .held } } ∧
        t.logi k = s.logi k ∧ OnlyCore k s t)) ∧
    (e.phase = .held → (p.firstHeld w = some (.vector, i) → applied (.heldSignalApplied k .vector i)) ∧
      (p.firstHeld w ≠ some (.vector, i) → NoEffect (.heldSignalApplied k .vector i) s))

/-- R86, R149, R154: a transfer that copies within the core's own scratchpad is done as it starts: the destination holds the bytes the
source held, every other byte is unchanged, and the transfer is complete. -/
def Obligations.LocalCopy : Prop :=
  ∀ (s : State) (k : CoreId) (e : XferEntry) (a b : BitVec 22),
    let p := s.phys k
    (s.crucible k.cru).live = true → nextXfer p.xq = some e → e.op = .copy → e.src = .own a → e.dst = .own b →
    e.rows = 1 → e.len ≠ 0 → a.toNat + e.len ≤ 0x100000 → b.toNat + e.len ≤ 0x100000 →
    (∀ f ∈ p.xq, f.seq = e.seq → f = e) → e.toInject = 0 → e.toArrive = 0 → p.parityAgrees a.toNat e.len = true →
      Completes (.transferStart k none) s fun t =>
        (∀ j, j < e.len → Memory.read (t.phys k).scratch (b.toNat + j) = Memory.read p.scratch (a.toNat + j)) ∧
        (∀ c, c < b.toNat ∨ b.toNat + e.len ≤ c → Memory.read (t.phys k).scratch c = Memory.read p.scratch c) ∧
        t.phys k = { p with scratch := (t.phys k).scratch, parity := (t.phys k).parity,
                            xq := p.xq.map (fun f => if f.seq = e.seq then
                              { e with phase := .complete, badSrc := false, badDst := false } else f) } ∧
        t.logi k = s.logi k ∧ OnlyCore k s t

/-! ### The transport layer -/

/-- R415: a packet that fails an arrival check is discarded by the crucible it is for: counted at the port it arrived by (FAB_COUNT_n_6)
and by its cause, and nothing else of the module changes but its arrival port's flits that are freed. -/
def Obligations.FailedChecksDiscard : Prop :=
  ∀ (s : State) (c r : Cru) (n : PortIx) (p : Packet) (i : Nat) (m : Bool),
    let discards (cmd : Instr) (kind : Byte) (d : Cru) :=
      s.reaches c n d = true → (s.crucible d).xport.job.live.check p = .discard i → p.kind = kind ∨ kindClasses p.kind = [] →
        Completes cmd s fun t =>
          let counts (m : Nat) := Store.get zero32 ((t.crucible d).port m).count 6 =
            satAdd (Store.get zero32 ((s.crucible d).port m).count 6) 1
          FabricOnly s t ∧ (∃ m, counts m) ∧ (d = c → counts n.val) ∧
          Store.get zero32 (t.crucible d).xport.count i = satAdd (Store.get zero32 (s.crucible d).xport.count i) 1
    let d := packetTarget p c
    discards (.packetWrite c n ⟨p, m⟩) 0x01 d ∧ discards (.packetRead c n ⟨p, m⟩) 0x02 d ∧ discards (.tallySignal c n p) 0x03 d ∧
    discards (.tallyTake c n p) 0x04 d ∧ discards (.response c n p r) 0x10 r ∧ discards (.readData c n p r) 0x11 r ∧
    discards (.urgentAck c n p) 0x21 d

/-- R338, R341, R398, R413: a sequenced request for a core's memory, not yet applied and within the window, is applied once and its
STATUS recorded; a signal at capacity is refused with only FULL set, a take at 0 with the word unchanged. A tally word is met after what
its own core has done there (log 151: the model's choice). A request already applied changes nothing again. -/
def Obligations.RequestsApplyOnce : Prop :=
  ∀ (s : State) (c : Cru) (n : PortIx) (p : Packet) (l w i : Nat) (a : Applied),
    let d := gaCrucible p.addr
    let x := s.crucible d
    let key := connKey p.src.toNat (Fin.ofNat 4 p.srcCru.toNat)
    let v := x.xport.conn key
    let y := x.settleWord l i
    let word := (y.phys l).tallyWord i
    let clean := w + p.aux.toNat ≤ 0x100000 ∧ (x.phys l).parityAgrees w p.aux.toNat = true
    Passes s c n p → p.cls ≠ 2 → p.coremask = false → p.unseq = false → gaSpace p.addr = 1 →
    gaOffset p.addr = l * windowSize + w → w < windowSize → l < 500 → x.refuses l = false →
    let recorded (t : State) (status : Byte) := ((t.crucible d).xport.conn key).found p.psn = some ⟨p.psn, status, 0⟩
    let served (cmd : Instr) (x' : Crucible) (status : Byte) := Completes cmd s fun t =>
      FabricOnly (s.putCrucible d x') t ∧ recorded t status
    let repeated (cmd : Instr) := Completes cmd s fun t => FabricOnly s t
    (v.found p.psn = none → v.ahead p.psn < 256 →
      (p.kind = 0x01 → w + p.payload.length ≤ 0x100000 →
        served (.packetWrite c n ⟨p, false⟩) (x.modPhys l (fun q => q.writeScratch w p.payload)) 0) ∧
      (p.kind = 0x02 → clean → served (.packetRead c n ⟨p, false⟩) x 0) ∧
      (w = 0x200000 + 8 * i → i < 48 →
        (p.kind = 0x03 →
          (tallyCount word < tallyCap word →
            served (.tallySignal c n p) (y.modPhys l (fun q => q.setTally i (tallyPut word (tallyCount word + 1)))) 0) ∧
          (tallyCap word ≤ tallyCount word →
            served (.tallySignal c n p) (y.modPhys l (fun q => q.setTally i (tallySetFull word))) 1)) ∧
        (p.kind = 0x04 →
          (tallyCount word ≠ 0 →
            served (.tallyTake c n p) (y.modPhys l (fun q => q.setTally i (tallyPut word (tallyCount word - 1)))) 0) ∧
          (tallyCount word = 0 → served (.tallyTake c n p) y 1)))) ∧
    (v.found p.psn = some a → v.ahead p.psn < 256 ∨ (v.expected - p.psn).toNat ≤ 256 →
      (p.kind = 0x01 → repeated (.packetWrite c n ⟨p, false⟩)) ∧
      (p.kind = 0x02 → clean → repeated (.packetRead c n ⟨p, false⟩)) ∧
      (p.kind = 0x03 → repeated (.tallySignal c n p)) ∧ (p.kind = 0x04 → repeated (.tallyTake c n p)))

/-- R410, R414, R154: the response that a packet waits for resolves it. An applied write leaves its transfer as it was; a refused tally
operation faults the sender with REMOTE_TALLY and the word's index; the data of a read goes to its place in the transfer's
destination. -/
def Obligations.ResponsesResolve : Prop :=
  ∀ (s : State) (c r : Cru) (n : PortIx) (p : Packet) (q : Pkt) (o : Owner) (e : XferEntry) (b : BitVec 22),
    let x := s.crucible r
    let status := (p.aux.extractLsb' 0 8).toNat
    let counted (g : LogCore) := { g with progXfer := g.progXfer + 1 }
    let rest (t : State) := OnlyCrucible r { s.putCrucible c { s.crucible c with ports := (t.crucible c).ports } with out := t.out } t
    PassesAt s c n r p → p.cls = 2 → x.answeredBy p = some q → q.awaited = [p.src.toNat] → q.resent = false → q.owner = some o →
    o.core < 500 → q.lost = false → (∀ v ∈ x.xport.pkts, v.sent = false → x.xport.stale v = false) →
    (p.kind = 0x10 → q.kind = 0x01 → status = 0 → q.badRange = false → Completes (.response c n p r) s fun t =>
      (t.crucible r).findPkt q.num = none ∧ FabricOnly (s.atCrucible r (fun x => x.modLog o.core counted)) t) ∧
    (p.kind = 0x10 → q.kind = 0x03 → status = 1 → (x.log o.core).mode = .running →
      Completes (.response c n p r) s fun t =>
        (t.crucible r).findPkt q.num = none ∧ ((t.crucible r).log o.core).mode = .faulted ∧
        ((t.crucible r).log o.core).fault =
          ⟨0x0D, srcRemote, false, q.pc, BitVec.ofNat 32 ((gaOffset q.addr % windowSize - 0x200000) / 8)⟩ ∧
        (t.crucible r).findXfer o = none ∧ rest t) ∧
    (p.kind = 0x11 → q.kind = 0x02 → status = 0 → q.badRange = false → x.findXfer o = some e → e.op = .copy → q.landing = .piece (.own b) →
      b.toNat + p.payload.length ≤ 0x100000 →
      Completes (.readData c n p r) s fun t =>
        (t.crucible r).findPkt q.num = none ∧
        (∀ j, j < p.payload.length →
          Memory.read ((t.crucible r).phys o.core).scratch (b.toNat + j) = p.payload.getD j 0) ∧
        (∀ a, a < b.toNat ∨ b.toNat + p.payload.length ≤ a →
          Memory.read ((t.crucible r).phys o.core).scratch a = Memory.read (x.phys o.core).scratch a) ∧
        (∃ e', (t.crucible r).findXfer o = some e' ∧ e'.toArrive = e.toArrive - 1) ∧ rest t)

/-- R403, R405, R410, R412: a request whose port, stream context, window and tokens are there leaves with the next PSN of its
connection. A packet with no answer after its TIMEOUT is sent again, with the same PSN and the expiry counted, by a port that can carry
it; one that no port can carry keeps waiting. After RETRIES expiries it is given up and its transfer faults with REMOTE_TIMEOUT. After the quiet time of its resends an answered packet is resolved. A packet that has
waited for credit moves to the escape channel of its class at the same port. -/
def Obligations.InjectionAndResend : Prop :=
  ∀ (s : State) (c : Cru) (n : PortIx) (i m : Nat) (q : Pkt) (o : Owner) (w : CreditWait),
    let x := s.crucible c
    let r := x.stamp q n.val
    let port := x.port n.val
    x.live = true →
    (x.findPkt i = some q → q.sent = false → q.modmask = none → x.choosePort c q.awaited q.destCru q.vc none = some n →
      x.xport.fits q = true → r.1.xport.tokens (r.1.requestPacket c r.2) = true →
      Completes (.packetInject c i n) s fun t =>
        (∃ q', (t.crucible c).findPkt i = some q' ∧ q'.sent = true ∧ q'.psn = (x.xport.conn q.key).nextPsn ∧
          q'.payload = q.payload ∧ q'.addr = q.addr) ∧
        ((t.crucible c).xport.conn q.key).nextPsn = (x.xport.conn q.key).nextPsn + 1 ∧
        OnlyCrucible c { s with out := t.out } t) ∧
    (x.findPkt i = some q → q.sent = true → q.answered = false → q.expiries < q.retries → q.awaited = [m] →
      x.resendPort c q m = some n → x.xport.tokens (x.resendPacket c q m) = true →
      let again := fun (v : Pkt) => { v with expiries := v.expiries + 1, due := [], resent := true, quiet := false, port := n }
      let y := ((x.modPkt i again).onXport (fun t => t.takeTokens (x.resendPacket c q m))).chose n
      exec (.resendTimeout c i n) s = .next ((s.putCrucible c y).enterWait c n ⟨q.vc, x.resendPacket c q m, true⟩) ∧
      Completes (.resendTimeout c i n) s fun t => (t.crucible c).findPkt i = some (again q) ∧ FabricOnly s t) ∧
    (x.findPkt i = some q → q.sent = true → q.answered = false → q.retries ≤ q.expiries → q.owner = some o → q.lost = false →
      (x.log o.core).mode = .running →
      Completes (.resendTimeout c i n) s fun t =>
        (t.crucible c).findPkt i = none ∧ ((t.crucible c).log o.core).mode = .faulted ∧
        ((t.crucible c).log o.core).fault = ⟨0x0C, srcXfer, false, q.pc, BitVec.ofNat 32 (q.awaited.headD q.dest)⟩ ∧
        (t.crucible c).xport.status.getLsbD 0 = true ∧ OnlyCrucible c s t) ∧
    (x.findPkt i = some q → q.sent = true → q.answered = false → q.expiries < q.retries →
      (∀ m ∈ q.awaited, x.resendPort c q m = none) →
      Completes (.resendTimeout c i n) s fun t =>
        (t.crucible c).findPkt i = some { q with expiries := q.expiries + 1, due := q.awaited } ∧ FabricOnly s t) ∧
    (x.findPkt i = some q → q.resent = true →
      Completes (.resendQuietEnd c i) s fun t =>
        (t.crucible c).findPkt i = (if q.answered then none else some { q with quiet := true }) ∧ FabricOnly s t) ∧
    (port.mode = .up → port.stuck = some w →
      exec (.escapeTimeout c n) s =
        .next ((s.putCrucible c (x.putPort n.val { port with waits := port.waits.erase w })).enterWait c n
          { w with vc := w.vc + 1, packet := { w.packet with escape := true } }))

/-- R406, R416, R425: an acknowledged urgent message is no longer held, and the next one that waits is sent; one not acknowledged is sent
again, up to eight times, and then dropped. PORT_DOWN and PORT_UP clear and set the plane's bit of the module they name, once: an older copy changes no bit. -/
def Obligations.UrgentMessages : Prop :=
  ∀ (s : State) (c : Cru) (n : PortIx) (p : Packet) (u : Urgent) (i : Nat),
    let d := packetTarget p c
    let m := leNat (p.payload.take 2)
    let plane := leNat ((p.payload.drop 2).take 1)
    let bits (t : State) := Store.get planeDefault (t.crucible d).xport.plane m
    (Passes s c n p → p.kind = 0x21 →
      (s.crucible d).xport.urgents.find? (fun u => u.sent && u.type.setWidth 32 == p.aux && u.psn.setWidth 32 == p.psn &&
        u.dest == p.src.toNat && u.destCru.val == p.srcCru.toNat) = some u →
      exec (.urgentAck c n p) s = .next ((s.freeFlits c n p).endUrgent d u.num) ∧
      Completes (.urgentAck c n p) s fun t => (∀ v ∈ (t.crucible d).xport.urgents, v.num ≠ u.num) ∧ FabricOnly s t) ∧
    ((s.crucible c).live = true → (s.crucible c).xport.urgents.find? (fun u => u.num == i && u.sent) = some u →
      (u.resends < 8 →
        let us := (s.crucible c).xport.urgents.map (fun v => if v.num = i then { v with resends := v.resends + 1 } else v)
        exec (.urgentResend c i) s =
          .next ((s.putCrucible c ((s.crucible c).onXport (fun x => { x with urgents := us }))).emitUrgent c u) ∧
        Completes (.urgentResend c i) s fun t => (t.crucible c).xport.urgents = us ∧ FabricOnly s t) ∧
      (8 ≤ u.resends → exec (.urgentResend c i) s = .next (s.endUrgent c i) ∧ Completes (.urgentResend c i) s fun t =>
        (∀ v ∈ (t.crucible c).xport.urgents, v.num ≠ i) ∧ FabricOnly s t)) ∧
    (News s 1 c n p →
      exec (.portLossNotice c n p) s = .next ((s.takeUrgent 1 c n p).1.atCrucible d (fun x => x.setPlane m plane false))) ∧
    (News s 2 c n p →
      exec (.portUpNotice c n p) s = .next ((s.takeUrgent 2 c n p).1.atCrucible d (fun x => x.setPlane m plane true))) ∧
    (News s 1 c n p → plane < 52 → Completes (.portLossNotice c n p) s fun t =>
      bits t = bits s &&& ~~~(1#52 <<< plane) ∧ FabricOnly s t) ∧
    (News s 2 c n p → plane < 52 → Completes (.portUpNotice c n p) s fun t =>
      bits t = bits s ||| (1#52 <<< plane) ∧ FabricOnly s t) ∧
    (Passes s c n p → p.kind = 0x20 → p.aux = 1 → (s.crucible d).xport.isNews p = false →
      Completes (.portLossNotice c n p) s fun t => bits t = bits s ∧ FabricOnly s t)

/-! ### Steps -/

/-- R497, R498, R500, R501, R505 to R511: what the step messages do to the module's step state. A clean report of a child is kept; a
STEP_CHECKED of the oldest step and its GEN checks it; a newer REPLAY halts the cores and opens its barrier; DRAINED reports are
kept; RESUME ends a drained barrier; an EPOCH_STALE with a newer epoch fences the module. -/
def Obligations.StepMessages : Prop :=
  ∀ (s : State) (c : Cru) (n : PortIx) (p : Packet) (b : Barrier),
    let m := stepMsgOf p.payload
    let w := s.steps
    let kept (rs : List ChildReport) (same : ChildReport → Bool) :=
      rs.filter (fun r => !same r) ++ [⟨p.src.toNat, m.step, m.gen, m.covered⟩]
    w.mode ≠ .fenced → w.mode ≠ .held →
    (News s 0x08 c n p →
      (w.isOld m.step m.gen = true → Completes (.stepReport c n p) s fun t => FabricOnly s t) ∧
      (w.isOld m.step m.gen = false → m.result = 0 → w.ownClean = false → Completes (.stepReport c n p) s fun t =>
        FabricOnly { s with steps := { w with
          children := kept w.children (fun r => r.from_ == p.src.toNat && r.step == m.step) } } t)) ∧
    (News s 0x09 c n p → m.step = w.oldest → m.gen = w.gen → w.barrier = none → w.mode = .running →
      Completes (.stepChecked c n p) s fun t =>
        t.steps = w.shift ∧ t.steps.checked = m.step ∧ t.steps.oldest = BitVec.ofNat 48 (m.step.toNat + 1) ∧
        t.steps.gen = w.genNext) ∧
    (News s 0x0A c n p → w.oldest.toNat ≤ m.step.toNat → m.step.toNat ≤ w.oldest.toNat + 1 →
      (w.genOf m.step).toNat < m.gen.toNat → w.barrier = none →
      Completes (.replayStep c n p) s fun t =>
        t.steps.mode = .replaying ∧ t.steps.genOf m.step = m.gen ∧
        (∃ b, t.steps.barrier = some b ∧ b.step = m.step ∧ b.gen = m.gen ∧ b.hold = m.hold ∧ b.drained = false) ∧
        (∀ d l, l < 500 → (s.crucible d).live = true → ((t.crucible d).log l).mode ≠ .running)) ∧
    (News s 0x0B c n p → w.isOld m.step m.gen = false → (∀ b, w.barrier = some b → b.drained = false) →
      Completes (.drainedReport c n p) s fun t =>
        FabricOnly { s with steps := { w with drained := kept w.drained (fun r => r.from_ == p.src.toNat) } } t) ∧
    (News s 0x0C c n p → w.barrier = some b → b.step = m.step → b.gen = m.gen → b.drained = true →
      Completes (.resumeStep c n p) s fun t => t.steps = { w with mode := .running, barrier := none }) ∧
    (News s 3 c n p → let heard := BitVec.ofNat 16 (leField p.payload 0 2)
      (olderEpoch heard (s.crucible (packetTarget p c)).xport.job.live.epoch = true → Completes (.epochStale c n p) s fun t =>
        t.steps = { w with mode := .fenced, barrier := none, queue := [], queuedEnd := w.next }) ∧
      (olderEpoch heard (s.crucible (packetTarget p c)).xport.job.live.epoch = false → Completes (.epochStale c n p) s fun t =>
        (t.crucible (packetTarget p c)).xport.status.getLsbD 7 = true ∧ FabricOnly s t)) ∧
    (w.barrier = some b → b.drained = false →
      (s.drainedNow = false → NoEffect .drainQuietEnd s) ∧
      (s.drainedNow = true → b.hold = true → Completes .drainQuietEnd s fun t =>
        t.steps = { w with mode := .held, barrier := none }))

/-- R253 to R255, R260, R271, R495: the phases of a step. A step enters its compute phase when it may and only then, with the passes of
R260 before it; a final tile of the stage's trainable weights is noted in the step that computes, unless it has no micro-batch; the
update phase starts when every riser is armed for the step, with the factors of R271, and writes no HBM outside the shard pages, their
scales, their risers and the receive areas of region 8, and nothing at all without micro-batches; at the end of the check phase a
module with nothing to report is clean. -/
def Obligations.StepPhases : Prop :=
  ∀ (s : State) (tile tensor : Nat) (pl : Placement),
    let w := s.steps
    let f (i : Nat) := BitVec.ofNat 32 (leField pl.body i 4)
    let due := w.mode = .running ∧ w.barrier = none ∧ (w.phase = .compute ∨ w.phase = .reduce) ∧ s.risersArmed = true
    let begun := { w with next := w.next + 1, held := [], heldStats := [], back := none, sentChunks := [], reduced := [],
                          blockSums := [], firstOpen := false, passes := pl.passes }
    let idle := w.passes = [] ∧ w.back = none
    let factors := stepFactors (w.etaOf w.oldest.toNat) (f 40) (f 44) (f 48) (w.oldest.toNat + 1)
    (s.mayCompute = true → s.tundish.placement = some pl → w.next = w.oldest.toNat →
      exec .computePhaseStart s = .next { s with steps := { begun with phase := .compute } }) ∧
    (s.mayCompute = true → s.tundish.placement = some pl → w.next ≠ w.oldest.toNat →
      exec .computePhaseStart s = .next { s with steps := { begun with phaseNext := .compute } }) ∧
    pl.passes = passOrder pl.side pl.training pl.stages pl.microBatches pl.stage ∧
    (s.mayCompute = false → NoEffect .computePhaseStart s) ∧
    (s.tundish.placement = some pl → pl.microBatches ≠ 0 → s.tileTensor pl tile = some tensor →
      (w.phase = .compute → w.phaseNext ≠ .compute →
        (idle → tile ∉ w.finalTiles →
          exec (.gradientFinal tile) s = .next { s with steps := { w with finalTiles := w.finalTiles ++ [tile] } }) ∧
        Completes (.gradientFinal tile) s fun t =>
          tile ∈ t.steps.finalTiles ∧ t.steps.phase = .compute ∧ t.steps.oldest = w.oldest) ∧
      (w.phaseNext = .compute → Completes (.gradientFinal tile) s fun t =>
        tile ∈ t.steps.finalNext ∧ t.steps.phaseNext = .compute ∧ t.steps.phase = w.phase ∧ t.steps.oldest = w.oldest)) ∧
    (s.tundish.placement = some pl → s.tileTensor pl tile = none → NoEffect (.gradientFinal tile) s) ∧
    (s.hasBatches = false → NoEffect (.gradientFinal tile) s) ∧
    (due → s.tundish.placement = some pl →
      (Completes .updatePhaseStart s fun t =>
        t.steps.phase = .update ∧ t.steps.factors = factors ∧ t.steps.oldest = w.oldest ∧ t.steps.mode = .running) ∧
      (idle → pl.training = false ∨ pl.microBatches = 0 →
        exec .updatePhaseStart s = .next { s with steps := { w with phase := .update, factors := factors } }) ∧
      (idle → (∀ c, pl.ownGroups.getD c.val 0 = (s.crucible c).riser.own ∧ pl.twinGroups.getD c.val 0 = (s.crucible c).riser.twin) →
        (∀ c : Cru, pl.regionAt c.val 7 + 4096 ≤ 2 ^ 36) →
        Completes .updatePhaseStart s fun t => ∀ c a,
          (a < region2 ∨ ((s.crucible c).riser.region4 ≤ a ∧ a < pl.regionAt c.val 7)) →
          Memory.read (t.crucible c).hbm.mem a = Memory.read (s.crucible c).hbm.mem a)) ∧
    (s.risersArmed = false → NoEffect .updatePhaseStart s) ∧
    (w.mode = .running → w.barrier = none → w.phase = .update → s.sillageDue = false → w.faulty = false →
      (∀ c, (s.crucible c).unclean = []) → s.isLeader = false →
      Completes .checkPhaseEnd s fun t => t.steps.phase = .reported ∧ t.steps.ownClean = true ∧ t.steps.faulty = false)

/-! ### HBM and the riser -/

/-- R490, R491: the riser engine copies the first unit not yet copied to its riser, bit for bit, unless its partition is held. A write to an
uncopied unit waits for the copy: the riser then holds the unit's bytes as they stood before the write, the unit is Written and the wait
is counted. -/
def Obligations.RiserCopies : Prop :=
  ∀ (s : State) (c : Cru) (u : Nat) (pl : UnitPlace) (off : BitVec 36) (w : StalledWrite),
    let x := s.crucible c
    let r := x.riser
    let copied := Memory.writeBytes x.hbm.mem pl.riser (Memory.readBytes x.hbm.mem pl.off pl.len)
    x.live = true → r.armed = true → r.place u = some pl →
    ((List.range r.unitTotal).find? (fun v => r.unitState v == .uncopied) = some u →
      (x.hbm.isHeldAs .mgmt (some 3) pl.off = false → Completes (.riserCopyUnit c u) s fun t =>
        t = s.putCrucible c { x with hbm := (t.crucible c).hbm, riser := (t.crucible c).riser, unclean := (t.crucible c).unclean } ∧
        (t.crucible c).hbm.mem = copied ∧ (t.crucible c).riser.unitState u = .copied ∧
        (∀ v, v ≠ u → (t.crucible c).riser.unitState v = r.unitState v)) ∧
      (x.hbm.isHeldAs .mgmt (some 3) pl.off = true → NoEffect (.riserCopyUnit c u) s)) ∧
    (r.unitAt off.toNat = some u → r.unitAt (off.toNat / 1024 * 1024) = some u → r.unitState u = .uncopied → w.data ≠ [] →
      off.toNat % 1024 + w.data.length ≤ 1024 → off.toNat + w.data.length ≤ 2 ^ 36 →
      r.touchesRiser off.toNat w.data.length = false →
      Completes (.riserWriteStall c off w) s fun t =>
        (t.crucible c).hbm.mem = Memory.writeBytes copied off.toNat w.data ∧
        (t.crucible c).riser.unitState u = .written ∧ (t.crucible c).riser.stalls = satAdd r.stalls 1 ∧
        (∀ v, v ≠ u → (t.crucible c).riser.unitState v = r.unitState v) ∧ OnlyCrucible c s t)

/-- R308, R317, R318, R319, R322, R324, R328, R650: the HBM commands. A read gives the data of its burst, with the mark that they are
poisoned, adds a slot to its partition, and changes no byte unless the decoder takes the errors for other data (log 150); a poisoned
burst is counted as uncorrectable, and one that cannot be corrected becomes poisoned. A write stores its bytes and no others, and makes
every unit it covers whole sound. An access of a held partition waits. The scrubber corrects one symbol of a burst. At a window's end the
counts of slots become USED, a pending regulator set or partition map is taken if it keeps the rules and refused if not, and what waits
is granted. -/
def Obligations.HbmCommands : Prop :=
  ∀ (s : State) (c : Cru) (src : HbmSource) (off : BitVec 36) (data : List Byte) (e e' : BurstErrors) (q : Fin 64) (p : HbmAccess),
    let x := s.crucible c
    let h := x.hbm
    let u := off.toNat / 32
    let waits (i : Instr) (a : HbmAccess) := exec i s = .next (s.putCrucible c { x with hbm := { h with waiting := h.waiting ++ [a] } })
    let window (h' : Hbm) :=
      (∀ i, i < 16 → Store.get zero17 h'.usedLast i = BitVec.ofNat 17 (Store.get zeroNat h.used i)) ∧
      h'.reg.commit = false ∧ h'.pmap.commit = false ∧
      (h.reg.commit = true → h.reg.shadow.ok = true → h'.reg.live = h.reg.shadow) ∧
      (h.reg.commit = true → h.reg.shadow.ok = false → h'.reg.live = h.reg.live ∧ h'.status.getLsbD 1 = true) ∧
      (h.pmap.commit = true → h.pmap.shadow.ok = true → h'.pmap.live = h.pmap.shadow) ∧
      (h.pmap.commit = true → h.pmap.shadow.ok = false → h'.pmap.live = h.pmap.live ∧ h'.status.getLsbD 3 = true)
    x.live = true →
    (h.isHeld src (32 * u) = false →
      Completes (.hbmRead c src off e) s fun t =>
        let h' := (t.crucible c).hbm
        t.out = s.out ++ [.hbmData c src (32 * u) (Memory.readBytes h'.mem (32 * u) 32) (h'.poisoned u)] ∧
        OnlyCrucible c { s with out := t.out } t ∧
        Store.get zeroNat h'.used (h.partition src (32 * u)) = Store.get zeroNat h.used (h.partition src (32 * u)) + 1 ∧
        (h.poisoned u = true ∨ (∀ bs, h.decode x.pwr.aon u e ≠ .missed bs) → h'.mem = h.mem) ∧
        (h.poisoned u = true → h'.poisoned u = true ∧ (hbmStack (u * 32) = false → h'.ue0 = satAdd h.ue0 1) ∧
          (hbmStack (u * 32) = true → h'.ue1 = satAdd h.ue1 1)) ∧
        (h.poisoned u = false → h.decode x.pwr.aon u e = .uncorrectable → h'.poisoned u = true) ∧
        (h.poisoned u = false → h.decode x.pwr.aon u e = .corrected → h'.poisoned u = false)) ∧
    (h.isHeld src (32 * u) = true → waits (.hbmRead c src off e) ⟨src, 32 * u, .read e⟩) ∧
    (off.toNat + data.length ≤ 2 ^ 36 → x.riser.touchesRiser off.toNat data.length = false →
      (x.riser.armed = false → (e = [] ∨ partUnits off.toNat data.length = []) →
        (∀ i, Store.get zeroNat h.used i + (writeParts src off.toNat data e).length ≤ h.reg.live.ceilOf i * h.unit) →
        Completes (.hbmWrite c src off data e) s fun t =>
          (∀ i, i < data.length → Memory.read (t.crucible c).hbm.mem (off.toNat + i) = data.getD i 0) ∧
          (∀ a, a < off.toNat ∨ off.toNat + data.length ≤ a → Memory.read (t.crucible c).hbm.mem a = Memory.read h.mem a) ∧
          (∀ v, off.toNat ≤ v * 32 → v * 32 + 32 ≤ off.toNat + data.length → (t.crucible c).hbm.poisoned v = false) ∧
          OnlyCrucible c s t) ∧
      (writeParts src off.toNat data e = [p] → h.isHeld p.src p.off = true → waits (.hbmWrite c src off data e) p)) ∧
    (h.scrubInterval ≠ 0 → s.power.mode = .on →
      Completes (.patrolScrub c q e e') s fun t => (t.crucible c).hbm.used = h.used ∧
        (h.erased = [] → e.length ≤ 1 → e'.length ≤ 1 → (t.crucible c).hbm.mem = h.mem) ∧
        Store.get zeroNat (t.crucible c).hbm.scrubAt q.val = (Store.get zeroNat h.scrubAt q.val + 64) % 2 ^ 30 ∧
        OnlyCrucible c s t) ∧
    (x.xport.held = [] →
      (h.waiting = [] → Completes (.accountingWindow c) s fun t =>
        window (t.crucible c).hbm ∧ (t.crucible c).hbm.used = [] ∧ t = s.putCrucible c { x with hbm := (t.crucible c).hbm }) ∧
      (h.waiting = [⟨src, 32 * u, .read []⟩] → h.turnWindow.regPoint.pmapPoint.isHeld src (32 * u) = false →
        Completes (.accountingWindow c) s fun t =>
          let h' := (t.crucible c).hbm
          window h' ∧ h'.waiting = [] ∧ h'.mem = h.mem ∧
          t.out = s.out ++ [.hbmData c src (32 * u) (Memory.readBytes h.mem (32 * u) 32) (h.poisoned u)] ∧
          OnlyCrucible c { s with out := t.out } t))

/-! ### Tchilu ports -/

/-- R368, R375 to R382: a new codeword with the number expected is taken, and frees what its ACK covers; any other new one is bad, and is
asked for again on its lane. A good one behind a missing one is held. A good copy of the one that is missing is taken, one that nothing
asked for is discarded; the fourth bad copy, or the sixteenth bad codeword on a lane within 1 ms, costs the lane: LANE_DROP goes out, and
the lane leaves 64 codewords later. A codeword asked for is resent from the replay buffer, which keeps it, and counts in the dealing. -/
def Obligations.Codewords : Prop :=
  ∀ (s : State) (c : Cru) (n : PortIx) (w : Codeword) (number : BitVec 12) (t' : TxCodeword) (j k l : Nat) (rest : List Missing),
    let x := s.crucible c
    let p := x.port n.val
    let lane := w.lane.val
    let badOn := (p.noteBad lane x.pwr.aon true).badOn lane
    let counts (q : Port) (i : Nat) := Store.get zero32 q.count i
    let good := w.correctable = true ∧ w.seqLow = BitVec.ofNat 4 p.rxNext
    let takes (f : Port → Prop) := Completes (.codewordReceived c n w) s fun t =>
      f ((t.crucible c).port n.val) ∧ t.out = s.out ∧ OnlyPort c n s t
    let asks (i : Nat) (f : Port → Prop) := Completes (.codewordReceived c n w) s fun t =>
      let q := (t.crucible c).port n.val
      f q ∧ q.replay = p.replay ∧ counts q 2 = satAdd (counts p 2) 1 ∧ counts q 3 = satAdd (counts p 3) 1 ∧
      t.out = s.out ++ [.retryRequest c n lane (BitVec.ofNat 12 i)] ∧ OnlyPort c n s t
    let loses (i : Nat) (bad : List Missing) := Completes (.codewordReceived c n w) s fun t =>
      let q := (t.crucible c).port n.val
      q.bad = bad ∧ q.active = p.active ∧ q.event.getLsbD 5 = true ∧ (q.activeAt (p.txNext + 64)).getLsbD lane = false ∧
      Out.retryRequest c n lane (BitVec.ofNat 12 i) ∈ t.out ∧
      Out.linkMsg c n 1 (BitVec.ofNat 8 lane) (BitVec.ofNat 12 (p.txNext + 64)) ∈ t.out ∧ (t.crucible c).core = x.core
    let again (i m : Nat) (t : State) := t.out = s.out ++ [.retryRequest c n m (BitVec.ofNat 12 i)] ∧
      counts ((t.crucible c).port n.val) 3 = satAdd (counts p 3) 1 ∧ ((t.crucible c).port n.val).bad = p.bad ∧ OnlyPort c n s t
    let copy : TxCodeword := { t' with lane := p.laneOf p.txNext }
    let quiet := p.rxHeld = [] ∧ p.waits = [] ∧ p.txFlits = []
    x.linkOn = true → p.mode = .up →
    (w.resent = false → good → p.bad = [] → quiet → takes fun q =>
      q.rxNext = p.rxNext + 1 ∧ q.received = p.rxNext + 1 ∧ q.bad = [] ∧ q.rxHeld = [] ∧
      q.replay = p.replay.filter (fun r => !ackCovers w.ack r.number) ∧ q.mode = .up) ∧
    (w.resent = false → ¬good → badOn < 16 → asks p.rxNext fun q =>
      q.rxNext = p.rxNext + 1 ∧ q.bad = p.bad ++ [⟨p.rxNext, 1, lane⟩] ∧ q.received = p.received) ∧
    (w.resent = false → ¬good → 16 ≤ badOn → p.active.getLsbD lane = true → p.dropping lane = false →
      loses p.rxNext (p.bad ++ [⟨p.rxNext, 1, lane⟩])) ∧
    (w.resent = false → good → p.bad = ⟨j, k, l⟩ :: rest → j ≤ p.rxNext → quiet → takes fun q =>
      q.rxNext = p.rxNext + 1 ∧ q.bad = p.bad ∧ q.rxHeld = [(p.rxNext, w)] ∧ q.received = j ∧ q.replay = p.replay) ∧
    (w.resent = true → w.correctable = true → p.bad = [⟨j, k, l⟩] → w.seqLow = BitVec.ofNat 4 j → j < p.rxNext → quiet →
      takes fun q => q.rxNext = p.rxNext ∧ q.received = p.rxNext ∧ q.bad = [] ∧
        q.replay = p.replay.filter (fun r => !ackCovers w.ack r.number)) ∧
    (w.resent = true → w.correctable = true → (∀ e ∈ p.bad, BitVec.ofNat 4 e.number ≠ w.seqLow) →
      NoEffect (.codewordReceived c n w) s) ∧
    (w.resent = true → w.correctable = false → p.bad = ⟨j, k, l⟩ :: rest → k ≠ 3 → (k < 3 → badOn < 16) →
      asks j fun q => q.rxNext = p.rxNext ∧ q.bad = ⟨j, k + 1, lane⟩ :: rest ∧ q.active = p.active) ∧
    (w.resent = true → w.correctable = false → p.bad = ⟨j, k, l⟩ :: rest → (k = 3 ∨ k < 3 ∧ 16 ≤ badOn) →
      p.active.getLsbD lane = true → p.dropping lane = false → loses j (⟨j, k + 1, lane⟩ :: rest)) ∧
    (p.replay.find? (fun r => BitVec.ofNat 12 r.number == number) = some t' →
      Completes (.retryRequest c n number) s fun t =>
        let q := (t.crucible c).port n.val
        t.out = s.out ++ [.resentCodeword c n copy.lane copy] ∧ q.extra = p.extra + 1 ∧
        q.replay = p.replay.map (fun (v : TxCodeword) => if v.number = t'.number then copy else v) ∧
        counts q 0 = satAdd (counts p 0) 1 ∧ OnlyPort c n s t) ∧
    (p.replay.find? (fun r => BitVec.ofNat 12 r.number == number) = none → NoEffect (.retryRequest c n number) s) ∧
    (p.bad = [] → NoEffect (.retryRequestTimeout c n) s) ∧
    (p.bad = [⟨j, k, l⟩] → Completes (.retryRequestTimeout c n) s (again j l)) ∧
    (p.bad ≠ [] → Completes (.retryRequestTimeout c n) s fun t =>
      ∃ e ∈ p.bad, again e.number e.lane { t with freeCtr := s.freeCtr })

/-- R381 to R383: lanes leave and join the active list. A lost lane is announced with a switch point 64 codewords ahead, from which on it
carries nothing; the partner's drop takes effect at its switch point, at once if that has passed, and a port with enough lanes left stays
Up. A drop already applied changes nothing. A marginal lane is warned of and stays. The spare joins at the switch point of its swap, and
takes the place of the marginal lane it was asked for. -/
def Obligations.LaneChanges : Prop :=
  ∀ (s : State) (c : Cru) (n : PortIx) (lane : Fin 17) (point : BitVec 12) (w : Swap),
    let x := s.crucible c
    let p := x.port n.val
    let bit := laneBit lane.val
    let after (t : State) := (t.crucible c).port n.val
    let ahead := p.txNext + 64
    let at_ := numberAt p.txNext point
    let kept (t : State) := (t.crucible c).core = x.core ∧ (t.crucible c).hbm = x.hbm
    x.linkOn = true → p.mode = .up →
    (p.active.getLsbD lane.val = true → p.dropping lane.val = false →
      Completes (.laneLockLoss c n lane) s fun t =>
        (after t).active = p.active ∧ (after t).mode = .up ∧ (after t).event.getLsbD 5 = true ∧
        (after t).changes = p.changes ++ [⟨ahead, lane.val, false, none⟩] ∧
        Out.linkMsg c n 1 (BitVec.ofNat 8 lane.val) (BitVec.ofNat 12 ahead) ∈ t.out ∧ kept t) ∧
    (p.active.getLsbD lane.val = false → p.spare.toNat = lane.val →
      Completes (.laneLockLoss c n lane) s fun t =>
        (after t).active = p.active ∧ (after t).spare = 0x1F ∧ (after t).event.getLsbD 5 = true ∧
        Out.linkMsg c n 1 (BitVec.ofNat 8 lane.val) (BitVec.ofNat 12 ahead) ∈ t.out ∧ kept t) ∧
    (p.bad = [] → p.changes = [] → p.closing = false →
      (p.active.getLsbD lane.val = true → p.txNext < at_ → Completes (.laneDrop c n lane point) s fun t =>
        (after t).changes = [⟨at_, lane.val, false, none⟩] ∧ (after t).active = p.active ∧ t.out = s.out ∧ OnlyPort c n s t) ∧
      (p.active.getLsbD lane.val = true → at_ = p.txNext → p.inUse.minLanes.toNat ≤ laneCount (p.active &&& ~~~bit) →
        Completes (.laneDrop c n lane point) s fun t =>
          (after t).changes = [] ∧ (after t).active = p.active &&& ~~~bit ∧ (after t).mode = .up ∧
          (∀ r ∈ (after t).replay, r.lane = lane.val → laneCount (p.active &&& ~~~bit) = 0) ∧ OnlyPort c n s t) ∧
      (p.active.getLsbD lane.val = false → p.txNext < at_ → laneCount p.active < p.width.toNat →
        Completes (.laneSwap c n lane point) s fun t =>
          (after t).changes = [⟨at_, lane.val, true, none⟩] ∧ (after t).activeAt at_ = p.active ||| bit ∧
          t.out = s.out ++ [.linkMsg c n 3 (BitVec.ofNat 8 lane.val) point] ∧ OnlyPort c n s t) ∧
      (p.active.getLsbD lane.val = false → at_ = p.txNext → laneCount p.active < p.width.toNat →
        Completes (.laneSwap c n lane point) s fun t =>
          (after t).active = p.active ||| bit ∧ (after t).event.getLsbD 4 = true ∧ kept t) ∧
      (p.swap = some w → w.sent = true → w.spare = lane.val → p.txNext < at_ → Completes (.laneAck c n lane point) s fun t =>
        (after t).changes = [⟨at_, lane.val, true, w.marginal⟩] ∧ (after t).active = p.active ∧ t.out = s.out ∧ OnlyPort c n s t) ∧
      (p.swap = some w → w.sent = true → w.spare = lane.val → at_ = p.txNext → Completes (.laneAck c n lane point) s fun t =>
        (after t).active = (match w.marginal with
          | some o => (p.active ||| bit) &&& ~~~laneBit o
          | none => p.active ||| bit) ∧ (after t).swap = none ∧ (after t).event.getLsbD 4 = true ∧ kept t)) ∧
    (p.active.getLsbD lane.val = false → NoEffect (.laneDrop c n lane point) s) ∧
    (p.bad ≠ [] → NoEffect (.laneDrop c n lane point) s ∧ NoEffect (.laneSwap c n lane point) s ∧ NoEffect (.laneAck c n lane point) s) ∧
    (p.active.getLsbD lane.val = true →
      Completes (.laneMarginal c n lane) s fun t =>
        (after t).active = p.active ∧ (after t).event.getLsbD 3 = true ∧ kept t) ∧
    (p.swap = some w → w.sent = false → Completes (.spareAdapted c n) s fun t =>
      (after t).swap = some { w with sent := true } ∧
      t.out = s.out ++ [.linkMsg c n 2 (BitVec.ofNat 8 w.spare) (BitVec.ofNat 12 ahead)] ∧ OnlyPort c n s t)

/-- R370, R372, R373, R374, R384, R386, R391: the states of a port. One that closes for Banked enters Keep-alive once both switch points,
its own and the partner's, have passed. -/
def Obligations.PortStates : Prop :=
  ∀ (s : State) (c : Cru) (n : PortIx) (lanes : BitVec 17) (page : W64) (point : BitVec 12) (a : Accessor) (m : Nat),
    let x := s.crucible c
    let p := x.port n.val
    let at_ := numberAt p.txNext point
    let mode (t : State) := ((t.crucible c).port n.val).mode
    let cause (t : State) := ((t.crucible c).port n.val).cause
    let lost (i : Instr) (k : BitVec 4) := Completes i s fun t =>
      mode t = .down ∧ cause t = k ∧ ((t.crucible c).port n.val).event.getLsbD 6 = true ∧ (t.crucible c).core = x.core
    let moves (i : Instr) (m : PortMode) := Completes i s fun t => mode t = m ∧ OnlyPort c n s t
    let signal := lanes &&& BitVec.ofNat 17 (2 ^ laneTotal n.val - 1)
    let both := p.page c n.val &&& page
    (x.linkOn = true →
      (p.mode = .up →
        (p.bad = [] → lost (.portDown c n) 8) ∧ (p.bad ≠ [] → NoEffect (.portDown c n) s) ∧ lost (.lockLoss c n) 10 ∧
        (p.bad = [] → p.closing = true → p.changes = [] → p.keepSent = some m →
          (max m at_ ≤ p.txNext → moves (.keepAlive c n point) .keepAlive) ∧
          (p.txNext < max m at_ → Completes (.keepAlive c n point) s fun t =>
            ((t.crucible c).port n.val).keepHeard = some at_ ∧ mode t = .up ∧ t.out = s.out ∧ OnlyPort c n s t)) ∧
        (p.closing = false → NoEffect (.keepAlive c n point) s) ∧
        (Completes (.backoffReset c n) s fun t => ((t.crucible c).port n.val).backoff = 1 ∧ mode t = .up ∧ OnlyPort c n s t)) ∧
      (p.mode = .detect →
        (p.inUse.minLanes.toNat ≤ laneCount signal → moves (.detectSignal c n lanes) .exchange) ∧
        (laneCount signal < p.inUse.minLanes.toNat → NoEffect (.detectSignal c n lanes) s) ∧
        (Completes (.detectTimeout c n) s fun t => mode t = .down ∧ cause t = 1 ∧
          ((t.crucible c).port n.val).backoff = min 1024 (2 * p.backoff) ∧ OnlyPort c n s t)) ∧
      (p.mode = .exchange → Completes (.exchangePage c n page) s fun t =>
        (miscabled c n.val page = true → mode t = .down ∧ cause t = 2) ∧
        (miscabled c n.val page = false → p.inUse.required &&& ~~~(page.extractLsb' 48 8) ≠ 0 → mode t = .down ∧ cause t = 3) ∧
        (miscabled c n.val page = false → p.inUse.required &&& ~~~(page.extractLsb' 48 8) = 0 →
          (bestMode (both.extractLsb' 38 3) (both.extractLsb' 41 5) = none ∨ both.extractLsb' 46 2 = 0) →
          mode t = .down ∧ cause t = 4) ∧
        (∀ r w, miscabled c n.val page = false → p.inUse.required &&& ~~~(page.extractLsb' 48 8) = 0 →
          bestMode (both.extractLsb' 38 3) (both.extractLsb' 41 5) = some (r, w) → both.extractLsb' 46 2 ≠ 0 →
          mode t = .train ∧ ((t.crucible c).port n.val).rate = BitVec.ofNat 2 r ∧
          ((t.crucible c).port n.val).width = BitVec.ofNat 5 (2 ^ w))) ∧
      (p.mode = .train → Completes (.trainDone c n lanes) s fun t =>
        OnlyPort c n s t ∧
        (p.width.toNat ≤ laneCount (lanes &&& p.signal &&& ~~~p.inUse.exclude) →
          mode t = .check ∧ laneCount ((t.crucible c).port n.val).active = p.width.toNat) ∧
        (laneCount (lanes &&& p.signal &&& ~~~p.inUse.exclude) < p.width.toNat →
          p.lowerRate = none → mode t = .down ∧ cause t = 5)) ∧
      (p.mode = .check → lanes &&& p.active = 0 → Completes (.checkDone c n lanes) s fun t =>
        mode t = .up ∧ ((t.crucible c).port n.val).rxNext = 0 ∧ (t.crucible c).core = x.core) ∧
      (p.mode = .down → moves (.backoffExpiry c n) .detect) ∧
      (p.mode = .keepAlive → s.power.mode = .waking →
        moves (.resumeOrderedSet c n) .up ∧ lost (.resumeTimeout c n) 10)) ∧
    (s.reach a c = true →
      (p.enable = false → moves (.portEnable a c n true) .detect ∧ NoEffect (.portEnable a c n false) s) ∧
      (p.enable = true → Completes (.portEnable a c n false) s fun t => mode t = .disabled ∧ cause t = 11 ∧
        (p.mode = .up → Out.linkMsg c n 4 0 0 ∈ t.out)) ∧
      (p.mode = .up → lost (.portRetrain a c n) 9) ∧ (p.mode = .down → moves (.portRetrain a c n) .detect))

/-! ### Control of the cores -/

/-- R93 to R97, R103, R107, R111: RUN, HALT, CLEAR_FAULT, the end of Clearing, and the drop of held signals. RUN stores START_PC and
starts a Halted core there; HALT stops issue with the program counter where it is; CLEAR_FAULT waits for a Faulted core's queues and
then clears its record, not its summary bit; Clearing ends with every register and memory of the core 0. -/
def Obligations.CoreControl : Prop :=
  ∀ (s : State) (k : CoreId) (a : Accessor) (pc : BitVec 13),
    let x := s.crucible k.cru
    let p := s.phys k
    let g := s.logi k
    let leaves (i : Instr) (p' : PhysCore) (g' : LogCore) := Completes i s fun t => t.phys k = p' ∧ t.logi k = g' ∧ OnlyCore k s t
    (s.reach a k.cru = true →
      (g.mode = .halted → x.loading k.core.val = false →
        leaves (.runCore a k pc) { p with pc := pc }
          { g with mode := .running, startPc := pc, waiting := none, runWaiting := none }) ∧
      (g.mode = .halted → x.loading k.core.val = true →
        leaves (.runCore a k pc) p { g with startPc := pc, runWaiting := some (g.runWaiting.getD pc) }) ∧
      (g.mode ≠ .halted → leaves (.runCore a k pc) p { g with startPc := pc }) ∧
      (g.mode = .running →
        leaves (.haltRequest a k) p { g with mode := if p.queuesEmpty then .halted else .halting, waiting := none,
                                             mgmtHalt := !p.queuesEmpty }) ∧
      (g.mode = .faulted →
        leaves (.clearFault a k) p (if p.queuesEmpty then { g with mode := .halted, fault := FaultRecord.none, clearReq := false }
                                    else { g with clearReq := true })) ∧
      (g.mode ≠ .faulted → NoEffect (.clearFault a k) s)) ∧
    (s.reach a k.cru = false → NoEffect (.runCore a k pc) s ∧ NoEffect (.haltRequest a k) s ∧ NoEffect (.clearFault a k) s) ∧
    (x.live = true → g.mode = .clearing → g.reload = false →
      leaves (.clearingDone k) PhysCore.reset
        { g with mode := .halted, sat := 0, flush := 0, satPrev := 0, flushPrev := 0 }) ∧
    (x.live = true → g.mode = .halting → g.mgmtHalt = true → p.anyHeld = true →
      Completes (.heldSignalDrop k) s fun t =>
        t.phys k = p.dropHeld ∧ (t.logi k).dropped = true ∧
        (t.logi k).mode = (if p.dropHeld.queuesEmpty then .halted else .halting) ∧ OnlyCrucible k.cru s t)

/-- R98 to R103, R116, R117, R118: the remap table and the copies of instruction stores. A remap set waits until every core whose entry
changes is Halted or Faulted; then it is taken whole, and those cores enter Clearing, or it is refused and nothing changes but its
flag. A copy writes the selected Halted cores, eight bytes an instruction; a set that breaks a rule copies nothing. -/
def Obligations.RemapAndInstructionStores : Prop :=
  ∀ (s : State) (c : Cru) (a : Accessor) (l i : Nat) (r : IstoreRegs) (ls : List Nat),
    let x := s.crucible c
    let changed := x.core.remapChanged
    let settled := ∀ m ∈ changed, (x.log m).mode = .halted ∨ (x.log m).mode = .faulted
    let set := x.core.istore.shadow
    (s.reach a c = true →
      (Completes (.remapCommit a c) s fun t =>
        (t.crucible c).core.remap = { x.core.remap with commit := true } ∧ OnlyCrucible c s t) ∧
      (Completes (.istoreCommit a c) s fun t =>
        (t.crucible c).core.istore = { x.core.istore with commit := true } ∧ OnlyCrucible c s t)) ∧
    (x.live = true → x.core.remap.commit = true →
      (settled → x.core.remapOk = true → Completes (.remapCommitPoint c) s fun t =>
        (t.crucible c).core.remap = ⟨x.core.remap.shadow, x.core.remap.shadow, false⟩ ∧
        (∀ m ∈ changed, ((t.crucible c).log m).mode = .clearing ∧ ((t.crucible c).log m).fault = FaultRecord.none ∧
          ((t.crucible c).log m).thr = x.num.regs.live) ∧
        (∀ m, m < 500 → m ∉ changed → (t.crucible c).log m = x.log m) ∧ (t.crucible c).core.phys = x.core.phys ∧
        OnlyCrucible c s t) ∧
      (settled → x.core.remapOk = false → Completes (.remapCommitPoint c) s fun t =>
        (t.crucible c).core = { x.core with remap := { x.core.remap with commit := false },
                                            status := (t.crucible c).core.status } ∧
        (t.crucible c).core.status.getLsbD 0 = true ∧ OnlyCrucible c s t) ∧
      (¬settled → NoEffect (.remapCommitPoint c) s)) ∧
    (x.live = true → x.core.istore.commit = true → x.core.copying = none →
      (set.ok = true → set.len ≠ 0 → Completes (.istoreCopy c) s fun t =>
        (l ∈ set.cores → (x.log l).mode = .halted → i < set.len.toNat / 8 →
          Store.get zero64 ((t.crucible c).phys l).istore (set.dst.toNat / 8 + i) =
            BitVec.ofNat 64 (leNat (Memory.readBytes x.hbm.mem (set.src + 8 * i) 8))) ∧
        (t.crucible c).core.copying = some (set, set.cores.filter (fun l => (x.log l).mode == .halted)) ∧
        (t.crucible c).core.istore.commit = false ∧ (t.crucible c).hbm.mem = x.hbm.mem ∧ OnlyCrucible c s t) ∧
      (set.ok = false → Completes (.istoreCopy c) s fun t =>
        (t.crucible c).core.phys = x.core.phys ∧ (t.crucible c).core.copying = none ∧
        (t.crucible c).core.istore = { x.core.istore with commit := false } ∧
        (t.crucible c).core.status.getLsbD 2 = true ∧ OnlyCrucible c s t)) ∧
    (x.live = true → x.core.copying = some (r, ls) → Completes (.istoreCopyDone c) s fun t =>
      (t.crucible c).core.copying = none ∧
      (∀ pc, l ∈ ls → (x.log l).runWaiting = some pc → (x.log l).mode = .halted →
        ((t.crucible c).log l).mode = .running ∧ ((t.crucible c).log l).runWaiting = none ∧
        ((∀ m ∈ ls, x.physIx m = x.physIx l → m = l) → ((t.crucible c).phys l).pc = pc)) ∧ OnlyCrucible c s t)

/-! ### Registers -/

/-- R16, R18, R215, R324, R328, R354, R355, R388, R430, R431, R483, R557: the commit fields. A set whose point is the next cycle is
taken at once if it keeps its rules, and otherwise refused with both copies left (that no command comes between is log 120, and the order
at a forced tally word log 151: the model's choices); a set with a later point waits. A commit written while one is pending does
nothing. -/
def Obligations.Commits : Prop :=
  ∀ (s : State) (a : Accessor) (c : Cru) (n : PortIx) (i : Fin 8),
    let x := s.crucible c
    let port := x.port n.val
    let ctx := x.tally.set i.val
    let f := x.tally.force.shadow
    let old := ((x.settleWord f.core.toNat f.tally.toNat).phys f.core.toNat).tallyWord f.tally.toNat
    let does (cmd : Instr) (p : Crucible → Prop) := Completes cmd s fun t => p (t.crucible c) ∧ OnlyCrucible c s t
    (s.reach a c = true →
      (x.num.regs.commit = false → does (.numCommit a c) fun y => y = { x with num := { x.num with regs := ⟨x.num.regs.shadow, x.num.regs.shadow, false⟩ } }) ∧
      (x.hbm.reg.commit = false → does (.hbmRegCommit a c) fun y => y = { x with hbm := { x.hbm with reg := { x.hbm.reg with commit := true } } }) ∧
      (x.hbm.pmap.commit = false → does (.hbmPmapCommit a c) fun y => y = { x with hbm := { x.hbm with pmap := { x.hbm.pmap with commit := true } } }) ∧
      (x.hbm.reg.commit = true → NoEffect (.hbmRegCommit a c) s) ∧
      (ctx.commit = false → does (.tallyXlatCommit a c i) fun y => y.tally.set i.val = { ctx with commit := true }) ∧
      (x.tally.force.commit = false →
        f.core.toNat < 500 ∧ f.tally.toNat < 48 ∧ (x.log f.core.toNat).mode ≠ .clearing ∧ x.tally.log.length < 32 →
        does (.tallyForceCommit a c) fun y =>
          (y.phys f.core.toNat).tallyWord f.tally.toNat = forceWord old f.full f.count ∧
          y.tally.log.length = x.tally.log.length + 1 ∧ y.tally.status.getLsbD 3 = true ∧ y.tally.force.commit = false) ∧
      (x.tally.force.commit = false → x.tally.log.length = 32 → does (.tallyForceCommit a c) fun y =>
        y.core = x.core ∧ y.tally.log = x.tally.log ∧ y.tally.force = { x.tally.force with commit := false } ∧
        y.tally.status.getLsbD 1 = true) ∧
      (port.set.commit = false → does (.fabCommit a c n) fun y =>
        (port.set.shadow.ok n.val = true → (y.port n.val).set.live = port.set.shadow ∧ (y.port n.val).mode = port.mode) ∧
        (port.set.shadow.ok n.val = false → (y.port n.val).set = { port.set with commit := false } ∧
          (y.port n.val).event.getLsbD 1 = true)) ∧
      (x.xport.job.commit = false → does (.fabJobCommit a c) fun y => y = { x with xport := { x.xport with job := { x.xport.job with commit := true } } }) ∧
      (x.xport.xrack.commit = false → does (.fabXrackCommit a c) fun y =>
        (5 ≤ x.xport.xrack.shadow.burst.toNat → y.xport.xrack.live = x.xport.xrack.shadow) ∧
        (x.xport.xrack.shadow.burst.toNat < 5 → y.xport.xrack = { x.xport.xrack with commit := false } ∧
          y.xport.status.getLsbD 4 = true)) ∧
      (x.res.seed.commit = false → does (.resNoseCommit a c) fun y => y.res.seed.live = x.res.seed.shadow ∧ y.res.noseRequested = true) ∧
      (x.hang.win.commit = false → does (.hangWinCommit a c) fun y =>
        (x.hang.win.shadow.ok = true → y.hang.win.live = x.hang.win.shadow ∧ y.hang.booting = false) ∧
        (x.hang.win.shadow.ok = false → y.hang.win = { x.hang.win with commit := false } ∧ y.hang.booting = x.hang.booting ∧
          y.hang.status.getLsbD 2 = true))) ∧
    (x.live = true → ctx.commit = true →
      (x.ctxBusy i.val = true → NoEffect (.tallyXlatCommitPoint c i) s) ∧
      (x.ctxBusy i.val = false → xlatOk ctx.shadow = true → does (.tallyXlatCommitPoint c i) fun y =>
        y.tally.set i.val = ⟨ctx.shadow, ctx.shadow, false⟩ ∧ y.tally.status = x.tally.status) ∧
      (x.ctxBusy i.val = false → xlatOk ctx.shadow = false → does (.tallyXlatCommitPoint c i) fun y =>
        y.tally.set i.val = { ctx with commit := false } ∧ y.tally.status.getLsbD (8 + i.val) = true))

/-- R409, R430: at its commit point a job set is taken if it keeps the rules and refused if not; a set that changes EPOCH, JOB_TAG,
ACTIVE or the module's own place zeroes every connection and gives up every packet, and the shadow keeps its values. -/
def Obligations.JobSetCommitPoint : Prop :=
  ∀ (s : State) (c : Cru),
    let x := s.crucible c
    let j := x.xport.job
    x.live = true → j.commit = true →
    (j.shadow.ok s.power.slotId = true → Completes (.jobSetCommitPoint c) s fun t =>
      let y := (t.crucible c).xport
      (s.agent ≠ some c → y.job = ⟨j.shadow, j.shadow, false⟩ ∧
        (j.live.differs j.shadow = true → y.conns = [] ∧ y.pkts = [] ∧ y.plane = []))) ∧
    (j.shadow.ok s.power.slotId = false → Completes (.jobSetCommitPoint c) s fun t =>
      let y := (t.crucible c).xport
      y.job = { j with commit := false } ∧ y.conns = x.xport.conns ∧ y.pkts = x.xport.pkts ∧ y.status.getLsbD 2 = true)

/-- R11, R13, R15, R19, R59, R220, R330, R353, R356, R482: writes of control registers. A shadow write changes the shadow alone, and
while the commit is pending nothing but the collision flag; a W1C field loses the bits written 1; an access that does not reach its
crucible has no effect. -/
def Obligations.RegisterWrites : Prop :=
  ∀ (s : State) (a : Accessor) (c : Cru) (k : CoreId) (off : Nat) (v : W32),
    let x := s.crucible c
    let g := s.logi k
    let does (cmd : Instr) (p : Crucible → Prop) := Completes cmd s fun t => p (t.crucible c) ∧ OnlyCrucible c s t
    (s.reach a c = true →
      (x.num.regs.commit = false → does (.shadowWrite a (.crucible c) 0xD000 v) fun z =>
        z = { x with num := { x.num with regs := { x.num.regs with shadow := { x.num.regs.shadow with sat := v } } } }) ∧
      (x.num.regs.commit = true → does (.shadowWrite a (.crucible c) 0xD000 v) fun z =>
        z = { x with num := { x.num with status := setFlag x.num.status 0 } }) ∧
      (does (.registerWrite a (.crucible c) 0x5140 v) fun z =>
        z = { x with num := { x.num with status := x.num.status &&& ~~~(v.setWidth 2) } }) ∧
      (does (.mcKick a c) fun z => z = { x with hang := { x.hang with progMc := x.hang.progMc + 1 } }) ∧
      (Completes (.uePendingClear a c) s fun t => (t.crucible c).hbm.status.getLsbD 5 = false ∧ (t.crucible c).hbm.mem = x.hbm.mem) ∧
      (Completes (.tallyLogClear a c) s fun t =>
        (a ≠ .mgmt → (t.crucible c).tally.log = []) ∧
        (s.recordsAway = false → x.recQueue = [] →
          (s.store.accepts = true → (t.crucible c).tally.log = []) ∧
          (a = .mgmt → s.store.accepts = false → (t.crucible c).tally.log = x.tally.log)) ∧
        (s.recordsAway = true → x.tally.log.length ≤ 32 → x.recBytes + 1088 ≤ 2 ^ 20 → (t.crucible c).tally.log = []) ∧
        (t.crucible c).core = x.core) ∧
      (Completes (.popRecord a c) s fun t =>
        (a ≠ .mgmt → (t.crucible c).res.records = x.res.records.drop 1) ∧ (t.crucible c).core = x.core) ∧
      (x.live = true → (∀ v, s.boot.activation = some v → v.restarted c = false) → Completes (.forceHang a c) s fun t =>
        (t.crucible c).frozen = true ∧ (t.crucible c).hang.lastCause = 2 ∧ (t.crucible c).hang.seq = x.hang.seq + 1)) ∧
    (s.reach a c = false → NoEffect (.mcKick a c) s ∧ NoEffect (.forceHang a c) s ∧ NoEffect (.popRecord a c) s ∧
      NoEffect (.registerWrite a (.crucible c) off v) s) ∧
    (s.reach a k.cru = true →
      (g.mode = .halted ∨ g.mode = .faulted → Completes (.tallyCtxSel a k v) s fun t =>
        t.phys k = s.phys k ∧ t.logi k = { g with ctxSel := v.setWidth 4 } ∧ OnlyCore k s t) ∧
      (g.mode ≠ .halted → g.mode ≠ .faulted → Completes (.tallyCtxSel a k v) s fun t =>
        t.logi k = g ∧ (t.crucible k.cru).tally.status.getLsbD 5 = true ∧ OnlyCrucible k.cru s t) ∧
      (g.numFlag = true → Completes (.eventSummaryClear a k) s fun t =>
        t.logi k = { g with numFlag := false, event := NumEvent.none } ∧ t.phys k = s.phys k))

/-- R432, R462, R485, R592: registers that refuse values. Each resets to the value its table gives; a write of a value outside its
range is discarded and sets the block's CONFIG_REJECTED, and any other write is taken and changes nothing else. The values of the
packets already sent stay (R432). -/
def Obligations.ValuesOutOfRange : Prop :=
  ∀ (s : State) (a : Accessor) (c : Cru) (h : HalfIx) (v : W32),
    let x := s.crucible c
    let r := x.res
    let half := s.halfAt h
    let does (cmd : Instr) (p : Crucible → Prop) := Completes cmd s fun t => p (t.crucible c) ∧ OnlyCrucible c s t
    let badE2e := v.extractLsb' 12 9 = 0 ∨ 256 < (v.extractLsb' 12 9).toNat ∨ v.extractLsb' 0 8 = 0
    let badVlan := v.getLsbD 31 = true ∧ (v.extractLsb' 0 12 = 0 ∨ v.extractLsb' 0 12 = 4095)
    let badLimit := (v.extractLsb' 0 12).toNat < 1000 ∨ 2200 < (v.extractLsb' 0 12).toNat
    (State.reset.crucible c).xport.e2e = ⟨6, 64, 20⟩ ∧ (State.reset.crucible c).res.noseInterval = 100 ∧
    (State.reset.crucible c).res.sillageInterval = 64 ∧ (State.reset.halfAt h).tagged = false ∧ (State.reset.halfAt h).vid = 0 ∧
    (State.reset.halfAt h).pfcEnable = 0x0C ∧ (State.reset.halfAt h).pcps = 0x09E ∧ State.reset.power.limit = 2200 ∧
    (s.reach a c = true →
      (badE2e → does (.fabE2eWrite a c v) fun y => y = { x with xport := { x.xport with status := setFlag x.xport.status 6 } }) ∧
      (¬badE2e → does (.fabE2eWrite a c v) fun y =>
        y = { x with xport := { x.xport with e2e := ⟨v.extractLsb' 24 8, v.extractLsb' 12 9, v.extractLsb' 0 8⟩ } }) ∧
      (1024 < (v.extractLsb' 0 11).toNat →
        (does (.intervalWrite a c true v) fun y => y = { x with res := { r with status := setFlag r.status 4 } }) ∧
        (does (.intervalWrite a c false v) fun y => y = { x with res := { r with status := setFlag r.status 4 } })) ∧
      ((v.extractLsb' 0 11).toNat ≤ 1024 →
        (does (.intervalWrite a c true v) fun y => y = { x with res := { r with sillageInterval := v.setWidth 11 } }) ∧
        (does (.intervalWrite a c false v) fun y => y = { x with res := { r with noseInterval := v.setWidth 11 } }))) ∧
    (s.portDieUp = true → s.speaks a = true →
      (half.alive = true →
        (badVlan → exec (.ethVlanWrite a h v) s = .next (s.putHalf h { half with ethFlags := setFlag half.ethFlags 1 })) ∧
        (¬badVlan → exec (.ethVlanWrite a h v) s =
          .next (s.putHalf h { half with tagged := v.getLsbD 31, vid := v.extractLsb' 0 12 }))) ∧
      (badLimit → exec (.pwrLimitWrite a v) s = .next { s with power := { s.power with flags := setFlag s.power.flags 1 } }) ∧
      (¬badLimit → exec (.pwrLimitWrite a v) s = .next { s with power := { s.power with limit := v.extractLsb' 0 12 } }))

/-- R13, R54, R364, R484, R589: register reads. A read of a word's low half captures its high half for that accessor; an access of
another width, out of alignment or at an unassigned offset reads 0 and, where it reaches a crucible, changes no register but a
flag. -/
def Obligations.RegisterReads : Prop :=
  ∀ (s : State) (a : Accessor) (k : CoreId) (i : Fin 48) (c : Cru) (off width : Nat),
    let x := s.crucible k.cru
    let w := (s.phys k).tallyWord i.val
    let g := s.logi k
    (s.reach a k.cru = true →
      (Completes (.tallyWordRead a k i) s fun t =>
        t.lastRead = w.extractLsb' 0 32 ∧
        captured (t.crucible k.cru).tally.captures a (48 * k.core.val + i.val) 0 = w.extractLsb' 32 32 ∧
        t = { s.putCrucible k.cru { x with tally := { x.tally with captures := (t.crucible k.cru).tally.captures } }
              with lastRead := t.lastRead }) ∧
      (Completes (.resSigRead a k) s fun t =>
        t.lastRead = g.sig.extractLsb' 0 32 ∧
        captured (t.crucible k.cru).res.captures a k.core.val 0 = g.sig.extractLsb' 32 32 ∧
        t = { s.putCrucible k.cru { x with res := { x.res with captures := (t.crucible k.cru).res.captures } }
              with lastRead := t.lastRead })) ∧
    (s.reach a c = true → Completes (.pwrAonRead a c) s fun t =>
      t.lastRead = (t.crucible c).pwr.aon.extractLsb' 0 32 ∧
      captured (t.crucible c).pwr.captures a 0 0 = (t.crucible c).pwr.aon.extractLsb' 32 32 ∧
      (t.crucible c).core = (s.crucible c).core) ∧
    (s.reach a c = true → (width ≠ 4 ∨ off % 4 ≠ 0 ∨ s.cruRead c off = none) →
      Completes (.unassignedAccess a (.crucible c) off width) s fun t =>
        t = { s.putCrucible c ((s.crucible c).unassigned off) with lastRead := 0 } ∧ (t.crucible c).hbm.mem = (s.crucible c).hbm.mem)

/-! ### Silent errors and hangs -/

/-- R472, R474 to R477, R480, R490: nose rounds, sillage and retirement. A round starts only with every core Halted, writes the
operand image of its seed and arms its cores with signature 0; a first run without a majority, and a round that ends, leave no round open on the crucible; a comparison in which
every peer agrees ends the step's sillage and one that finds a different digest records it; a retired core's physical core is marked
and another is bound, or, with a record that cannot be committed, none is, the core stays Halted and the crucible leaves service
(the remap entry it keeps is the model's, log 156). -/
def Obligations.SilentErrors : Prop :=
  ∀ (s : State) (c : Cru) (k : CoreId) (seed : W64) (l m : Nat) (v : W64) (ls : List Nat) (pl : Placement) (f : FaultRecord)
    (spare : Nat),
    let x := s.crucible c
    (s.noseIdle = true → s.steps.barrier = none → (∀ d, (s.crucible d).live = true → (s.crucible d).allHalted = true) →
      Completes .noseRoundStart s fun t =>
        (x.live = true → x.noseDue s.steps.lastStarted = some seed → l < 500 →
          (t.crucible c).res.nose = .running seed ∧ ((t.crucible c).log l).ctxSel = 0xF ∧ ((t.crucible c).log l).sig = 0 ∧
          Memory.readBytes (t.crucible c).hbm.mem (noseImageOffset c) 196608 = noseImage seed) ∧
        (x.noseDue s.steps.lastStarted = none → t.crucible c = x)) ∧
    ((∃ d, (s.crucible d).live = true ∧ (s.crucible d).allHalted = false) →
      NoEffect .noseRoundStart s ∧ NoEffect .noseRoundEnd s) ∧
    ((∀ d, (s.crucible d).live = true → (s.crucible d).allHalted = true) → s.noseRunners = [] → x.res.nose = .again v ls →
      Completes .noseRoundEnd s fun t => (t.crucible c).res.nose = .idle) ∧
    (s.tundish.placement = some pl → s.steps.sillage = .comparing → s.compareShards pl = (none, none) →
      (Completes .sillageCompare s fun t =>
        t.steps = { s.steps with sillage := .done, sillageAgain := false } ∧ (t.crucible 0).res.sillageResult = 1 ∧
        t = { s.putCrucible 0 (t.crucible 0) with steps := t.steps }) ∧ NoEffect .sillageMissing s) ∧
    (s.tundish.placement = some pl → s.steps.sillage = .comparing → s.compareShards pl = (some m, none) →
      (s.crucible 0).res.records.length < 64 →
      Completes .sillageCompare s fun t =>
        (t.crucible 0).res.sillageResult = 2 ∧ t.steps.sillage ≠ .comparing ∧
        (t.crucible 0).res.records = (s.crucible 0).res.records ++ [⟨s.steps.oldest, 7, 15, 0, 0, BitVec.ofNat 32 m⟩]) ∧
    (s.tundish.placement = some pl → s.steps.sillage = .comparing → (s.compareShards pl).2 = some m →
      Completes .sillageMissing s fun t => (t.crucible 0).res.sillageResult = 3 ∧ t.steps.sillage ≠ .comparing) ∧
    (s.tundish.placement = some pl → s.steps.mode = .running → s.steps.barrier = none → s.steps.phase = .update →
      s.sillageDue = true → (s.crucible 0).live = true → s.shardPoisoned = false →
      Completes .sillageDigestDone s fun t =>
        t.steps = { s.steps with phase := .check, sillage := .comparing } ∧
        (t.crucible 0).res.digestOwn = sha256 (s.shardCrcs false) ∧ (t.crucible 0).res.digestTwin = sha256 (s.shardCrcs true)) ∧
    ((s.logi k).retireDue = some f → (s.crucible k.cru).live = true → ((s.logi k).mode = .halted ∨ (s.logi k).mode = .faulted) → (s.phys k).queuesEmpty = true →
      s.store.accepts = true → s.recordsAway = false → s.steps.mode = .idle →
      (List.range 528).find? (Crucible.spareFree { s.crucible k.cru with core := { (s.crucible k.cru).core with
        retired := Store.set retiredDefault (s.crucible k.cru).core.retired ((s.crucible k.cru).physIx k.core.val) true } }) =
        some spare →
      Completes (.coreRetirement k) s fun t =>
        Store.get retiredDefault (t.crucible k.cru).core.retired ((s.crucible k.cru).physIx k.core.val) = true ∧
        (t.crucible k.cru).physIx k.core.val = spare ∧ (t.logi k).mode = .clearing ∧ (t.logi k).fault = FaultRecord.none ∧
        (t.logi k).reload = true) ∧
    ((s.logi k).retireDue = some f → (s.crucible k.cru).live = true → ((s.logi k).mode = .halted ∨ (s.logi k).mode = .faulted) → (s.phys k).queuesEmpty = true →
      s.store.accepts = false → s.recordsAway = false → s.steps.mode = .idle →
      Completes (.coreRetirement k) s fun t =>
        (t.crucible k.cru).service = .outOfService ∧ (t.logi k).mode = .halted ∧
        (t.crucible k.cru).physIx k.core.val = (s.crucible k.cru).physIx k.core.val)

/-- R542 to R552: the watchdog. A stall of monitored units, and a boot that takes too long, freeze the crucible and number the hang;
units that are not all monitored declare none. The reset that follows a hang keeps HBM, the remap table and the fault records, clears
the rest, and puts the crucible in its ROM; the third within 600 s takes it out of service. A hang of a crucible that an activation has
already restarted fails the activation, which resets the module (R639). PROGRESS_STALL, BOOT_TIMEOUT, HANG_RECORD_COMPLETE,
HANG_RECORD_TIMEOUT and CRUCIBLE_RETURN complete in every state that meets the conditions stated. -/
def Obligations.Hangs : Prop :=
  ∀ (s : State) (c : Cru) (us : List StallUnit) (r : HangRun),
    let x := s.crucible c
    let spared := ∀ v, s.boot.activation = some v → v.restarted c = false
    let frozen (t : State) (cause : BitVec 2) (units : List StallUnit) :=
      let y := t.crucible c
      y.frozen = true ∧ y.live = false ∧ y.hang.seq = x.hang.seq + 1 ∧ y.hang.lastCause = cause ∧ y.hang.lastComplete = false ∧
      y.hang.run = some ⟨cause, x.pwr.aon, units, x.hang.recent x.seconds + 1⟩ ∧ y.core = x.core
    let reset (t : State) (complete : Bool) :=
      let y := t.crucible c
      y.frozen = false ∧ y.core.phys = [] ∧ y.core.logi = [] ∧ y.core.remap.live = x.core.remap.live ∧
      y.core.retired = x.core.retired ∧ y.res.records = x.res.records ∧ y.hang.run = none ∧ y.hang.seq = x.hang.seq ∧
      y.hang.lastComplete = complete ∧ y.riser.step = x.riser.step ∧ y.xport.job.live.active = false ∧
      y.service = (if 3 ≤ r.resets then .outOfService else .resetting)
    (x.live = true → s.power.mode = .on → x.hang.booting = false → us ≠ [] → us.all x.monitored = true → spared →
      ∃ t, exec (.progressStall c us) s = .next t ∧ frozen t 1 us) ∧
    (∀ v, x.live = true → s.power.mode = .on → x.hang.booting = false → us ≠ [] → us.all x.monitored = true →
      s.boot.activation = some v → v.restarted c = true →
      ∃ t, exec (.progressStall c us) s = .next t ∧ t.boot.activation = none ∧ t.boot.image = none ∧ t.power.mode = .on) ∧
    (us.all x.monitored = false → exec (.progressStall c us) s = .next s) ∧
    (spared → x.hang.booting = true → x.frozen = false → x.service = .resetting →
      ∃ t, exec (.bootTimeout c) s = .next t ∧ frozen t 3 [.mc]) ∧
    (x.hang.run = some r → ∃ t, exec (.hangRecordComplete c) s = .next t ∧ reset t true) ∧
    (x.hang.run = some r → ∃ t, exec (.hangRecordTimeout c) s = .next t ∧ reset t x.hang.lastComplete) ∧
    (x.returning = true → ∃ t, exec (.crucibleReturn c) s = .next t ∧
      (t.crucible c).service = .inService ∧ (t.crucible c).live = true) ∧
    (x.returning = false → exec (.crucibleReturn c) s = .next s)

/-! ### The persistent store -/

/-- R597 to R603, R607, R608, R616, R617: the store. Opening it counts a power cycle; a record is queued and numbered in arrival order;
once both copies are read back it is the current one of its KIND and KEY; a failed write is tried again, and the third failure closes
the store; OP 1 finds the current record; a closed store takes no record. -/
def Obligations.PersistentStore : Prop :=
  ∀ (s : State) (q : RecordReq) (w : RecWrite) (seq n : Nat) (bad : List Nat) (a : Accessor) (r : Rec),
    let t0 := s.store
    let regs := t0.regs.shadow
    (s.portDieUp = true → t0.ready = false → Completes .storeOpen s fun t =>
      t.store.ready = true ∧ t.store.failed = false ∧ t.store.stopped = false ∧ t.store.wear.cycles = t0.wear.cycles + 1 ∧
      t.store.queue = [] ∧ t.store.writing = none) ∧
    (t0.ready = true → NoEffect .storeOpen s) ∧
    (q.payload.length ≤ 4032 → t0.accepts = true → t0.writing = none → t0.queue = [] → Completes (.persistentRecord q) s fun t =>
      t = { s with store := { t0 with writing := some (⟨q.kind, q.key, q.format, q.payload, .nothing⟩, t0.nextSeq, 0),
                                      nextSeq := t0.nextSeq + 1 } }) ∧
    (t0.accepts = false → NoEffect (.persistentRecord q) s) ∧
    (t0.writing = some (w, seq, n) → t0.regs.commit = false → w.after = .nothing →
      (t0.journal.free 128 ≥ 9 → w.kind ≠ 0x06 → w.kind ≠ 0x04 → Completes (.recordDurable true) s fun t =>
        ∃ r, t.store.current w.kind w.key.toNat = some r ∧ r.payload = w.payload ∧ r.seq = seq ∧ r.format = w.format) ∧
      (n < 2 → Completes (.recordDurable false) s fun t =>
        t.store.writing = some (w, seq, n + 1) ∧ t.store.records = t0.records ∧ t.store.failed = t0.failed) ∧
      (2 ≤ n → Completes (.recordDurable false) s fun t =>
        t.store.failed = true ∧ t.store.flags.getLsbD 4 = true ∧ t.store.records = t0.records)) ∧
    (s.portDieUp = true → t0.accepts = true → Completes .wearRecord s fun t =>
      t.store.wear.seconds = t0.wear.seconds + 600 ∧ t.store.records = t0.records) ∧
    (s.portDieUp = true → t0.ready = true → (∃ i ∈ bad, i < t0.records.length + t0.archive.length) →
      Completes (.storeDailyCheck bad) s fun t => t.store.flags.getLsbD 5 = true ∧ t.store.records = t0.records) ∧
    (s.portDieUp = true → s.speaks a = true → t0.regs.commit = false → t0.writing = none → t0.stopped = false →
      (regs.op = 1 → t0.current regs.kind regs.key.toNat = some r → r.payload.length < 8192 →
        Completes (.storeReadRecord a) s fun t =>
          t.store.result.found = true ∧ t.store.result.len.toNat = r.payload.length ∧
          (∀ i, i < r.payload.length → Memory.read t.store.buf i = r.payload.getD i 0) ∧ t.store.regs.commit = false) ∧
      (regs.op = 2 → t0.history regs.key.toNat = [] → Completes (.storeReadHistory a) s fun t =>
        t.store.result.found = false ∧ t.store.regs.commit = false) ∧
      (regs.op = 3 → (regs.kind ≠ 0x08 ∨ 2 < regs.key.toNat ∨ 1024 < regs.len.toNat) →
        Completes (.storeAppendConfig a) s fun t => t.store.regs = { t0.regs with commit := false } ∧
          t.store.flags.getLsbD 2 = true ∧ t.store.queue = t0.queue) ∧
      (regs.op = 3 → regs.kind = 0x08 → regs.key.toNat ≤ 2 → regs.len.toNat ≤ 1024 → regs.len ≠ 0 → t0.accepts = true →
        Completes (.storeAppendConfig a) s fun t =>
          t.store.writing = some (⟨0x08, regs.key.setWidth 32, 1, Memory.readBytes t0.buf 0 regs.len.toNat, .append⟩, t0.nextSeq, 0) ∧
          t.store.regs.commit = true))

/-! ### Host commands -/

/-- R444, R448, R581: how a command message arrives. With its half's engine down, or 16 commands outstanding, it meets an RNR NAK and
nothing of it is kept. A command that the module's power state holds waits, and starts a wake from Banked; one that arrives behind
another of its queue pair waits too. A message whose tagging is not the half's is discarded and counted (R436). -/
def Obligations.CommandArrival : Prop :=
  ∀ (s : State) (i : Instr) (m : CmdMsg) (q : Qp), hostMsg i = some m →
    (∀ op, i = .unknownOpcode m op → op.toNat ∉ knownOpcodes) → s.hears m.half = true → s.runHeld = none →
    (s.halfAt m.half).qp m.qp = some q → q.kind = .command → q.error = false →
    (m.vid ≠ (s.halfAt m.half).vlan → Completes i s fun t =>
      t.out = s.out ∧ SentOnly s t ∧ (t.halfAt m.half).waits = (s.halfAt m.half).waits ∧
      Store.get zero32 (t.halfAt m.half).ethCount 2 =
        satAdd (Store.get zero32 (s.halfAt m.half).ethCount 2) (frames q.mtu (32 + m.body.length))) ∧
    (m.vid = (s.halfAt m.half).vlan → m.ce = false → (s.engineUp m.half = false ∨ 16 ≤ s.outstanding m.half m.qp) →
      Completes i s fun t => Sent s t m.half (.rdmaReply m.qp .rnrNak) ∧ SentOnly s t) ∧
    (m.vid = (s.halfAt m.half).vlan → m.ce = false → s.engineUp m.half = true → s.outstanding m.half m.qp < 16 →
      (s.holds (awayRule i) = true → Completes i s fun t =>
        t.held = s.held ++ [i] ∧ t.out = s.out ++ (if s.power.mode = .banked then s.resumeSets else []) ∧
        t.power.mode = (if s.power.mode = .banked then .waking else s.power.mode) ∧
        t = { s with held := t.held, half := t.half, power := t.power, out := t.out } ∧ CountsOnly s t) ∧
      (s.holds (awayRule i) = false → 0 < s.outstanding m.half m.qp → Completes i s fun t =>
        t.held = s.held ++ [i] ∧ t = { s with held := t.held, half := t.half } ∧ CountsOnly s t))

/-- R445, R446, R447, R449, R579, R581, R642: IDENTIFY, SUBSCRIBE, ATTEST, BANK, WAKE and unknown opcodes, and the checks that every
command meets first, shown on STOP. BANK makes every Up port close (R386), and a wake sends RESUME from those in Keep-alive. -/
def Obligations.ModuleCommands : Prop :=
  ∀ (s : State) (m : CmdMsg) (op : W16) (d : Nat),
    let quote := s.quote (m.body.take 32)
    (Taken s m .held → op.toNat ∉ knownOpcodes → malformed m [(0, m.body.length)] = none →
      Rejects (.unknownOpcode m op) m op s 2 0 0) ∧
    (Taken s m .held → malformed m [] = some d → Rejects (.stopCommand m) m 0x0041 s 1 (BitVec.ofNat 32 d) 0) ∧
    (Taken s m .held → malformed m [] = none → s.boot.mode = .recovery → Rejects (.stopCommand m) m 0x0041 s 2 0 0) ∧
    (Taken s m .held → malformed m [] = none → s.boot.mode ≠ .recovery → s.epochMismatch m = true →
      Rejects (.stopCommand m) m 0x0041 s 3 (s.host.jobTag ++ s.host.epoch) 0) ∧
    (Sound s m 0x0001 [] .answered →
      Answers (.identify m) m 0x0001 s 0 0 0
        (partNumber ++ padTo 8 ((s.boot.otp.drop 0x40).take 8) ++ leBytes 4 s.version.toNat ++ leBytes 2 s.selfIndex ++
          [BitVec.ofNat 8 s.serviceCount, BitVec.ofNat 8 m.half.val]) (SentOnly s)) ∧
    (Sound s m 0x0002 [(0, 8)] .answered →
      (Completes (.subscribe m) s fun t =>
        (t.halfAt m.half).eventQp = some m.qp ∧ (t.halfAt m.half).eventMask = BitVec.ofNat 64 (cmdField m 0 8)) ∧
      ((s.halfAt m.half).eventQueue = [] → (s.halfAt m.half).lost = 0 → Answers (.subscribe m) m 0x0002 s 0 0 0 [] fun _ => True)) ∧
    (Sound s m 0x0072 [(0, 32)] .held →
      (s.boot.nextLeaf < 2 ^ 30 → (s.boot.nextLeaf ≠ s.store.reservedEnd ∨ s.store.accepts = true) →
        Answers (.attest m) m 0x0072 s 0 0 0 (quote ++ hssSignature s.boot.otp s.boot.nextLeaf quote) fun t =>
          t.boot.nextLeaf = s.boot.nextLeaf + 1 ∧ t.cru = s.cru) ∧
      (s.boot.nextLeaf < 2 ^ 30 → s.boot.nextLeaf = s.store.reservedEnd → s.store.accepts = false →
        Answers (.attest m) m 0x0072 s 9 0x100 0 [] fun t => t.boot = s.boot ∧ t.store.records = s.store.records) ∧
      (s.boot.nextLeaf = 2 ^ 30 → Rejects (.attest m) m 0x0072 s 9 0x101 0)) ∧
    (Sound s m 0x0080 [] .bank →
      (s.bankable = true → (∀ c n, ((s.crucible c).port n).changes = [] ∧ ((s.crucible c).port n).keepSent = none) →
        Completes (.bankCommand m) s fun t =>
          t.power = { s.power with mode := .enteringBanked, bankCmd := some (m.half, m.qp, m.tag) } ∧
          t = { s with power := t.power, half := t.half, cru := t.cru, out := t.out } ∧ CountsOnly s t ∧
          (∀ o ∈ t.out, o ∈ s.out ∨ ∃ c n v, o = .linkMsg c n 5 0 v) ∧
          ∀ c, t.crucible c = { s.crucible c with ports := (t.crucible c).ports } ∧
            ∀ n, ((s.crucible c).port n).mode = .up →
              ((t.crucible c).port n).mode = .up ∧ ((t.crucible c).port n).closing = true) ∧
      (s.bankable = false → Rejects (.bankCommand m) m 0x0080 s 5 0 0)) ∧
    (Sound s m 0x0081 [] .answered →
      (s.power.mode = .on → Answers (.wakeCommand m) m 0x0081 s 0 0 0 [] (SentOnly s)) ∧
      (s.power.mode = .banked → Completes (.wakeCommand m) s fun t =>
        t.power = { s.power with mode := .waking, wakeCmds := s.power.wakeCmds ++ [(m.half, m.qp, m.tag)] } ∧
        t.out = s.out ++ s.resumeSets))

/-- R285, R430, R431, R448, R505: the commands of a job. JOB_SET and SET_EPOCH stage the set of each selected crucible that serves and
wait for the commit points; SET_XRACK commits its set; SET_HEALTH_MAP takes a newer map; TAKE_OVER starts a takeover of a lost module by
this one, and its end leaves the module Held at the twin's oldest step. Whether the twin is Held, and its oldest step, are free values
(log 30). -/
def Obligations.JobCommands : Prop :=
  ∀ (s : State) (m : CmdMsg) (c : Cru) (ok : Bool) (v : Takeover) (d : Nat),
    let x := s.crucible c
    let f (o n : Nat) := cmdField m o n
    let on := c ∈ selected m ∧ x.live = true
    let jobFields : Fields := [(0, 2), (2, 2), (4, 2), (6, 2), (8, 1), (9, 1), (12, 4), (16, 8), (24, 2)]
    let mapFields : Fields := [(0, 4), (8, 8), (16, 4)]
    let map := s.windowBytes (f 0 4) (f 8 8) (f 16 4)
    (Sound s m 0x0010 jobFields .held →
      (4095 < f 4 2 → Rejects (.jobSet m) m 0x0010 s 4 4 (s.awayMask m)) ∧
      (f 4 2 ≤ 4095 → f 6 2 ≤ 1023 → f 8 1 ≤ 63 → f 9 1 ≤ 1 → f 24 2 = 0 → s.activating = false →
        s.host.running.any Running.waits = false →
        (on → Completes (.jobSet m) s fun t =>
          t.out = s.out ∧ (t.crucible c).xport.job.commit = true ∧
          (x.xport.job.commit = false → (t.crucible c).xport.job.shadow =
            { table := [], epoch := BitVec.ofNat 16 (f 2 2), tag := BitVec.ofNat 16 (f 0 2), active := f 9 1 == 1,
              rack := BitVec.ofNat 10 (f 6 2), slot := BitVec.ofNat 6 (f 8 1), self := BitVec.ofNat 12 (f 4 2) }) ∧
          (t.crucible c).xport.job.live = x.xport.job.live ∧ t.host.epoch = s.host.epoch ∧
          ∃ w, t.host.running = s.host.running ++ [⟨m.half, m.qp, 0x0010, m.tag, s.awayMask m,
            .jobSet w 0 (BitVec.ofNat 16 (f 2 2)) (some (BitVec.ofNat 16 (f 0 2)))⟩]) ∧
        (s.allAway m = true → Rejects (.jobSet m) m 0x0010 s 8 0 (s.awayMask m)))) ∧
    (Sound s m 0x0011 [(0, 2)] .held → s.host.running.any Running.waits = false → on → x.xport.job.commit = false →
      Completes (.setEpoch m) s fun t =>
        t.out = s.out ∧ (t.crucible c).xport.job.commit = true ∧
        (t.crucible c).xport.job.shadow = { x.xport.job.shadow with epoch := BitVec.ofNat 16 (f 0 2) } ∧
        (t.crucible c).xport.job.live = x.xport.job.live) ∧
    (Sound s m 0x0013 [(0, 2), (2, 2)] .held → f 0 2 ≤ 4095 → on → x.xport.xrack.commit = false →
      (5 ≤ f 2 2 → Answers (.setXrack m) m 0x0013 s 0 0 (s.awayMask m) [] fun t =>
        (t.crucible c).xport.xrack.live = ⟨BitVec.ofNat 12 (f 0 2), BitVec.ofNat 16 (f 2 2)⟩) ∧
      (f 2 2 < 5 → Completes (.setXrack m) s fun t =>
        (t.crucible c).xport.xrack.live = x.xport.xrack.live ∧ (t.crucible c).xport.status.getLsbD 4 = true)) ∧
    (Sound s m 0x0012 mapFields .held → InWindow s (f 0 4) (f 8 8) (f 16 4) → 16 ≤ f 16 4 → f 16 4 = 16 + 8 * leField map 4 2 →
      (mapFault map s.tundish.health = none →
        Answers (.setHealthMap m) m 0x0012 s 0 0 0 (leBytes 4 (mapOf map).gen.toNat) fun t => t.tundish.health = some (mapOf map)) ∧
      (mapFault map s.tundish.health = some d →
        Answers (.setHealthMap m) m 0x0012 s 4 (BitVec.ofNat 32 (0x80000000 + d)) 0 [] fun t => t.tundish = s.tundish)) ∧
    (Sound s m 0x0014 [(0, 2), (2, 2)] .held →
      (s.job.active = true → s.job.self.toNat = f 0 2 → s.twinNamed (f 0 2) (f 2 2) = true → Config.freeBool s.freeCtr = true →
        s.steps.takeover = none →
        Answers (.takeOver m) m 0x0014 s 0 0 0 [] fun t => t.steps = { s.steps with takeover := some ⟨f 0 2, f 2 2⟩ }) ∧
      ((s.job.active = false ∨ s.job.self.toNat ≠ f 0 2) →
        Answers (.takeOver m) m 0x0014 s 4 0 0 [] fun t => t.steps = s.steps)) ∧
    (s.steps.takeover = none → NoEffect (.takeoverCopyDone ok) s) ∧
    (s.steps.takeover = some v →
      (Completes (.takeoverCopyDone false) s fun t =>
        t.steps = { s.steps with takeover := none } ∧ t.cru = s.cru ∧ t.tundish = s.tundish) ∧
      (s.tundish.placement.isSome = true → Completes (.takeoverCopyDone true) s fun t =>
        t.steps.mode = .held ∧ t.steps.takeover = none ∧ t.steps.queue = [] ∧ t.steps.next = t.steps.oldest.toNat ∧
        t.tundish = s.tundish))

/-- R451 to R453, R455, R448, R59: windows, rings and control access by command. A new window's id and RKEY differ from those in use; a
ring's slots are named by its window, or by its home crucible alone. A control read answers the words it read; a control access to a
crucible that does not serve is reported and does nothing. -/
def Obligations.WindowCommands : Prop :=
  ∀ (s : State) (m : CmdMsg) (w : Window) (r : Ring) (c : Cru),
    let f (o n : Nat) := cmdField m o n
    let ringFields : Fields := [(0, 1), (1, 1), (4, 4), (8, 4), (12, 4), (16, 4), (24, 8), (32, 4)]
    let writeFields : Fields := [(0, 1), (1, 1), (2, 2), (4, 4), (8, 4 * f 2 2)]
    let up := (BitVec.ofNat 32 (f 4 4) - BitVec.ofNat 32 r.freed).toNat
    let asked := f 0 1 = 2 ∧ f 1 1 = c.val ∧ f 2 2 ≤ 256
    let word := (s.heard m).ctrlReadWord (accessorOf m.half) (.crucible c) (f 4 4)
    (Sound s m 0x0020 [(0, 1), (1, 1), (8, 8), (16, 8)] .held → f 0 1 ≤ 3 → f 1 1 ≤ 3 → s.host.windows.length < 1024 →
      f 8 8 % 65536 = 0 → hostAreaLow ≤ f 8 8 → f 8 8 + f 16 8 ≤ hostAreaHigh → (2 ≤ f 1 1 → f 8 8 + f 16 8 ≤ hangSlots) →
      f 16 8 % 65536 = 0 → 65536 ≤ f 16 8 →
      Completes (.defineWindow m) s fun t => ∃ w,
        t.host.windows = s.host.windows ++ [w] ∧ w.cru.val = f 0 1 ∧ w.access = BitVec.ofNat 2 (f 1 1) ∧ w.off = f 8 8 ∧
        w.len = f 16 8 ∧ w.ring = none ∧ (∀ v ∈ s.host.windows, v.id ≠ w.id ∧ v.rkey ≠ w.rkey) ∧
        Sent s t m.half (.response m.qp 0x8020 0 m.tag 0 0 (leBytes 4 w.id.toNat ++ leBytes 4 w.rkey.toNat)) ∧
        t.cru = s.cru) ∧
    (Sound s m 0x0021 [(0, 4)] .held →
      (s.window (f 0 4) = some w → Answers (.deleteWindow m) m 0x0021 s 0 0 0 [] fun t =>
        t.host.windows = s.host.windows.filter (fun v => v.id.toNat ≠ f 0 4) ∧ t.cru = s.cru) ∧
      (s.window (f 0 4) = none → Rejects (.deleteWindow m) m 0x0021 s 4 0 0)) ∧
    (Sound s m 0x0022 ringFields .held → s.ring (f 0 1) = none → f 1 1 ≤ 1 → 2 ≤ f 4 4 → f 4 4 ≤ 65536 → f 8 4 % 64 = 0 → 64 ≤ f 8 4 →
      f 8 4 ≤ 67108864 → f 4 4 * f 8 4 ≤ 8 * 2 ^ 30 → f 12 4 ≤ f 4 4 / 2 → ((s.halfAt m.half).qp (f 16 4)).isSome = true →
      s.host.windows.length < 1024 → Completes (.defineRing m) s fun t => ∃ q,
        t.host.rings = s.host.rings ++ [q] ∧ q.num = f 0 1 ∧ q.output = (f 1 1 == 1) ∧ q.slots = f 4 4 ∧ q.slotBytes = f 8 4 ∧
        q.perStep = f 12 4 ∧ q.qpn = f 16 4 ∧ q.remote = f 24 8 ∧
        q.before = s.steps.next - s.steps.oldest.toNat ∧ q.stepsRun = 0 ∧ q.freed = 0 ∧ q.seqs = [] ∧
        (f 1 1 = 1 → t.host.windows = s.host.windows) ∧
        (f 1 1 = 0 → ∃ w, t.host.windows = s.host.windows ++ [w] ∧ w.ring = some (f 0 1) ∧ w.access = 2 ∧ w.len = f 4 4 * f 8 4 ∧
          w.cru.val = f 0 1 % 4)) ∧
    (Sound s m 0x0023 [(0, 1), (4, 4)] .held →
      (s.ring (f 0 1) = some r → r.output = true → up < 2 ^ 31 → Answers (.ringCredit m) m 0x0023 s 0 0 0 [] fun t =>
        t.ring (f 0 1) = some { r with freed := r.freed + up }) ∧
      (s.ring (f 0 1) = some r → r.output = true → 2 ^ 31 ≤ up → Rejects (.ringCredit m) m 0x0023 s 4 4 0) ∧
      (s.ring (f 0 1) = none → Rejects (.ringCredit m) m 0x0023 s 4 0 0)) ∧
    (Sound s m 0x0060 [(0, 1), (1, 1), (2, 2), (4, 4)] .held → asked → (s.crucible c).live = true → f 2 2 = 1 → f 4 4 < 0x1000000 →
      Completes (.ctrlRead m) s fun t =>
        Sent word.2 t m.half (.response m.qp 0x8060 0 m.tag 0 0 (leBytes 4 word.1.toNat)) ∧ t.cru = word.2.cru) ∧
    (Sound s m 0x0061 writeFields .held → asked →
      ((s.crucible c).live = true → (s.crucible c).num.regs.commit = false → f 2 2 = 1 → f 4 4 = 0xD000 →
        Answers (.ctrlWrite m) m 0x0061 s 0 0 0 [] fun t =>
          (t.crucible c).num.regs.shadow.sat = BitVec.ofNat 32 (leField (m.body.drop 8) 0 4) ∧
          OnlyCrucible c { s with out := t.out, half := t.half } t) ∧
      ((s.crucible c).live = false → f 2 2 ≠ 0 → Rejects (.ctrlWrite m) m 0x0061 s 8 0 (cruBit c)))

/-- R284, R298, R301, R302, R304, R641: user kernels and graphs; R448, R490, R509, R540: STEP and STOP. A kernel is taken when its
fields, its form and its signature hold; a graph is answered when its placement is done, with the first cause of the table when one
exists: one that its body, the procedure, or a map taken meanwhile gives; a new placement drops the steps that have not started, and the module
acts on it once those that have are checked (log 160: the model's choice); a STEP queues its steps behind those queued, or opens the module's first; a STOP leaves no step that has not started. -/
def Obligations.GraphAndStepCommands : Prop :=
  ∀ (s : State) (m : CmdMsg) (g : GraphRun) (p : Placement) (r : TundishResult),
    let f (o n : Nat) := cmdField m o n
    let code := BitVec.ofNat 16 (f 0 2)
    let image := s.windowBytes (f 4 4) (f 8 8) (f 16 4)
    let k := kernelOf code image
    let body := s.windowBytes (f 0 4) (f 8 8) (f 16 4)
    let cause := s.bodyCause body (f 16 4) s.tundishVersion
    let trusted := (cause.map (·.1)) != some 0x01 && (cause.map (·.1)) != some 0x02
    let first := f 0 8
    let count := f 8 4
    let eta := BitVec.ofNat 32 (f 12 4)
    let atBoundary := s.steps.next ≤ s.steps.oldest.toNat ∨ (s.steps.mode ≠ .running ∧ s.steps.mode ≠ .replaying)
    let takes (t : State) (v : Option Placement) :=
      (atBoundary → t.tundish.placement = v ∧ t.tundish.next = none) ∧
      (¬atBoundary → t.tundish.placement = s.tundish.placement ∧ t.tundish.next = some (v, s.steps.next))
    (Sound s m 0x0030 [(0, 2), (4, 4), (8, 8), (16, 4)] .held → 0x8000 ≤ code.toNat → s.kernelUsed code = false →
      InWindow s (f 4 4) (f 8 8) (f 16 4) → k.ok = true → s.activating = false →
      (k.formed = true → hssVerify k.keyBytes k.codeBytes k.signature = true →
        Answers (.registerKernel m) m 0x0030 s 0 0 0 [] fun t =>
          t.tundish.kernels = s.tundish.kernels.filter (fun (q : Kernel) => q.code ≠ code) ++ [k]) ∧
      (k.formed = false → Answers (.registerKernel m) m 0x0030 s 9 1 0 [] fun t => t.tundish = s.tundish) ∧
      (k.formed = true → hssVerify k.keyBytes k.codeBytes k.signature = false →
        Answers (.registerKernel m) m 0x0030 s 9 5 0 [] fun t => t.tundish = s.tundish)) ∧
    (Sound s m 0x0031 [(0, 4), (8, 8), (16, 4), (20, 4), (24, 8)] .held → InWindow s (f 0 4) (f 8 8) (f 16 4) →
      InWindow s (f 20 4) (f 24 8) 128 → InWindow s (f 20 4) (f 24 8) (reportBytes body trusted) → s.activating = false →
      (s.tundish.run = none → Completes (.submitGraph m) s fun t =>
        t.out = s.out ∧ (∃ w off, t.tundish.run = some ⟨m.half, m.qp, m.tag, body, w, off, s.activePairs, (cause.getD (0, 0)).1,
          BitVec.ofNat 32 (cause.getD (0, 0)).2⟩) ∧
        t.host.running = s.host.running ++ [⟨m.half, m.qp, 0x0031, m.tag, 0, .graph⟩] ∧
        t.tundish.placement = s.tundish.placement) ∧
      (s.tundish.run.isSome = true → Answers (.submitGraph m) m 0x0031 s 5 0 0 [] fun t => t.tundish = s.tundish)) ∧
    (s.tundish.run = none → NoEffect (.placementDone .ok) s) ∧
    (s.tundish.run = some g →
      ((s.outcome g .ok).1 = 0 → s.placementOf g.body = some p → Completes (.placementDone .ok) s fun t =>
        takes t (some p) ∧ t.tundish.run = none ∧ t.tundish.shardsBad = false ∧ t.tundish.stepTaken = false ∧
        t.steps = s.steps.stop ∧
        (s.qpWorks g.half g.qp = true → Sent s t g.half (.response g.qp 0x8031 0 g.tag 0 0 (List.replicate 8 0 ++ p.digest)))) ∧
      (resultGood r = true → (s.outcome g r).1 ≠ 0 → s.qpWorks g.half g.qp = true → Completes (.placementDone r) s fun t =>
        t.tundish.run = none ∧
        ((s.outcome g r).1 ≠ 0x0D → t.tundish.placement = s.tundish.placement ∧ t.tundish.next = s.tundish.next ∧ t.steps = s.steps) ∧
        ((s.outcome g r).1 = 0x0D → takes t none) ∧
        Sent s t g.half (.response g.qp 0x8031 0 g.tag 0 0
          ([(s.outcome g r).1, 0, 0, 0] ++ leBytes 4 (s.outcome g r).2.toNat ++ List.replicate 32 0))) ∧
      (g.status ≠ 0 → resultGood r = true → (s.outcome g r).1 ≠ 0 ∧ (s.outcome g r).1.toNat ≤ g.status.toNat) ∧
      (s.activePairs ≠ g.act → resultGood r = true → (s.outcome g r).1 ≠ 0) ∧
      (resultGood r = false → NoEffect (.placementDone r) s)) ∧
    (Sound s m 0x0040 [(0, 8), (8, 4), (12, 4)] .held →
      (s.steps.firstOk first = false → Rejects (.stepCommand m) m 0x0040 s 4 0 0) ∧
      (first + count ≤ 2 ^ 48 - 1 → s.steps.firstOk first = true → nonFinite eta = true → Rejects (.stepCommand m) m 0x0040 s 4 12 0) ∧
      (first + count ≤ 2 ^ 48 - 1 → s.steps.firstOk first = true → nonFinite eta = false → s.job.active = true → s.placed = true →
        s.activating = false → s.restore = none → s.steps.takeover = none → s.steps.queued < 4 →
        (count = 0 → Answers (.stepCommand m) m 0x0040 s 0 0 0 [] (SentOnly s)) ∧
        (count ≠ 0 → s.steps.mode ≠ .held → Answers (.stepCommand m) m 0x0040 s 0 0 0 [] fun t =>
          t.steps.queue.getLast? = some ⟨first, count, eta⟩ ∧ t.steps.queuedEnd = first + count ∧
          t.steps.mode = (if s.steps.mode = .idle then .running else s.steps.mode) ∧ t.tundish.stepTaken = true) ∧
        (count ≠ 0 → s.steps.mode = .held → Completes (.stepCommand m) s fun t =>
          t.steps.queue = [⟨first, count, eta⟩] ∧ t.steps.next = first ∧ t.steps.queuedEnd = first + count))) ∧
    (Sound s m 0x0041 [] .held → Answers (.stopCommand m) m 0x0041 s 0 0 0 (leBytes 8 (s.steps.next - 1)) fun t =>
      t.steps = s.steps.stop ∧ t.steps.queuedEnd = s.steps.next ∧ (∀ q ∈ t.steps.queue, q.first + q.count ≤ s.steps.next) ∧
      t.cru = s.cru ∧ t.store = s.store)

/-! ### Storage -/

/-- R456 to R459, R520 to R532, R535, R536: storage targets, ingots and restores. Each half that works connects, step by step; a target is
kept once it is connected; an ingot of a module that writes is laid in its leases and waits for its step; its data leaves as the target
reads it, with its CRC kept; it is done when the last flush is; and a failed NVMe command, or a connection in error, ends it. -/
def Obligations.StorageCommands : Prop :=
  ∀ (s : State) (m : CmdMsg) (blocks : Nat) (form : Bool) (status : W16) (p : Placement) (part : ShardPart) (es : List Extent)
    (g : IngotRun) (r : RestoreRun) (v : NvmeCmd) (a : Frame) (e : Extent) (i : Nat) (target : Fin 32) (data : List Byte),
    let f (o n : Nat) := cmdField m o n
    let targetFields : Fields := [(0, 1), (1, 1), (2, 2), (4, 16), (20, 4), (24, 2), (32, f 24 2)]
    let listFields : Fields := [(0, 8), (8, 4), (16, 8), (24, 4)]
    let bs := s.windowBytes (f 8 4) (f 16 8) (f 24 4)
    let n := leField bs 4 4
    let room := ∀ h, (s.halfAt h).alive = true → ((s.halfAt h).dropTarget (f 0 1)).qps.length + targetQps ≤ 512
    (Sound s m 0x0050 targetFields .held → f 0 1 ≤ 31 → (f 1 1 = 4 ∨ f 1 1 = 6) → 1 ≤ f 24 2 → f 24 2 ≤ 223 → room →
      (Completes (.storageTarget m true blocks true status) s fun t =>
        Told t m.half (.response m.qp 0x8050 0 m.tag 0 0 (leBytes 8 blocks)) ∧ s.out <+: t.out ∧
        (∀ h, (s.halfAt h).alive = true → ∀ st ∈ connectSteps s.hostNqn, Told t h (.admin (f 0 1) st)) ∧
        t.target (f 0 1) = some ⟨f 0 1, BitVec.ofNat 8 (f 1 1), BitVec.ofNat 16 (f 2 2), BitVec.ofNat 128 (f 4 16),
          BitVec.ofNat 32 (f 20 4), (m.body.drop 32).take (f 24 2), blocks⟩) ∧
      (Completes (.storageTarget m false blocks form status) s fun t =>
        Told t m.half (.response m.qp 0x8050 10 m.tag (BitVec.ofNat 32 status.toNat) 0 []) ∧ CountsOnly s t ∧
        t = { s with out := t.out, half := t.half, freeCtr := t.freeCtr }) ∧
      (Completes (.storageTarget m true blocks false status) s fun t =>
        Told t m.half (.response m.qp 0x8050 4 m.tag 20 0 []) ∧ CountsOnly s t ∧
        t = { s with out := t.out, half := t.half, freeCtr := t.freeCtr })) ∧
    (Sound s m 0x0051 listFields .held →
      (s.ingotStepOk (f 0 8) = false → Rejects (.ingot m) m 0x0051 s 4 0 0) ∧
      (s.ingotStepOk (f 0 8) = true → s.tundish.placement = some p → InWindow s (f 8 4) (f 16 8) (f 24 4) → 64 ≤ f 24 4 →
        s.writes p (leField bs 2 1) = some part → headBad bs 1 3 [(8, 8), (16, 1), (24, 8), (32, 4)] = none → f 24 4 = 64 + 16 * n →
        (s.target (leField bs 16 1)).isSome = true → s.leaseBad bs n = none →
        layIngot part (leasesOf bs n) (tensorMap p part (!(BitVec.ofNat 16 (leField bs 2 2)).getLsbD 1)).length (leField bs 32 4) =
          some es →
        (s.storing = false → Answers (.ingot m) m 0x0051 s 0 0 0 [] fun t => ∃ g, t.ingot = some g ∧
          g.step = BitVec.ofNat 48 (f 0 8) ∧ g.place = p ∧ g.extents = es ∧ g.stage = .waiting ∧ g.cmds = [] ∧ g.failed = none) ∧
        (s.storing = true → Answers (.ingot m) m 0x0051 s 5 0 0 [] fun t => t.ingot = s.ingot))) ∧
    (s.ingot = some g → g.stage = .waiting →
      (s.ingotDue g = false → NoEffect .ingotStart s) ∧
      (s.ingotDue g = true → s.steps.mode ≠ .fenced → s.ingotPart g = some part →
        (∀ e ∈ g.extents, (s.crucible e.cru).extentReady g part e = false) → (∃ e ∈ g.extents, e.issued = false) →
        Completes .ingotStart s fun t => t = { s with ingot := some { g with stage := .extents } }) ∧
      (s.ingotDue g = true → s.steps.mode ≠ .fenced → s.ingotPart g = some part → g.extents = [e] → g.cmds = [] → g.failed = none →
        e.issued = false → (s.crucible e.cru).extentReady g part e = true → s.engineUp (s.halfFor 0) = true →
        (s.storageDown (s.halfFor 0) e.target = false → s.openQueues (s.halfFor 0) [] e.target ≠ [] →
          Completes .ingotStart s fun t => ∃ q ∈ s.openQueues (s.halfFor 0) [] e.target,
            t.ingot = some { g with stage := .extents, extents := [{ e with issued := true }],
                                    cmds := [⟨1, s.halfFor 0, e.target, q, .extent 0⟩] } ∧
            Sent s t (s.halfFor 0) (.nvme e.target q 1 1 e.lba e.blocks) ∧ t.cru = s.cru) ∧
        (s.storageDown (s.halfFor 0) e.target = true → Completes .ingotStart s fun t => t.ingot = none))) ∧
    (Received s a → a.ce = false → s.ingot = some g → s.ingotPart g = some part → g.extents[i]? = some e →
      g.cmds.any (fun c => c.half == a.half && c.use == .extent i) = true → e.done = false → s.engineUp a.half = true →
      (s.crucible e.cru).live = true → g.failed = none → s.steps.mode ≠ .fenced →
      Completes (.targetRdmaRead a i) s fun t => ∃ bs,
        bs = Memory.readBytes (s.crucible e.cru).hbm.mem
          ((s.crucible e.cru).riser.extentAt (g.flags.getLsbD 0) part.groups part.units e) e.bytes ∧
        Sent s t a.half (.nvmeData e.target bs) ∧
        t.ingot = some { g with extents := listSet g.extents i { e with done := true, crc := some (crc64 bs) } }) ∧
    (Received s a → s.engineUp a.half = true → v.half = a.half → v.target = target.val →
      (s.ingot = some g → g.cmds = [v] → g.failed = none →
        (status ≠ 0 → Completes (.nvmeCompletion a target v.num status data) s fun t => t.ingot = none ∧ t.restore = s.restore) ∧
        (g.stage = .manifestFlush → v.use = .manifestFlush → s.steps.mode ≠ .fenced → g.extents.all Extent.issued = true →
          Completes (.nvmeCompletion a target v.num 0 data) s fun t => t.ingot = none ∧ t.cru = s.cru)) ∧
      (s.ingot = none → s.restore = some r → r.cmds = [v] → r.failed = none → status ≠ 0 →
        Completes (.nvmeCompletion a target v.num status data) s fun t => t.restore = none ∧ t.tundish.shardsBad = true)) ∧
    (Sound s m 0x0052 listFields .held →
      (2 ^ 48 ≤ f 0 8 → Rejects (.restore m) m 0x0052 s 4 0 0) ∧
      (f 0 8 < 2 ^ 48 → InWindow s (f 8 4) (f 16 8) (f 24 4) → 64 ≤ f 24 4 → leField bs 2 1 &&& 2 = 0 →
        headBad bs 2 2 [(8, 8)] = none → f 24 4 = 64 + 16 * n → s.leaseBad bs n = none → s.tundish.placement = some p →
        s.tundish.stepTaken = false → s.tundish.next = none → s.storing = false →
        s.storageDown s.firstHalf (leaseAt bs 0).target = false → s.openQueues s.firstHalf [] (leaseAt bs 0).target ≠ [] →
        Completes (.restore m) s fun t => ∃ r, ∃ q ∈ s.openQueues s.firstHalf [] (leaseAt bs 0).target,
          t.restore = some r ∧ r.step = BitVec.ofNat 48 (f 0 8) ∧ r.frozenOnly = false ∧ r.body = p.body ∧ r.slots = leasesOf bs n ∧
          r.cmds = [⟨1, s.firstHalf, (leaseAt bs 0).target, q, .readManifest 0⟩]))

/-! ### Firmware -/

/-- R611 to R615, R633 to R637: updates and activations. UPDATE_WRITE erases its first sector and waits; a sector that reads back ends
it or starts the next; one that fails twice ends it with REJECTED. ACTIVATE is queued for its step, or begins at once; a part of an
activation that does not return in time, and the end of a trial period, reset the module with its OTP kept. -/
def Obligations.FirmwareUpdate : Prop :=
  ∀ (s : State) (m : CmdMsg) (u : UpdateRun) (a : Activation) (c : Cru) (part : UpdatePart),
    let f (o n : Nat) := cmdField m o n
    let fields : Fields := [(0, 4), (8, 8), (16, 4), (20, 4)]
    let bs := s.windowBytes (f 0 4) (f 8 8) (f 16 4)
    let ended (t : State) := t.boot.activation = none ∧ t.boot.image = none ∧ t.boot.otp = s.boot.otp ∧ t.boot.slotA = s.boot.slotA ∧
      t.boot.slotB = s.boot.slotB ∧ t.power.mode = .on
    let begun (t : State) (step : W48) := t.boot.activation = some ⟨2, step, s.portsUp⟩ ∧ t.boot.image = none ∧
      t.tundish.placement = none ∧ t.tundish.kernels = [] ∧ t.steps.queue = []
    (Sound s m 0x0070 fields .held → f 16 4 % 65536 = 0 → f 20 4 % 65536 = 0 → f 20 4 + f 16 4 ≤ 67108864 →
      InWindow s (f 0 4) (f 8 8) (f 16 4) →
      (s.boot.update.isSome = true → Rejects (.updateWrite m) m 0x0070 s 5 0 0) ∧
      (s.boot.update = none → s.boot.activation = none →
        (f 16 4 = 0 → Answers (.updateWrite m) m 0x0070 s 0 0 0 [] fun t => t.boot = s.boot ∧ t.store = s.store) ∧
        (f 16 4 ≠ 0 → s.store.accepts = true → Completes (.updateWrite m) s fun t =>
          t.boot.update = some ⟨m.half, m.qp, m.tag, 0, s.updateSlot, f 20 4, bs, false⟩ ∧
          slotRead (t.boot.slot s.updateSlot) (f 20 4) 65536 = List.replicate 65536 0xFF) ∧
        (f 16 4 ≠ 0 → s.store.accepts = false → Answers (.updateWrite m) m 0x0070 s 9 9 0 [] fun t => t.boot = s.boot))) ∧
    (s.boot.update = none → NoEffect (.flashSectorDone true) s ∧ NoEffect (.flashSectorDone false) s) ∧
    (s.boot.update = some u → u.slot < 2 → u.data.length = 65536 → Completes (.flashSectorDone true) s fun t =>
      t.boot.update = none ∧ slotRead (t.boot.slot u.slot) u.imageOff 65536 = u.data) ∧
    (s.boot.update = some u → u.retried = true → s.qpWorks u.half u.qp = true → Completes (.flashSectorDone false) s fun t =>
      t.boot.update = none ∧ Sent s t u.half (.response u.qp 0x8070 9 u.tag 9 u.unavailable [])) ∧
    (Sound s m 0x0071 [(0, 8), (8, 1)] .held → s.boot.mode ≠ .recovery → f 8 1 ≤ 1 →
      (f 8 1 = 0 ∨ f 0 8 < 2 ^ 48 ∧ s.job.active = true) →
      (s.tundish.run.isSome = true → Rejects (.activate m) m 0x0071 s 5 0 0) ∧
      (s.boot.activation = none → s.boot.update = none → s.tundish.run = none → s.storing = false →
        (f 8 1 = 1 → Answers (.activate m) m 0x0071 s 0 0 0 [] fun t =>
          t.boot.activation = some ⟨1, BitVec.ofNat 48 (f 0 8), []⟩ ∧ t.boot.image = s.boot.image) ∧
        (f 8 1 = 0 → s.anyActive = false → s.store.accepts = true → Completes (.activate m) s fun t => begun t 0))) ∧
    (s.boot.activation = some a → a.stage = 1 →
      (s.steps.everChecked = true → a.step.toNat ≤ s.steps.checked.toNat → s.anyActive = false → s.store.accepts = true →
        Completes .activationStart s fun t => begun t a.step) ∧
      (s.anyActive = true → NoEffect .activationStart s)) ∧
    (s.boot.activation = none → NoEffect .activationStart s ∧ NoEffect (.crucibleRestartDone c) s ∧
      NoEffect (.activationPauseTimeout part) s) ∧
    (s.boot.activation = some a →
      (a.stage = 3 + c.val → (s.crucible c).returning = true → Completes (.crucibleRestartDone c) s fun t =>
        (t.crucible c).service = .inService ∧ (t.crucible c).frozen = false) ∧
      (a.stage = 2 → Completes (.activationPauseTimeout .portDie) s ended) ∧
      (a.stage = 3 + c.val → Completes (.activationPauseTimeout (.crucible c)) s ended)) ∧
    (s.boot.trial = none → NoEffect .trialTimeout s) ∧ (s.boot.trial.isSome = true → Completes .trialTimeout s ended)

/-! ### The host ports -/

/-- R438 to R440, R442 to R444, R454, R455: RDMA from the host. An access that a window allows reads or writes that window's bytes; an
unknown RKEY, a range outside the window and a missing right meet a remote access NAK and move nothing; an announced sequence is kept by
its ring; a SEND on a data queue pair, a message above 2^31 bytes and a 17th RDMA READ put their queue pair in error (for the last two
log 153: the model's choice); the oldest entry of an output ring leaves within the host's credit. -/
def Obligations.HostRdma : Prop :=
  ∀ (s : State) (f : Frame) (r : RdmaReq) (imm : W32) (n : Nat) (w : Window) (q : Qp) (g : Ring) (ring : Fin 256) (a v b : Nat)
    (rest : List Nat),
    let h := f.half
    let x := s.crucible w.cru
    let idle := (s.halfAt h).readsWaiting r.qp < 16
    let replies (i : Instr) (o : RdmaReply) := Completes i s fun t => Sent s t h (.rdmaReply r.qp o) ∧ SentOnly s t
    let writes (i : Instr) := Completes i s fun t =>
      Sent s t h (.rdmaReply r.qp .ack) ∧ t.crucible w.cru = x.hbmWrite .portDie (w.off + r.offset) r.data none ∧
      t = { s.putCrucible w.cru (t.crucible w.cru) with out := t.out, half := t.half }
    let breaks (i : Instr) (m : Nat) := Completes i s fun t =>
      (t.halfAt h).qp m = some { q with error := true } ∧ Sent s t h (.rdmaReply m .invalidRequestNak) ∧
      t = { s with half := t.half, out := t.out }
    let slot := (v % g.slots) * g.slotBytes
    let home := s.crucible (Fin.ofNat 4 g.num)
    (Received s f → Works s h r.qp q → f.ce = false → r.data.length ≤ 2 ^ 31 → n ≤ 2 ^ 31 →
      (Usable s h r.rkey r.offset r.data.length 1 w → writes (.rdmaWrite f r) ∧ writes (.rdmaWriteWithImmediate f r imm)) ∧
      (idle → Usable s h r.rkey r.offset n 0 w → Completes (.rdmaRead f r n) s fun t =>
        Sent s t h (.rdmaReply r.qp (.data (Memory.readBytes x.hbm.mem (w.off + r.offset) n))) ∧
        (t.crucible w.cru).hbm.mem = x.hbm.mem ∧ OnlyCrucible w.cru { s with out := t.out, half := t.half } t) ∧
      (s.engineUp h = false → replies (.rdmaWrite f r) .rnrNak ∧ (idle → replies (.rdmaRead f r n) .rnrNak)) ∧
      (s.engineUp h = true → s.host.windows.find? (fun w => w.rkey == r.rkey) = none →
        replies (.rdmaWrite f r) .remoteAccessNak ∧ (idle → replies (.rdmaRead f r n) .remoteAccessNak) ∧
        replies (.rdmaWriteWithImmediate f r imm) .remoteAccessNak) ∧
      (s.engineUp h = true → s.host.windows.find? (fun w => w.rkey == r.rkey) = some w →
        ((w.len < r.offset + r.data.length ∨ w.access.getLsbD 1 = false) → replies (.rdmaWrite f r) .remoteAccessNak) ∧
        (idle → (w.len < r.offset + n ∨ w.access.getLsbD 0 = false) → replies (.rdmaRead f r n) .remoteAccessNak)) ∧
      (s.rdmaGate h r.rkey r.offset r.data.length 1 = .inr (w, a) → w.ring = some (imm.toNat / 2 ^ 24) →
        s.ring (imm.toNat / 2 ^ 24) = some g → g.output = false → g.extend (imm.toNat % 2 ^ 24) = some v →
        Completes (.rdmaWriteWithImmediate f r imm) s fun t => ∃ g', t.ring (imm.toNat / 2 ^ 24) = some g' ∧ v ∈ g'.seqs)) ∧
    (Received s f → Works s h r.qp q → f.ce = false → (¬idle ∨ s.engineUp h = true ∧ 2 ^ 31 < n) → breaks (.rdmaRead f r n) r.qp) ∧
    (Received s f → Works s h r.qp q → f.ce = true → q.cnpAt = none → s.engineUp h = true → r.data.length ≤ 2 ^ 31 →
      s.host.windows.find? (fun w => w.rkey == r.rkey) = none → Completes (.rdmaWrite f r) s fun t =>
        Told t h (.cnp r.qp) ∧ Told t h (.rdmaReply r.qp .remoteAccessNak) ∧ s.out <+: t.out) ∧
    (Received s f → Works s h n q → f.ce = false →
      (q.kind = .data → breaks (.dataQpSend f n) n) ∧
      (q.kind ≠ .data → Completes (.dataQpSend f n) s fun t => t.out = s.out ∧ SentOnly s t) ∧
      (q.kind = .command → 16 ≤ s.outstanding h n → Completes (.sendWithoutReceiveBuffer f n) s fun t =>
        Sent s t h (.rdmaReply n .rnrNak) ∧ SentOnly s t)) ∧
    (s.ring ring.val = some g → g.seqs = v :: rest → g.base = some b → (s.halfAt g.half).qp g.qpn = some q → g.output = true →
      (v < g.freed + g.slots → s.steps.mode ≠ .fenced → s.hears g.half = true → s.engineUp g.half = true → q.error = false →
        home.live = true → s.power.mode = .on → Completes (.outputEntrySend ring) s fun t =>
          t.ring ring.val = some { g with seqs := rest } ∧
          Sent s t g.half (.ringEntry g.qpn (g.remote + slot) g.rkey (BitVec.ofNat 32 (g.num * 2 ^ 24 + v % 2 ^ 24))
            (Memory.readBytes home.hbm.mem (b + slot) g.slotBytes))) ∧
      (g.freed + g.slots ≤ v → NoEffect (.outputEntrySend ring) s))

/-- R438 to R441, R449: queue pairs. A request is refused outside its limits (for a path MTU that R440 does not name, DEDUCED) and otherwise
gives a new queue pair of an unused number; a CNP halves the rate at most once in 50 µs, not below 1 Gbit/s, and 55 µs without one raise
it, to at most 400 Gbit/s; an operation is sent again until its retries run out, and then its queue pair is in error; waiting events leave
as the queue pair takes them. -/
def Obligations.QueuePairs : Prop :=
  ∀ (s : State) (f : Frame) (r : CmRequest) (n k : Nat) (q : Qp),
    let h := f.half
    let v := s.halfAt h
    let becomes (i : Instr) (q' : Qp) := Completes i s fun t => (t.halfAt h).qp n = some q' ∧ t.out = s.out
    let resends (i : Instr) (q' : Qp) := Completes i s fun t => (t.halfAt h).qp n = some q' ∧ Sent s t h (.roceResend n)
    let fails (i : Instr) := Completes i s fun t => (t.halfAt h).qp n = some { q with error := true } ∧
      (v.eventQp = some n → (t.halfAt h).eventQp = none)
    let opens (kind : QpKind) := Completes (.cmReq f r) s fun t => ∃ p,
      (t.halfAt h).qps = v.qps ++ [p] ∧ (∀ o ∈ v.qps, o.num ≠ p.num) ∧ p.kind = kind ∧ p.error = false ∧ p.rate = 400000 ∧
      p.retryLimit = r.retry.val ∧ p.rnrLimit = r.rnrRetry.val ∧ p.mtu = r.mtu ∧ Sent s t h (.cmRep p.num)
    (Received s f → s.engineUp h = true →
      ((r.mtu ∉ pathMtus ∨ (r.kind ≠ 1 ∧ r.kind ≠ 2) ∨ 512 ≤ v.qps.length ∨ (r.kind = 1 ∧ 16 ≤ v.commandQps)) →
        Completes (.cmReq f r) s fun t => Sent s t h .cmRej ∧ SentOnly s t) ∧
      (r.mtu ∈ pathMtus → r.kind = 2 → v.qps.length < 512 → opens .data) ∧
      (r.mtu ∈ pathMtus → r.kind = 1 → v.qps.length < 512 → v.commandQps < 16 → v.net.prefixes = [] → opens .command)) ∧
    (Received s f → s.engineUp h = false → Completes (.cmReq f r) s fun t => t.out = s.out ∧ SentOnly s t) ∧
    (s.hears h = false → NoEffect (.cmReq f r) s) ∧
    (Received s f → f.ce = false → Works s h n q →
      (q.cutAt = none → becomes (.cnp f n) { q with rate := max (q.rate / 2) 1000, cutAt := some s.power.aon }) ∧
      (∀ u, q.cutAt = some u → s.power.aon.toNat - u.toNat < 1250 → becomes (.cnp f n) q) ∧
      becomes (.roceAck f n .ack) { q with retries := 0, rnrRetries := 0 } ∧
      fails (.roceAck f n .nak) ∧
      ((q.rnrLimit = 7 ∨ q.rnrRetries < q.rnrLimit) →
        resends (.roceAck f n .rnrNak) { q with rnrRetries := q.rnrRetries + 1 } ∧
        (v.eventQp = some n → Completes (.roceAck f n .rnrNak) s fun t => (t.halfAt h).eventBlocked = true)) ∧
      (q.rnrLimit ≠ 7 → q.rnrLimit ≤ q.rnrRetries → fails (.roceAck f n .rnrNak))) ∧
    (Works s h n q →
      becomes (.cnpRateIncrease h n) { q with rate := min (q.rate + 5000) 400000 } ∧
      (s.engineUp h = true →
        (q.retries < q.retryLimit → resends (.roceAckTimeout h n) { q with retries := q.retries + 1 }) ∧
        (q.retryLimit ≤ q.retries → fails (.roceAckTimeout h n)))) ∧
    (v.eventBlocked = true → s.answers h = true → v.lost = 0 → v.eventQp = some n → Completes (.eventQueueSpace h k) s fun t =>
      (∀ e ∈ v.eventQueue.take k, Told t h (.event n e)) ∧ (t.halfAt h).eventQueue = v.eventQueue.drop k ∧
      (t.halfAt h).eventBlocked = decide (k ≤ v.eventQueue.length) ∧
      (v.paused = 0 → t.out = s.out ++ (v.eventQueue.take k).map (fun e => .eth h (v.markOf (.event n e)) (.event n e)))) ∧
    (v.eventBlocked = false → NoEffect (.eventQueueSpace h k) s)

/-- R37, R436 to R438, R461: frames, links and failures of the port die. A half answers ARP, neighbour discovery and echo for its own
addresses and stays silent for others; a pause holds an enabled priority, and what waited for a priority leaves when it is released; a half
that fails loses its queue pairs; a failed always-on domain stops the store and every step that has not started. -/
def Obligations.EthernetAndFailures : Prop :=
  ∀ (s : State) (f : Frame) (k : Fin 8) (on : Bool) (a : W32) (b : W128) (data : List Byte),
    let h := f.half
    let v := s.halfAt h
    let silent (i : Instr) := Completes i s fun t => t.out = s.out ∧ SentOnly s t
    let sends (i : Instr) (m : EthMsg) := Completes i s fun t => Sent s t h m ∧ SentOnly s t
    (Received s f →
      (s.engineUp h = true →
        (v.net.ipv4 = some a → sends (.arp f a) (.arpReply a)) ∧
        (s.ownV6 h b = true → sends (.neighbourDiscovery f b) (.neighbourAdvert b) ∧ sends (.icmpEcho f 6 b data) (.echoReply data)) ∧
        (v.net.ipv4 = some (b.setWidth 32) → sends (.icmpEcho f 4 b data) (.echoReply data))) ∧
      ((s.engineUp h = false ∨ v.net.ipv4 ≠ some a) → silent (.arp f a)) ∧
      ((s.engineUp h = false ∨ s.ownV6 h b = false) → silent (.neighbourDiscovery f b) ∧ silent (.icmpEcho f 6 b data)) ∧
      ((s.engineUp h = false ∨ v.net.ipv4 ≠ some (b.setWidth 32)) → silent (.icmpEcho f 4 b data))) ∧
    (s.hears h = false → NoEffect (.arp f a) s ∧ NoEffect (.neighbourDiscovery f b) s ∧ NoEffect (.icmpEcho f 4 b data) s) ∧
    (s.hears h = true → silent (.unsupportedFrame h) ∧
      (Completes (.pfcPause h k on) s fun t =>
        let w := t.halfAt h
        w.paused.getLsbD k.val = (if v.pfcEnable.getLsbD k.val = true then on else v.paused.getLsbD k.val) ∧
        (∀ j, j ≠ k.val → w.paused.getLsbD j = v.paused.getLsbD j) ∧ w.qps = v.qps ∧
        w.waits = v.waits.filter (fun o => w.holdsBack o.mark) ∧
        t = { s.putHalf h w with
              out := s.out ++ (v.waits.filter (fun o => !w.holdsBack o.mark)).map (fun o => .eth h o.mark o.msg) })) ∧
    (s.hears h = false → NoEffect (.unsupportedFrame h) s ∧ NoEffect (.pfcPause h k on) s) ∧
    (s.engineUp h = true → Completes (.ethLinkUp h) s fun t => t = s.putHalf h { v with linkUp := true }) ∧
    (Completes (.ethLinkDown h) s fun t => t = s.putHalf h { v with linkUp := false }) ∧
    (v.alive = true → Completes (.portDieHalfFailure h) s fun t =>
      (t.halfAt h).alive = false ∧ (t.halfAt h).qps = [] ∧ (t.halfAt h).linkUp = false ∧ t.engineUp h = false ∧
      (∀ i ∈ t.held, ∀ m, hostMsg i = some m → m.half ≠ h)) ∧
    (v.alive = false → NoEffect (.portDieHalfFailure h) s) ∧
    (Completes .alwaysOnDomainFailure s fun t =>
      t = { s with alwaysOn := false, steps := s.steps.stop, store := { s.store with stopped := true } } ∧
      t.store.accepts = false ∧ t.portDieUp = false)

/-! ### Power -/

/-- R386, R565 to R568, R571, R579 to R582: the power sequence and the Banked state, entered once no port is Up any more. A power-down ends the store's writing and everything the
module runs; a module power-on leaves OTP and firmware slots as they were and every crucible in its ROM. -/
def Obligations.PowerSequence : Prop :=
  ∀ (s : State) (c : Cru) (slot : BitVec 6) (vin : W16) (cmd : HalfIx × Nat × W32),
    let p := s.power
    let ramps := p.pwrEn && !p.tripped
    let down (i : Instr) := Completes i s fun t =>
      t.power.mode = .poweringDown ∧ t.store.stopped = true ∧ t.held = [] ∧ t.host.running = [] ∧ t.ingot = none ∧ t.restore = none ∧
      (t.crucible c).live = false ∧ (t.crucible c).hbm.mem = [] ∧ t.boot.otp = s.boot.otp ∧ t.boot.image = none
    let fresh (i : Instr) := Completes i s fun t =>
      t.power.mode = .on ∧ (t.crucible c).service = .resetting ∧ (t.crucible c).fw = none ∧ (t.crucible c).hang.booting = true ∧
      (t.crucible c).hbm.mem = [] ∧ t.boot.image = none ∧ t.boot.otp = s.boot.otp ∧ t.boot.slotA = s.boot.slotA ∧
      t.boot.slotB = s.boot.slotB ∧ t.store.ready = false ∧ t.host = HostShare.reset ∧ t.held = []
    (p.off = true → Completes (.standbyEntry slot) s fun t =>
      t = { s with power := { p with mode := if ramps then .poweringUp else .standby, off := false, slotId := slot } }) ∧
    (p.off = false → NoEffect (.standbyEntry slot) s) ∧
    (p.mode = .standby → p.off = false → Completes .pwrEnHigh s fun t =>
      t = { s with power := { p with pwrEn := true, mode := if p.tripped then .standby else .poweringUp } }) ∧
    (p.mode = .poweringUp → fresh .powerUpComplete) ∧ (p.mode ≠ .poweringUp → NoEffect .powerUpComplete s) ∧
    (p.mode = .on → fresh (.sysRstN slot) ∧ Completes (.sysRstN slot) s fun t => t.power.slotId = slot) ∧
    (p.mode ≠ .on → NoEffect (.sysRstN slot) s) ∧
    (p.mode.running = true →
      down .railFault ∧ down .pwrEnLow ∧ (vin.toNat < 44000 → down (.inputLost vin)) ∧
      (60000 < vin.toNat → down (.inputOverVoltage vin))) ∧
    (p.mode.running = false → NoEffect .railFault s) ∧
    (44000 ≤ vin.toNat → NoEffect (.inputLost vin) s) ∧ (vin.toNat ≤ 60000 → NoEffect (.inputOverVoltage vin) s) ∧
    (p.mode = .standby → vin.toNat < 44000 → Completes (.inputLost vin) s fun t => t.power.off = true ∧ t.boot.otp = s.boot.otp) ∧
    (p.mode = .poweringDown → p.off = false → Completes .powerDownComplete s fun t =>
      t.power.off = true ∧ t.steps = Steps.reset ∧ t.tundish = Tundish.reset ∧ t.store.records = s.store.records) ∧
    (p.pwrEn = false → Completes .thermTripRelease s fun t => t = { s with power := { p with tripped := false } }) ∧
    (p.pwrEn = true → NoEffect .thermTripRelease s) ∧
    (p.mode = .enteringBanked → s.portsClosed = true → p.bankCmd = some cmd → s.qpWorks cmd.1 cmd.2.1 = true →
      Completes .bankedEntered s fun t =>
      t.power.mode = (if p.wakeDue then .waking else .banked) ∧ t.power.bankCmd = none ∧ t.power.event.getLsbD 1 = true ∧
      Told t cmd.1 (.response cmd.2.1 0x8080 0 cmd.2.2 0 0 []) ∧ (p.wakeDue = true → s.resumeSets <:+ t.out) ∧
      ((s.crucible c).live = true → (t.crucible c).pwr.coreLock = false ∧ (t.crucible c).hbm.mem = (s.crucible c).hbm.mem)) ∧
    ((p.mode ≠ .enteringBanked ∨ s.portsClosed = false) → NoEffect .bankedEntered s) ∧
    (p.mode = .waking → p.wakeCmds = [cmd] → s.qpWorks cmd.1 cmd.2.1 = true → Completes (.wakeEnd 0) s fun t =>
      t.power.mode = .on ∧ t.power.wakeCmds = [] ∧ t.power.event.getLsbD 0 = true ∧
      Told t cmd.1 (.response cmd.2.1 0x8081 0 cmd.2.2 0 0 []) ∧
      ((s.crucible c).live = true → (t.crucible c).pwr.coreLock = true ∧ (t.crucible c).hbm.mem = (s.crucible c).hbm.mem)) ∧
    (p.mode ≠ .waking → NoEffect (.wakeEnd 0) s)

/-- R569 to R573, R593: sensors and PMBus. A temperature sample is what the registers show; one at a trip value powers the module down
and keeps it from starting; a power sample above 2.6 kW throttles to level 4; readings on PMBus change nothing. The exponent and the
rounding of a LINEAR11 word are the model's choice within one unit (log 45), and so are the latches of STATUS_WORD (log 44). -/
def Obligations.SensorsAndPmbus : Prop :=
  ∀ (s : State) (c : Cru) (r : TempReading) (vin iin : W16) (code : Byte),
    let p := s.power
    let word (i : Instr) (w : W16) := Completes i s fun t => t = { s with out := s.out ++ [.pmbus (leBytes 2 w.toNat)] }
    let reads (i : Instr) (n d : Nat) := Completes i s fun t => ∃ w : W16,
      linearNear w n d = true ∧ t = { s with out := s.out ++ [.pmbus (leBytes 2 w.toNat)] }
    (Completes (.temperatureSample r) s fun t =>
      (t.crucible c).pwr.die = r.die.getD c.val 0 ∧ (t.crucible c).pwr.hbm0 = r.hbm.getD (2 * c.val) 0 ∧
      (t.crucible c).pwr.hbm1 = r.hbm.getD (2 * c.val + 1) 0 ∧ t.power.tempPd = r.portDie) ∧
    (p.mode.powered = true →
      ((tripOf r).isSome = true → Completes (.temperatureSample r) s fun t =>
        t.power.mode = .poweringDown ∧ t.power.tripped = true ∧ t.store.wear.trips = s.store.wear.trips + 1) ∧
      (tripOf r = none → Completes (.temperatureSample r) s fun t => t.power.mode = p.mode ∧ t.store = s.store)) ∧
    (Completes (.powerSample vin iin) s fun t =>
      t.power.vin = vin ∧ t.power.iin = iin ∧ t.power.sample = watts (vin.toNat * iin.toNat) ∧
      (2600000000 < vin.toNat * iin.toNat → t.power.level = 4) ∧ t.power.level.toNat ≤ max 4 p.level.toNat ∧ t.cru = s.cru) ∧
    ((44000 ≤ vin.toNat ∧ vin.toNat ≤ 46000 ∨ 58000 ≤ vin.toNat ∧ vin.toNat ≤ 60000) → Completes (.vinWarn vin) s fun t =>
      t.power.event.getLsbD 5 = true ∧ t.power.vin = vin ∧ t.power.mode = p.mode ∧ t.cru = s.cru) ∧
    ((vin.toNat < 44000 ∨ 46000 < vin.toNat ∧ vin.toNat < 58000 ∨ 60000 < vin.toNat) → NoEffect (.vinWarn vin) s) ∧
    (p.off = false →
      word .statusWord p.statusBits ∧ reads .readVin p.vin.toNat 1000 ∧ reads .readIin p.iin.toNat 1000 ∧
      reads .readTemperature1 (s.hottest (fun p => p.die.toNat)) 4 ∧
      reads .readTemperature2 (s.hottest (fun p => max p.hbm0.toNat p.hbm1.toNat)) 4 ∧ reads .readPin p.avg.toNat 1 ∧
      (Completes .pmbusRevision s fun t => t = { s with out := s.out ++ [.pmbus [0x33]] }) ∧
      (Completes .clearFaults s fun t => t = { s with power := { p with event := 0, cml := false, uv := false, ov := false } }) ∧
      (Completes (.unsupportedPmbusCommand code) s fun t =>
        t = { s with power := { p with cml := true }, out := s.out ++ [.pmbusNack code] })) ∧
    (p.off = true → NoEffect .statusWord s ∧ NoEffect .readVin s ∧ NoEffect .clearFaults s ∧ NoEffect .pmbusRevision s)

/-! ### Boot -/

/-- R623 to R633: boot. The port-die ROM boots the stable slot when its component verifies, and raises the fused version to a confirmed image's;
it does not boot one that fails, and with the recovery policy in force waits in recovery mode with that failure as LAST_REASON. A
crucible's ROM trains the stacks, which may fail (free values), and starts a component that verifies. -/
def Obligations.BootRoms : Prop :=
  ∀ (s : State) (c : Cru),
    let u := if s.boot.loaded then s.openStore else s.openStore.loadSettings
    let n := u.slotState.active
    let code := verifyComponent u.boot.otp (u.boot.slot n) 0
    let i := imageOf (u.boot.slot n) n 0
    let x := s.crucible c
    let boots := s.portDieUp = true ∧ s.boot.image.isSome = true ∧ x.service = .resetting ∧ x.frozen = false ∧ x.fw = none
    let failed := s.trainFails c s.freeCtr = true
    let k := s.slotState.active
    (s.portDieUp = true → s.boot.image = none → s.boot.romUp = false → u.slotState.trial = false →
      (code = 0 → s.boot.activation = none → Completes .portDieBoot s fun t =>
        t.boot.mode = .stable ∧ t.boot.image = some i ∧ t.boot.lastReason = u.slotState.reason ∧
        t.boot.otp = (if u.slotState.confirmed.toNat = n then raiseVersion s.boot.otp i.secVersion else s.boot.otp) ∧
        t.boot.trial = none) ∧
      (code ≠ 0 → u.boot.policy = true → Completes .portDieBoot s fun t =>
        t.boot.mode = .recovery ∧ t.boot.image = none ∧ t.boot.romUp = true ∧ t.boot.lastReason = code ∧ t.boot.otp = s.boot.otp)) ∧
    (s.portDieUp = false → NoEffect .portDieBoot s) ∧ (s.boot.image.isSome = true → NoEffect .portDieBoot s) ∧
    (boots → failed → Completes (.crucibleBoot c) s fun t =>
      (t.crucible c).service = .outOfService ∧ (t.crucible c).fw = none ∧ (t.crucible c).hbm.mem = x.hbm.mem) ∧
    (boots → ¬failed → verifyComponent s.boot.otp (s.boot.slot k) 1 = 0 → Completes (.crucibleBoot c) s fun t =>
      (t.crucible c).fw = some (imageOf (s.boot.slot k) k 1) ∧ (t.crucible c).service = .resetting ∧
      (t.crucible c).hbm.mem = x.hbm.mem) ∧
    (boots → ¬failed → verifyComponent s.boot.otp (s.boot.slot k) 1 ≠ 0 → s.boot.activation = none →
      Completes (.crucibleBoot c) s fun t => (t.crucible c).fw = none ∧ (t.crucible c).live = false) ∧
    (¬boots → NoEffect (.crucibleBoot c) s)

/-! ### Reset -/

/-- What reset leaves: every core Halted with its registers, descriptors, tallies and scratchpad 0; HBM with nothing listed; no job
active; no command waiting. The values that the spec does not give are the model's (log 4). -/
def Obligations.ResetValues : Prop :=
  let s := State.reset
  s.pending = [] ∧ s.held = [] ∧ s.out = [] ∧ s.power.mode = .standby ∧ s.power.limit = 2200 ∧ s.store.ready = false ∧
  s.boot.otp = Config.otp ∧ s.steps.mode = .idle ∧ s.tundish.placement = none ∧
  ∀ (k : CoreId) (i : BitVec 5) (j a : Nat),
    (s.logi k).mode = .halted ∧ (s.logi k).fault = FaultRecord.none ∧ (s.phys k).pc = 0 ∧ (s.phys k).sreg i = 0 ∧ (s.phys k).areg i = 0 ∧
    (s.phys k).treg i = 0 ∧ (s.phys k).tallyWord j = 0 ∧ Memory.read (s.phys k).scratch a = 0 ∧ (s.phys k).queuesEmpty = true ∧
    (s.crucible k.cru).physIx k.core.val = k.core.val ∧ (s.crucible k.cru).hbm.mem = [] ∧
    (s.crucible k.cru).xport.job.live.active = false

/-! ### Every command -/

/-- Every command completes from every state: what the spec calls a fault, an error or a rejection is part of the next state. No command
touches the commands that wait behind it. -/
def Obligations.EveryCommandCompletes : Prop :=
  ∀ (i : Instr) (s : State), ∃ t, exec i s = .next t ∧ t.pending = s.pending

/-- R626: the fused version is one plus the index of the highest set bit of the 256 of SEC_VERSION, or 0 when no bit is set; byte
0x000 at 0x1F and every other at 0 give 5. Whatever the module does in a step, no fuse returns to 0, and the version never falls. -/
def Obligations.FusedVersionNeverFalls : Prop :=
  let bit (otp : List Byte) (i : Nat) := (otp.getD (i / 8) 0).getLsbD (i % 8) = true
  (∀ otp : List Byte,
    (∀ i, i < 256 → bit otp i → i < fusedVersion otp) ∧ fusedVersion otp ≤ 256 ∧
    (fusedVersion otp ≠ 0 → bit otp (fusedVersion otp - 1))) ∧
  fusedVersion (0x1F :: List.replicate 31 0) = 5 ∧
  ∀ s t : State, step s = .next t →
    (∀ i, bit s.boot.otp i → bit t.boot.otp i) ∧ fusedVersion s.boot.otp ≤ fusedVersion t.boot.otp
end

