-- ==== Sys2Proof/Laws/Sparse.lean ====
section
/-!
SUPPORT. Laws of sparse tables and memories: what a read finds after a write, and the canonical form, which every operation keeps. With
both, two tables in canonical form that read alike are the same list.
-/
namespace Sys2Proof.Machine

variable {α : Type} {d : Nat → α}

/-! ### Reads after writes -/

@[simp] theorem Store.get_nil (k : Nat) : Store.get d [] k = d k := rfl

theorem Store.get_erase (m : Store α) (j k : Nat) : Store.get d (Store.erase m j) k = if j = k then d k else Store.get d m k := by
  induction m with
  | nil => simp [Store.erase]
  | cons e m ih =>
    obtain ⟨i, v⟩ := e
    by_cases h : i = j
    · subst h
      by_cases hk : i = k
      · subst hk; simp [Store.erase, ih]
      · simp [Store.erase, Store.get, ih, hk]
    · by_cases hk : i = k
      · subst hk
        simp [Store.erase, Store.get, h, Ne.symm h]
      · simp [Store.erase, Store.get, h, hk, ih]

theorem Store.get_put (m : Store α) (j k : Nat) (v : α) : Store.get d (Store.put m j v) k = if j = k then v else Store.get d m k := by
  induction m with
  | nil => simp [Store.put, Store.get]
  | cons e m ih =>
    obtain ⟨i, w⟩ := e
    by_cases h1 : j < i
    · simp [Store.put, Store.get, h1]
    · by_cases h2 : j = i
      · subst h2
        by_cases hk : j = k <;> simp [Store.put, Store.get, hk]
      · by_cases hk : i = k
        · subst hk
          simp [Store.put, Store.get, h1, h2]
        · simp [Store.put, Store.get, h1, h2, hk, ih]

theorem Store.get_set [DecidableEq α] (m : Store α) (j k : Nat) (v : α) : Store.get d (Store.set d m j v) k = if j = k then v else Store.get d m k := by
  by_cases h : v = d j
  · rw [Store.set, if_pos h, Store.get_erase]
    by_cases hk : j = k
    · subst hk; simp [h]
    · simp [hk]
  · rw [Store.set, if_neg h, Store.get_put]

@[simp] theorem Store.get_set_same [DecidableEq α] (m : Store α) (k : Nat) (v : α) : Store.get d (Store.set d m k v) k = v := by
  simp [Store.get_set]

theorem Store.get_set_other [DecidableEq α] (m : Store α) {j k : Nat} (v : α) (h : j ≠ k) :
    Store.get d (Store.set d m j v) k = Store.get d m k := by
  simp [Store.get_set, h]

theorem Store.get_modify [DecidableEq α] (m : Store α) (j k : Nat) (f : α → α) :
    Store.get d (Store.modify d m j f) k = if j = k then f (Store.get d m j) else Store.get d m k := by
  simp [Store.modify, Store.get_set]

/-! ### The canonical form -/

theorem Store.above_trans {i j : Nat} (h : i ≤ j) : ∀ m : Store α, Store.above j m = true → Store.above i m = true
  | [] => fun _ => rfl
  | (k, _) :: m => by
    simp only [Store.above, Bool.and_eq_true, decide_eq_true_eq]
    exact fun ⟨hk, hm⟩ => ⟨by omega, hm⟩

theorem Store.above_erase {i : Nat} (j : Nat) : ∀ m : Store α, Store.above i m = true → Store.above i (Store.erase m j) = true
  | [] => fun _ => rfl
  | (k, v) :: m => by
    simp only [Store.above, Bool.and_eq_true, decide_eq_true_eq]
    intro ⟨hk, hm⟩
    by_cases h : k = j
    · simpa [Store.erase, h] using Store.above_erase j m (Store.above_trans (by omega) m hm)
    · simpa [Store.erase, h, Store.above] using ⟨hk, Store.above_erase j m hm⟩

theorem Store.above_put {i j : Nat} (v : α) (hj : i < j) :
    ∀ m : Store α, Store.above i m = true → Store.above i (Store.put m j v) = true
  | [] => fun _ => by simp [Store.put, Store.above, hj]
  | (k, w) :: m => by
    simp only [Store.above, Bool.and_eq_true, decide_eq_true_eq]
    intro ⟨hk, hm⟩
    by_cases h1 : j < k
    · simp [Store.put, h1, Store.above, hj, hm]
    · by_cases h2 : j = k
      · subst h2
        simp [Store.put, Store.above, hj, hm]
      · simpa [Store.put, h1, h2, Store.above] using ⟨hk, Store.above_put v (by omega) m hm⟩

theorem Store.sorted_of_above {i : Nat} : ∀ m : Store α, Store.above i m = true → Store.sorted m = true
  | [] => fun _ => rfl
  | (k, v) :: m => by simp only [Store.above, Store.sorted, Bool.and_eq_true]; exact And.right

theorem Store.tight_erase [DecidableEq α] (j : Nat) : ∀ m : Store α, Store.tight d m = true → Store.tight d (Store.erase m j) = true
  | [] => fun _ => rfl
  | (k, v) :: m => by
    simp only [Store.tight, Bool.and_eq_true]
    intro ⟨hv, hm⟩
    by_cases h : k = j
    · simpa [Store.erase, h] using Store.tight_erase j m hm
    · simpa [Store.erase, h, Store.tight] using ⟨by simpa using hv, Store.tight_erase j m hm⟩

theorem Store.tight_put [DecidableEq α] {j : Nat} {v : α} (hv : v ≠ d j) :
    ∀ m : Store α, Store.tight d m = true → Store.tight d (Store.put m j v) = true
  | [] => fun _ => by simp [Store.put, Store.tight, hv]
  | (k, w) :: m => by
    simp only [Store.tight, Bool.and_eq_true]
    intro ⟨hw, hm⟩
    by_cases h1 : j < k
    · simpa [Store.put, h1, Store.tight, hv] using ⟨by simpa using hw, hm⟩
    · by_cases h2 : j = k
      · subst h2
        simp [Store.put, Store.tight, hv, hm]
      · simpa [Store.put, h1, h2, Store.tight] using ⟨by simpa using hw, Store.tight_put hv m hm⟩

theorem Store.wf_erase [DecidableEq α] (j : Nat) (m : Store α) (h : Store.wf d m = true) : Store.wf d (Store.erase m j) = true := by
  rw [Store.wf, Bool.and_eq_true] at h ⊢
  refine ⟨?_, Store.tight_erase j m h.2⟩
  cases m with
  | nil => rfl
  | cons e m =>
    obtain ⟨k, v⟩ := e
    have hs : Store.above k m = true := h.1
    by_cases hk : k = j
    · simpa [Store.erase, hk] using Store.sorted_of_above _ (Store.above_erase j m hs)
    · simpa [Store.erase, hk, Store.sorted] using Store.above_erase j m hs

theorem Store.wf_put [DecidableEq α] {j : Nat} {v : α} (hv : v ≠ d j) (m : Store α) (h : Store.wf d m = true) :
    Store.wf d (Store.put m j v) = true := by
  rw [Store.wf, Bool.and_eq_true] at h ⊢
  refine ⟨?_, Store.tight_put hv m h.2⟩
  cases m with
  | nil => rfl
  | cons e m =>
    obtain ⟨k, w⟩ := e
    have hs : Store.above k m = true := h.1
    by_cases h1 : j < k
    · simp [Store.put, h1, Store.sorted, Store.above, hs]
    · by_cases h2 : j = k
      · subst h2
        simpa [Store.put, Store.sorted] using hs
      · simpa [Store.put, h1, h2, Store.sorted] using Store.above_put v (by omega) m hs

/-- A write keeps the canonical form. -/
theorem Store.wf_set [DecidableEq α] (m : Store α) (k : Nat) (v : α) (h : Store.wf d m = true) : Store.wf d (Store.set d m k v) = true := by
  by_cases hv : v = d k
  · rw [Store.set, if_pos hv]; exact Store.wf_erase k m h
  · rw [Store.set, if_neg hv]; exact Store.wf_put hv m h

theorem Store.wf_modify [DecidableEq α] (m : Store α) (k : Nat) (f : α → α) (h : Store.wf d m = true) : Store.wf d (Store.modify d m k f) = true :=
  Store.wf_set m k _ h

theorem Store.wf_nil [DecidableEq α] : Store.wf d ([] : Store α) = true := rfl

theorem Store.get_below {i k : Nat} (hk : k ≤ i) : ∀ m : Store α, Store.above i m = true → Store.get d m k = d k
  | [] => fun _ => rfl
  | (j, v) :: m => by
    simp only [Store.above, Bool.and_eq_true, decide_eq_true_eq]
    intro ⟨hj, hm⟩
    rw [Store.get, if_neg (by omega)]
    exact Store.get_below (by omega) m hm

/-- In canonical form, tables that read alike are equal. -/
theorem Store.ext_of_get [DecidableEq α] : ∀ m n : Store α, Store.wf d m = true → Store.wf d n = true →
    (∀ k, Store.get d m k = Store.get d n k) → m = n
  | [], [], _, _, _ => rfl
  | [], (j, v) :: n, _, hn, h => by
    have := h j
    simp [Store.get] at this
    simp [Store.wf, Store.tight, this] at hn
  | (j, v) :: m, [], hm, _, h => by
    have := h j
    simp [Store.get] at this
    simp [Store.wf, Store.tight, this] at hm
  | (i, v) :: m, (j, w) :: n, hm, hn, h => by
    simp only [Store.wf, Store.sorted, Store.tight, Bool.and_eq_true, decide_eq_true_eq] at hm hn
    have hij : i = j := by
      rcases Nat.lt_trichotomy i j with hlt | heq | hlt
      · have := h i
        rw [Store.get, if_pos rfl, Store.get, if_neg (by omega), Store.get_below (by omega) n hn.1] at this
        exact absurd this hm.2.1
      · exact heq
      · have := h j
        rw [Store.get, if_neg (by omega), Store.get_below (by omega) m hm.1, Store.get, if_pos rfl] at this
        exact absurd this.symm hn.2.1
    subst hij
    have hvw : v = w := by simpa [Store.get] using h i
    subst hvw
    have hmn : m = n := by
      apply Store.ext_of_get m n
      · simp [Store.wf, Store.sorted_of_above m hm.1, hm.2.2]
      · simp [Store.wf, Store.sorted_of_above n hn.1, hn.2.2]
      · intro k
        by_cases hk : i = k
        · subst hk
          rw [Store.get_below (Nat.le_refl i) m hm.1, Store.get_below (Nat.le_refl i) n hn.1]
        · simpa [Store.get, hk] using h k
    rw [hmn]

/-! ### Memory -/

theorem Memory.read_write (m : Memory) (a b : Nat) (v : Byte) :
    Memory.read (Memory.write m a v) b = if a = b then v else Memory.read m b := Store.get_set m a b v

theorem Memory.read_writeBytes (m : Memory) (a b : Nat) (bs : List Byte) :
    Memory.read (Memory.writeBytes m a bs) b = if a ≤ b ∧ b < a + bs.length then bs.getD (b - a) 0 else Memory.read m b := by
  induction bs generalizing m a with
  | nil => rw [if_neg (fun h => by have := h.2; rw [List.length_nil] at this; omega)]; rfl
  | cons v bs ih =>
    rw [Memory.writeBytes, ih, Memory.read_write]
    by_cases h : a = b
    · subst h
      rw [if_neg (by omega), if_pos rfl, if_pos (by simp)]
      simp
    · by_cases hr : a + 1 ≤ b ∧ b < a + 1 + bs.length
      · have : b - a = (b - (a + 1)) + 1 := by omega
        rw [if_pos hr, if_pos (by simp; omega), this]
        simp
      · rw [if_neg hr, if_neg h, if_neg (by simp; omega)]

theorem Memory.readBytes_length (m : Memory) (a n : Nat) : (Memory.readBytes m a n).length = n := by
  induction n generalizing a with
  | zero => rfl
  | succ n ih => simp [Memory.readBytes, ih]

theorem Memory.readBytes_getD (m : Memory) (a n i : Nat) (h : i < n) : (Memory.readBytes m a n).getD i 0 = Memory.read m (a + i) := by
  induction n generalizing a i with
  | zero => omega
  | succ n ih =>
    cases i with
    | zero => simp [Memory.readBytes]
    | succ i =>
      have := ih (a + 1) i (by omega)
      simp only [List.getD_eq_getElem?_getD] at this
      simpa [Memory.readBytes, Nat.add_assoc, Nat.add_comm 1 i] using this

/-- A write of bytes changes nothing outside them. -/
theorem Memory.read_writeBytes_outside (m : Memory) (a b : Nat) (bs : List Byte) (h : b < a ∨ a + bs.length ≤ b) :
    Memory.read (Memory.writeBytes m a bs) b = Memory.read m b := by
  rw [Memory.read_writeBytes, if_neg (by omega)]

theorem Memory.wf_write (m : Memory) (a : Nat) (v : Byte) (h : Memory.wf m = true) : Memory.wf (Memory.write m a v) = true :=
  Store.wf_set m a v h

/-- Every memory operation keeps the canonical form. -/
theorem Memory.wf_writeBytes (m : Memory) (a : Nat) (bs : List Byte) (h : Memory.wf m = true) :
    Memory.wf (Memory.writeBytes m a bs) = true := by
  induction bs generalizing m a with
  | nil => exact h
  | cons v bs ih => exact ih _ _ (Memory.wf_write m a v h)

/-! ### Numbers as bytes -/

@[simp] theorem leBytes_length (n v : Nat) : (leBytes n v).length = n := by
  induction n generalizing v with
  | zero => rfl
  | succ n ih => simp [leBytes, ih]

theorem leBytes_getD (n v i : Nat) (h : i < n) : (leBytes n v).getD i 0 = BitVec.ofNat 8 (v / 256 ^ i) := by
  induction n generalizing v i with
  | zero => omega
  | succ n ih =>
    cases i with
    | zero => simp [leBytes]
    | succ i =>
      have := ih (v / 256) i (by omega)
      simp only [List.getD_eq_getElem?_getD] at this
      rw [Nat.div_div_eq_div_mul, Nat.mul_comm 256, ← Nat.pow_succ] at this
      simpa [leBytes] using this

/-- The bytes of a number spell it, modulo the width. -/
theorem leNat_leBytes (n v : Nat) : leNat (leBytes n v) = v % 256 ^ n := by
  induction n generalizing v with
  | zero => simp [leBytes, leNat, Nat.mod_one]
  | succ n ih =>
    rw [leBytes, leNat, ih, Nat.pow_succ, Nat.mul_comm (256 ^ n) 256, Nat.mod_mul]
    simp

/-! ### Positions of lists, crucibles and halves -/

@[simp] theorem listSet_length {β : Type} (l : List β) (i : Nat) (v : β) : (listSet l i v).length = l.length := by
  induction l generalizing i with
  | nil => rfl
  | cons x l ih => cases i <;> simp [listSet, ih]

theorem listSet_getElem? {β : Type} (l : List β) (i j : Nat) (v : β) :
    (listSet l i v)[j]? = if i = j ∧ i < l.length then some v else l[j]? := by
  induction l generalizing i j with
  | nil => simp [listSet]
  | cons x l ih =>
    cases i with
    | zero => cases j <;> simp [listSet]
    | succ i => cases j <;> simp [listSet, ih]

theorem listDrop_getElem? {β : Type} (l : List β) (i j : Nat) : (listDrop l i)[j]? = if j < i then l[j]? else l[j + 1]? := by
  induction l generalizing i j with
  | nil => simp [listDrop]
  | cons x l ih =>
    cases i with
    | zero => simp [listDrop]
    | succ i => cases j <;> simp [listDrop, ih]

theorem Quad.get_set {β : Type} (q : Quad β) (c e : Cru) (v : β) : (q.set c v).get e = if c = e then v else q.get e := by
  match c, e with
  | 0, 0 | 0, 1 | 0, 2 | 0, 3 | 1, 0 | 1, 1 | 1, 2 | 1, 3 | 2, 0 | 2, 1 | 2, 2 | 2, 3 | 3, 0 | 3, 1 | 3, 2 | 3, 3 => rfl

@[simp] theorem Quad.get_set_same {β : Type} (q : Quad β) (c : Cru) (v : β) : (q.set c v).get c = v := by
  simp [Quad.get_set]

@[simp] theorem Quad.set_get {β : Type} (q : Quad β) (c : Cru) : q.set c (q.get c) = q := by
  match c with
  | 0 | 1 | 2 | 3 => rfl

@[simp] theorem Quad.set_set {β : Type} (q : Quad β) (c : Cru) (v w : β) : (q.set c v).set c w = q.set c w := by
  match c with
  | 0 | 1 | 2 | 3 => rfl

@[simp] theorem Quad.get_all {β : Type} (v : β) (c : Cru) : (Quad.all v).get c = v := by
  match c with
  | 0 | 1 | 2 | 3 => rfl

theorem Pair.get_set {β : Type} (q : Pair β) (h e : HalfIx) (v : β) : (q.set h v).get e = if h = e then v else q.get e := by
  match h, e with
  | 0, 0 | 0, 1 | 1, 0 | 1, 1 => rfl

@[simp] theorem Pair.get_set_same {β : Type} (q : Pair β) (h : HalfIx) (v : β) : (q.set h v).get h = v := by
  simp [Pair.get_set]

@[simp] theorem Pair.set_get {β : Type} (q : Pair β) (h : HalfIx) : q.set h (q.get h) = q := by
  match h with
  | 0 | 1 => rfl

@[simp] theorem Pair.set_set {β : Type} (q : Pair β) (h : HalfIx) (v w : β) : (q.set h v).set h w = q.set h w := by
  match h with
  | 0 | 1 => rfl

end Sys2Proof.Machine
end

