-- ==== Sys2Proof/Laws/State.lean ====
section
/-!
SUPPORT. What the named updates leave unchanged, field by field, and what they write: for the state, a crucible and a physical core.
-/
namespace Sys2Proof.Machine

/-! ### Updates of the state -/

@[simp] theorem State.putCrucible_half (s : State) (c : Cru) (x : Crucible) : (s.putCrucible c x).half = s.half := rfl
@[simp] theorem State.putCrucible_alwaysOn (s : State) (c : Cru) (x : Crucible) : (s.putCrucible c x).alwaysOn = s.alwaysOn := rfl
@[simp] theorem State.putCrucible_host (s : State) (c : Cru) (x : Crucible) : (s.putCrucible c x).host = s.host := rfl
@[simp] theorem State.putCrucible_tundish (s : State) (c : Cru) (x : Crucible) : (s.putCrucible c x).tundish = s.tundish := rfl
@[simp] theorem State.putCrucible_steps (s : State) (c : Cru) (x : Crucible) : (s.putCrucible c x).steps = s.steps := rfl
@[simp] theorem State.putCrucible_ingot (s : State) (c : Cru) (x : Crucible) : (s.putCrucible c x).ingot = s.ingot := rfl
@[simp] theorem State.putCrucible_restore (s : State) (c : Cru) (x : Crucible) : (s.putCrucible c x).restore = s.restore := rfl
@[simp] theorem State.putCrucible_power (s : State) (c : Cru) (x : Crucible) : (s.putCrucible c x).power = s.power := rfl
@[simp] theorem State.putCrucible_store (s : State) (c : Cru) (x : Crucible) : (s.putCrucible c x).store = s.store := rfl
@[simp] theorem State.putCrucible_boot (s : State) (c : Cru) (x : Crucible) : (s.putCrucible c x).boot = s.boot := rfl
@[simp] theorem State.putCrucible_held (s : State) (c : Cru) (x : Crucible) : (s.putCrucible c x).held = s.held := rfl
@[simp] theorem State.putCrucible_out (s : State) (c : Cru) (x : Crucible) : (s.putCrucible c x).out = s.out := rfl
@[simp] theorem State.putCrucible_freeCtr (s : State) (c : Cru) (x : Crucible) : (s.putCrucible c x).freeCtr = s.freeCtr := rfl
@[simp] theorem State.putCrucible_lastRead (s : State) (c : Cru) (x : Crucible) : (s.putCrucible c x).lastRead = s.lastRead := rfl
@[simp] theorem State.putCrucible_pending (s : State) (c : Cru) (x : Crucible) : (s.putCrucible c x).pending = s.pending := rfl

@[simp] theorem State.atCrucible_half (s : State) (c : Cru) (f : Crucible → Crucible) : (s.atCrucible c f).half = s.half := rfl
@[simp] theorem State.atCrucible_alwaysOn (s : State) (c : Cru) (f : Crucible → Crucible) :
    (s.atCrucible c f).alwaysOn = s.alwaysOn := rfl
@[simp] theorem State.atCrucible_host (s : State) (c : Cru) (f : Crucible → Crucible) : (s.atCrucible c f).host = s.host := rfl
@[simp] theorem State.atCrucible_tundish (s : State) (c : Cru) (f : Crucible → Crucible) : (s.atCrucible c f).tundish = s.tundish := rfl
@[simp] theorem State.atCrucible_steps (s : State) (c : Cru) (f : Crucible → Crucible) : (s.atCrucible c f).steps = s.steps := rfl
@[simp] theorem State.atCrucible_ingot (s : State) (c : Cru) (f : Crucible → Crucible) : (s.atCrucible c f).ingot = s.ingot := rfl
@[simp] theorem State.atCrucible_restore (s : State) (c : Cru) (f : Crucible → Crucible) : (s.atCrucible c f).restore = s.restore := rfl
@[simp] theorem State.atCrucible_power (s : State) (c : Cru) (f : Crucible → Crucible) : (s.atCrucible c f).power = s.power := rfl
@[simp] theorem State.atCrucible_store (s : State) (c : Cru) (f : Crucible → Crucible) : (s.atCrucible c f).store = s.store := rfl
@[simp] theorem State.atCrucible_boot (s : State) (c : Cru) (f : Crucible → Crucible) : (s.atCrucible c f).boot = s.boot := rfl
@[simp] theorem State.atCrucible_held (s : State) (c : Cru) (f : Crucible → Crucible) : (s.atCrucible c f).held = s.held := rfl
@[simp] theorem State.atCrucible_out (s : State) (c : Cru) (f : Crucible → Crucible) : (s.atCrucible c f).out = s.out := rfl
@[simp] theorem State.atCrucible_freeCtr (s : State) (c : Cru) (f : Crucible → Crucible) : (s.atCrucible c f).freeCtr = s.freeCtr := rfl
@[simp] theorem State.atCrucible_lastRead (s : State) (c : Cru) (f : Crucible → Crucible) :
    (s.atCrucible c f).lastRead = s.lastRead := rfl
@[simp] theorem State.atCrucible_pending (s : State) (c : Cru) (f : Crucible → Crucible) : (s.atCrucible c f).pending = s.pending := rfl

@[simp] theorem State.mapCrucibles_half (s : State) (f : Crucible → Crucible) : (s.mapCrucibles f).half = s.half := rfl
@[simp] theorem State.mapCrucibles_alwaysOn (s : State) (f : Crucible → Crucible) : (s.mapCrucibles f).alwaysOn = s.alwaysOn := rfl
@[simp] theorem State.mapCrucibles_host (s : State) (f : Crucible → Crucible) : (s.mapCrucibles f).host = s.host := rfl
@[simp] theorem State.mapCrucibles_tundish (s : State) (f : Crucible → Crucible) : (s.mapCrucibles f).tundish = s.tundish := rfl
@[simp] theorem State.mapCrucibles_steps (s : State) (f : Crucible → Crucible) : (s.mapCrucibles f).steps = s.steps := rfl
@[simp] theorem State.mapCrucibles_ingot (s : State) (f : Crucible → Crucible) : (s.mapCrucibles f).ingot = s.ingot := rfl
@[simp] theorem State.mapCrucibles_restore (s : State) (f : Crucible → Crucible) : (s.mapCrucibles f).restore = s.restore := rfl
@[simp] theorem State.mapCrucibles_power (s : State) (f : Crucible → Crucible) : (s.mapCrucibles f).power = s.power := rfl
@[simp] theorem State.mapCrucibles_store (s : State) (f : Crucible → Crucible) : (s.mapCrucibles f).store = s.store := rfl
@[simp] theorem State.mapCrucibles_boot (s : State) (f : Crucible → Crucible) : (s.mapCrucibles f).boot = s.boot := rfl
@[simp] theorem State.mapCrucibles_held (s : State) (f : Crucible → Crucible) : (s.mapCrucibles f).held = s.held := rfl
@[simp] theorem State.mapCrucibles_out (s : State) (f : Crucible → Crucible) : (s.mapCrucibles f).out = s.out := rfl
@[simp] theorem State.mapCrucibles_freeCtr (s : State) (f : Crucible → Crucible) : (s.mapCrucibles f).freeCtr = s.freeCtr := rfl
@[simp] theorem State.mapCrucibles_lastRead (s : State) (f : Crucible → Crucible) : (s.mapCrucibles f).lastRead = s.lastRead := rfl
@[simp] theorem State.mapCrucibles_pending (s : State) (f : Crucible → Crucible) : (s.mapCrucibles f).pending = s.pending := rfl

@[simp] theorem State.putHalf_cru (s : State) (h : HalfIx) (v : Half) : (s.putHalf h v).cru = s.cru := rfl
@[simp] theorem State.putHalf_alwaysOn (s : State) (h : HalfIx) (v : Half) : (s.putHalf h v).alwaysOn = s.alwaysOn := rfl
@[simp] theorem State.putHalf_host (s : State) (h : HalfIx) (v : Half) : (s.putHalf h v).host = s.host := rfl
@[simp] theorem State.putHalf_tundish (s : State) (h : HalfIx) (v : Half) : (s.putHalf h v).tundish = s.tundish := rfl
@[simp] theorem State.putHalf_steps (s : State) (h : HalfIx) (v : Half) : (s.putHalf h v).steps = s.steps := rfl
@[simp] theorem State.putHalf_ingot (s : State) (h : HalfIx) (v : Half) : (s.putHalf h v).ingot = s.ingot := rfl
@[simp] theorem State.putHalf_restore (s : State) (h : HalfIx) (v : Half) : (s.putHalf h v).restore = s.restore := rfl
@[simp] theorem State.putHalf_power (s : State) (h : HalfIx) (v : Half) : (s.putHalf h v).power = s.power := rfl
@[simp] theorem State.putHalf_store (s : State) (h : HalfIx) (v : Half) : (s.putHalf h v).store = s.store := rfl
@[simp] theorem State.putHalf_boot (s : State) (h : HalfIx) (v : Half) : (s.putHalf h v).boot = s.boot := rfl
@[simp] theorem State.putHalf_held (s : State) (h : HalfIx) (v : Half) : (s.putHalf h v).held = s.held := rfl
@[simp] theorem State.putHalf_out (s : State) (h : HalfIx) (v : Half) : (s.putHalf h v).out = s.out := rfl
@[simp] theorem State.putHalf_freeCtr (s : State) (h : HalfIx) (v : Half) : (s.putHalf h v).freeCtr = s.freeCtr := rfl
@[simp] theorem State.putHalf_lastRead (s : State) (h : HalfIx) (v : Half) : (s.putHalf h v).lastRead = s.lastRead := rfl
@[simp] theorem State.putHalf_pending (s : State) (h : HalfIx) (v : Half) : (s.putHalf h v).pending = s.pending := rfl

@[simp] theorem State.modHalf_cru (s : State) (h : HalfIx) (f : Half → Half) : (s.modHalf h f).cru = s.cru := rfl
@[simp] theorem State.modHalf_alwaysOn (s : State) (h : HalfIx) (f : Half → Half) : (s.modHalf h f).alwaysOn = s.alwaysOn := rfl
@[simp] theorem State.modHalf_host (s : State) (h : HalfIx) (f : Half → Half) : (s.modHalf h f).host = s.host := rfl
@[simp] theorem State.modHalf_tundish (s : State) (h : HalfIx) (f : Half → Half) : (s.modHalf h f).tundish = s.tundish := rfl
@[simp] theorem State.modHalf_steps (s : State) (h : HalfIx) (f : Half → Half) : (s.modHalf h f).steps = s.steps := rfl
@[simp] theorem State.modHalf_ingot (s : State) (h : HalfIx) (f : Half → Half) : (s.modHalf h f).ingot = s.ingot := rfl
@[simp] theorem State.modHalf_restore (s : State) (h : HalfIx) (f : Half → Half) : (s.modHalf h f).restore = s.restore := rfl
@[simp] theorem State.modHalf_power (s : State) (h : HalfIx) (f : Half → Half) : (s.modHalf h f).power = s.power := rfl
@[simp] theorem State.modHalf_store (s : State) (h : HalfIx) (f : Half → Half) : (s.modHalf h f).store = s.store := rfl
@[simp] theorem State.modHalf_boot (s : State) (h : HalfIx) (f : Half → Half) : (s.modHalf h f).boot = s.boot := rfl
@[simp] theorem State.modHalf_held (s : State) (h : HalfIx) (f : Half → Half) : (s.modHalf h f).held = s.held := rfl
@[simp] theorem State.modHalf_out (s : State) (h : HalfIx) (f : Half → Half) : (s.modHalf h f).out = s.out := rfl
@[simp] theorem State.modHalf_freeCtr (s : State) (h : HalfIx) (f : Half → Half) : (s.modHalf h f).freeCtr = s.freeCtr := rfl
@[simp] theorem State.modHalf_lastRead (s : State) (h : HalfIx) (f : Half → Half) : (s.modHalf h f).lastRead = s.lastRead := rfl
@[simp] theorem State.modHalf_pending (s : State) (h : HalfIx) (f : Half → Half) : (s.modHalf h f).pending = s.pending := rfl

@[simp] theorem State.emit_cru (s : State) (os : List Out) : (s.emit os).cru = s.cru := rfl
@[simp] theorem State.emit_half (s : State) (os : List Out) : (s.emit os).half = s.half := rfl
@[simp] theorem State.emit_alwaysOn (s : State) (os : List Out) : (s.emit os).alwaysOn = s.alwaysOn := rfl
@[simp] theorem State.emit_host (s : State) (os : List Out) : (s.emit os).host = s.host := rfl
@[simp] theorem State.emit_tundish (s : State) (os : List Out) : (s.emit os).tundish = s.tundish := rfl
@[simp] theorem State.emit_steps (s : State) (os : List Out) : (s.emit os).steps = s.steps := rfl
@[simp] theorem State.emit_ingot (s : State) (os : List Out) : (s.emit os).ingot = s.ingot := rfl
@[simp] theorem State.emit_restore (s : State) (os : List Out) : (s.emit os).restore = s.restore := rfl
@[simp] theorem State.emit_power (s : State) (os : List Out) : (s.emit os).power = s.power := rfl
@[simp] theorem State.emit_store (s : State) (os : List Out) : (s.emit os).store = s.store := rfl
@[simp] theorem State.emit_boot (s : State) (os : List Out) : (s.emit os).boot = s.boot := rfl
@[simp] theorem State.emit_held (s : State) (os : List Out) : (s.emit os).held = s.held := rfl
@[simp] theorem State.emit_freeCtr (s : State) (os : List Out) : (s.emit os).freeCtr = s.freeCtr := rfl
@[simp] theorem State.emit_lastRead (s : State) (os : List Out) : (s.emit os).lastRead = s.lastRead := rfl
@[simp] theorem State.emit_pending (s : State) (os : List Out) : (s.emit os).pending = s.pending := rfl

@[simp] theorem State.event_cru (s : State) (code : W16) (cru : Byte) (step : W48) (body : List Byte) :
    (s.event code cru step body).cru = s.cru := rfl
@[simp] theorem State.event_alwaysOn (s : State) (code : W16) (cru : Byte) (step : W48) (body : List Byte) :
    (s.event code cru step body).alwaysOn = s.alwaysOn := rfl
@[simp] theorem State.event_tundish (s : State) (code : W16) (cru : Byte) (step : W48) (body : List Byte) :
    (s.event code cru step body).tundish = s.tundish := rfl
@[simp] theorem State.event_steps (s : State) (code : W16) (cru : Byte) (step : W48) (body : List Byte) :
    (s.event code cru step body).steps = s.steps := rfl
@[simp] theorem State.event_ingot (s : State) (code : W16) (cru : Byte) (step : W48) (body : List Byte) :
    (s.event code cru step body).ingot = s.ingot := rfl
@[simp] theorem State.event_restore (s : State) (code : W16) (cru : Byte) (step : W48) (body : List Byte) :
    (s.event code cru step body).restore = s.restore := rfl
@[simp] theorem State.event_power (s : State) (code : W16) (cru : Byte) (step : W48) (body : List Byte) :
    (s.event code cru step body).power = s.power := rfl
@[simp] theorem State.event_store (s : State) (code : W16) (cru : Byte) (step : W48) (body : List Byte) :
    (s.event code cru step body).store = s.store := rfl
@[simp] theorem State.event_boot (s : State) (code : W16) (cru : Byte) (step : W48) (body : List Byte) :
    (s.event code cru step body).boot = s.boot := rfl
@[simp] theorem State.event_held (s : State) (code : W16) (cru : Byte) (step : W48) (body : List Byte) :
    (s.event code cru step body).held = s.held := rfl
@[simp] theorem State.event_freeCtr (s : State) (code : W16) (cru : Byte) (step : W48) (body : List Byte) :
    (s.event code cru step body).freeCtr = s.freeCtr := rfl
@[simp] theorem State.event_lastRead (s : State) (code : W16) (cru : Byte) (step : W48) (body : List Byte) :
    (s.event code cru step body).lastRead = s.lastRead := rfl
@[simp] theorem State.event_pending (s : State) (code : W16) (cru : Byte) (step : W48) (body : List Byte) :
    (s.event code cru step body).pending = s.pending := rfl

@[simp] theorem State.crucible_putCrucible_same (s : State) (c : Cru) (x : Crucible) : (s.putCrucible c x).crucible c = x := by
  simp [State.putCrucible, State.crucible]

theorem State.crucible_putCrucible (s : State) (c e : Cru) (x : Crucible) :
    (s.putCrucible c x).crucible e = if c = e then x else s.crucible e := by
  simp [State.putCrucible, State.crucible, Quad.get_set]

@[simp] theorem State.crucible_atCrucible_same (s : State) (c : Cru) (f : Crucible → Crucible) :
    (s.atCrucible c f).crucible c = f (s.crucible c) := by
  simp [State.atCrucible]

@[simp] theorem State.crucible_mapCrucibles (s : State) (f : Crucible → Crucible) (c : Cru) :
    (s.mapCrucibles f).crucible c = f (s.crucible c) := by
  match c with
  | 0 | 1 | 2 | 3 => rfl

@[simp] theorem State.putCrucible_putCrucible (s : State) (c : Cru) (x y : Crucible) :
    (s.putCrucible c x).putCrucible c y = s.putCrucible c y := by
  simp [State.putCrucible]

@[simp] theorem State.putCrucible_crucible (s : State) (c : Cru) : s.putCrucible c (s.crucible c) = s := by
  simp [State.putCrucible, State.crucible]

@[simp] theorem State.crucible_putHalf (s : State) (h : HalfIx) (v : Half) (c : Cru) : (s.putHalf h v).crucible c = s.crucible c := rfl
@[simp] theorem State.crucible_modHalf (s : State) (h : HalfIx) (f : Half → Half) (c : Cru) :
    (s.modHalf h f).crucible c = s.crucible c := rfl
@[simp] theorem State.crucible_emit (s : State) (os : List Out) (c : Cru) : (s.emit os).crucible c = s.crucible c := rfl
@[simp] theorem State.crucible_event (s : State) (code : W16) (cru : Byte) (step : W48) (body : List Byte) (c : Cru) :
    (s.event code cru step body).crucible c = s.crucible c := rfl
@[simp] theorem State.emit_out (s : State) (os : List Out) : (s.emit os).out = s.out ++ os := rfl

@[simp] theorem State.halfAt_putHalf_same (s : State) (h : HalfIx) (v : Half) : (s.putHalf h v).halfAt h = v := by
  simp [State.putHalf, State.halfAt]

theorem State.halfAt_putHalf (s : State) (h e : HalfIx) (v : Half) : (s.putHalf h v).halfAt e = if h = e then v else s.halfAt e := by
  simp [State.putHalf, State.halfAt, Pair.get_set]

@[simp] theorem State.halfAt_modHalf_same (s : State) (h : HalfIx) (f : Half → Half) : (s.modHalf h f).halfAt h = f (s.halfAt h) := by
  simp [State.modHalf]

@[simp] theorem State.halfAt_putCrucible (s : State) (c : Cru) (x : Crucible) (h : HalfIx) :
    (s.putCrucible c x).halfAt h = s.halfAt h := rfl
@[simp] theorem State.halfAt_emit (s : State) (os : List Out) (h : HalfIx) : (s.emit os).halfAt h = s.halfAt h := rfl
@[simp] theorem State.putHalf_halfAt (s : State) (h : HalfIx) : s.putHalf h (s.halfAt h) = s := by
  simp [State.putHalf, State.halfAt]

/-! ### Updates of a crucible -/

@[simp] theorem Crucible.putLog_service (x : Crucible) (l : Nat) (v : LogCore) : (x.putLog l v).service = x.service := rfl
@[simp] theorem Crucible.putLog_frozen (x : Crucible) (l : Nat) (v : LogCore) : (x.putLog l v).frozen = x.frozen := rfl
@[simp] theorem Crucible.putLog_tally (x : Crucible) (l : Nat) (v : LogCore) : (x.putLog l v).tally = x.tally := rfl
@[simp] theorem Crucible.putLog_num (x : Crucible) (l : Nat) (v : LogCore) : (x.putLog l v).num = x.num := rfl
@[simp] theorem Crucible.putLog_res (x : Crucible) (l : Nat) (v : LogCore) : (x.putLog l v).res = x.res := rfl
@[simp] theorem Crucible.putLog_hbm (x : Crucible) (l : Nat) (v : LogCore) : (x.putLog l v).hbm = x.hbm := rfl
@[simp] theorem Crucible.putLog_xport (x : Crucible) (l : Nat) (v : LogCore) : (x.putLog l v).xport = x.xport := rfl
@[simp] theorem Crucible.putLog_ports (x : Crucible) (l : Nat) (v : LogCore) : (x.putLog l v).ports = x.ports := rfl
@[simp] theorem Crucible.putLog_chooseLast (x : Crucible) (l : Nat) (v : LogCore) : (x.putLog l v).chooseLast = x.chooseLast := rfl
@[simp] theorem Crucible.putLog_fabUnassigned (x : Crucible) (l : Nat) (v : LogCore) :
    (x.putLog l v).fabUnassigned = x.fabUnassigned := rfl
@[simp] theorem Crucible.putLog_riser (x : Crucible) (l : Nat) (v : LogCore) : (x.putLog l v).riser = x.riser := rfl
@[simp] theorem Crucible.putLog_hang (x : Crucible) (l : Nat) (v : LogCore) : (x.putLog l v).hang = x.hang := rfl
@[simp] theorem Crucible.putLog_pwr (x : Crucible) (l : Nat) (v : LogCore) : (x.putLog l v).pwr = x.pwr := rfl
@[simp] theorem Crucible.putLog_unclean (x : Crucible) (l : Nat) (v : LogCore) : (x.putLog l v).unclean = x.unclean := rfl
@[simp] theorem Crucible.putLog_farResetting (x : Crucible) (l : Nat) (v : LogCore) : (x.putLog l v).farResetting = x.farResetting := rfl
@[simp] theorem Crucible.putLog_fw (x : Crucible) (l : Nat) (v : LogCore) : (x.putLog l v).fw = x.fw := rfl
@[simp] theorem Crucible.putLog_loaded (x : Crucible) (l : Nat) (v : LogCore) : (x.putLog l v).loaded = x.loaded := rfl
@[simp] theorem Crucible.putLog_told (x : Crucible) (l : Nat) (v : LogCore) : (x.putLog l v).told = x.told := rfl

@[simp] theorem Crucible.putPhys_service (x : Crucible) (l : Nat) (v : PhysCore) : (x.putPhys l v).service = x.service := rfl
@[simp] theorem Crucible.putPhys_frozen (x : Crucible) (l : Nat) (v : PhysCore) : (x.putPhys l v).frozen = x.frozen := rfl
@[simp] theorem Crucible.putPhys_tally (x : Crucible) (l : Nat) (v : PhysCore) : (x.putPhys l v).tally = x.tally := rfl
@[simp] theorem Crucible.putPhys_num (x : Crucible) (l : Nat) (v : PhysCore) : (x.putPhys l v).num = x.num := rfl
@[simp] theorem Crucible.putPhys_res (x : Crucible) (l : Nat) (v : PhysCore) : (x.putPhys l v).res = x.res := rfl
@[simp] theorem Crucible.putPhys_hbm (x : Crucible) (l : Nat) (v : PhysCore) : (x.putPhys l v).hbm = x.hbm := rfl
@[simp] theorem Crucible.putPhys_xport (x : Crucible) (l : Nat) (v : PhysCore) : (x.putPhys l v).xport = x.xport := rfl
@[simp] theorem Crucible.putPhys_ports (x : Crucible) (l : Nat) (v : PhysCore) : (x.putPhys l v).ports = x.ports := rfl
@[simp] theorem Crucible.putPhys_chooseLast (x : Crucible) (l : Nat) (v : PhysCore) : (x.putPhys l v).chooseLast = x.chooseLast := rfl
@[simp] theorem Crucible.putPhys_fabUnassigned (x : Crucible) (l : Nat) (v : PhysCore) :
    (x.putPhys l v).fabUnassigned = x.fabUnassigned := rfl
@[simp] theorem Crucible.putPhys_riser (x : Crucible) (l : Nat) (v : PhysCore) : (x.putPhys l v).riser = x.riser := rfl
@[simp] theorem Crucible.putPhys_hang (x : Crucible) (l : Nat) (v : PhysCore) : (x.putPhys l v).hang = x.hang := rfl
@[simp] theorem Crucible.putPhys_pwr (x : Crucible) (l : Nat) (v : PhysCore) : (x.putPhys l v).pwr = x.pwr := rfl
@[simp] theorem Crucible.putPhys_unclean (x : Crucible) (l : Nat) (v : PhysCore) : (x.putPhys l v).unclean = x.unclean := rfl
@[simp] theorem Crucible.putPhys_farResetting (x : Crucible) (l : Nat) (v : PhysCore) :
    (x.putPhys l v).farResetting = x.farResetting := rfl
@[simp] theorem Crucible.putPhys_fw (x : Crucible) (l : Nat) (v : PhysCore) : (x.putPhys l v).fw = x.fw := rfl
@[simp] theorem Crucible.putPhys_loaded (x : Crucible) (l : Nat) (v : PhysCore) : (x.putPhys l v).loaded = x.loaded := rfl
@[simp] theorem Crucible.putPhys_told (x : Crucible) (l : Nat) (v : PhysCore) : (x.putPhys l v).told = x.told := rfl

@[simp] theorem Crucible.modLog_service (x : Crucible) (l : Nat) (f : LogCore → LogCore) : (x.modLog l f).service = x.service := rfl
@[simp] theorem Crucible.modLog_frozen (x : Crucible) (l : Nat) (f : LogCore → LogCore) : (x.modLog l f).frozen = x.frozen := rfl
@[simp] theorem Crucible.modLog_tally (x : Crucible) (l : Nat) (f : LogCore → LogCore) : (x.modLog l f).tally = x.tally := rfl
@[simp] theorem Crucible.modLog_num (x : Crucible) (l : Nat) (f : LogCore → LogCore) : (x.modLog l f).num = x.num := rfl
@[simp] theorem Crucible.modLog_res (x : Crucible) (l : Nat) (f : LogCore → LogCore) : (x.modLog l f).res = x.res := rfl
@[simp] theorem Crucible.modLog_hbm (x : Crucible) (l : Nat) (f : LogCore → LogCore) : (x.modLog l f).hbm = x.hbm := rfl
@[simp] theorem Crucible.modLog_xport (x : Crucible) (l : Nat) (f : LogCore → LogCore) : (x.modLog l f).xport = x.xport := rfl
@[simp] theorem Crucible.modLog_ports (x : Crucible) (l : Nat) (f : LogCore → LogCore) : (x.modLog l f).ports = x.ports := rfl
@[simp] theorem Crucible.modLog_chooseLast (x : Crucible) (l : Nat) (f : LogCore → LogCore) :
    (x.modLog l f).chooseLast = x.chooseLast := rfl
@[simp] theorem Crucible.modLog_fabUnassigned (x : Crucible) (l : Nat) (f : LogCore → LogCore) :
    (x.modLog l f).fabUnassigned = x.fabUnassigned := rfl
@[simp] theorem Crucible.modLog_riser (x : Crucible) (l : Nat) (f : LogCore → LogCore) : (x.modLog l f).riser = x.riser := rfl
@[simp] theorem Crucible.modLog_hang (x : Crucible) (l : Nat) (f : LogCore → LogCore) : (x.modLog l f).hang = x.hang := rfl
@[simp] theorem Crucible.modLog_pwr (x : Crucible) (l : Nat) (f : LogCore → LogCore) : (x.modLog l f).pwr = x.pwr := rfl
@[simp] theorem Crucible.modLog_unclean (x : Crucible) (l : Nat) (f : LogCore → LogCore) : (x.modLog l f).unclean = x.unclean := rfl
@[simp] theorem Crucible.modLog_farResetting (x : Crucible) (l : Nat) (f : LogCore → LogCore) :
    (x.modLog l f).farResetting = x.farResetting := rfl
@[simp] theorem Crucible.modLog_fw (x : Crucible) (l : Nat) (f : LogCore → LogCore) : (x.modLog l f).fw = x.fw := rfl
@[simp] theorem Crucible.modLog_loaded (x : Crucible) (l : Nat) (f : LogCore → LogCore) : (x.modLog l f).loaded = x.loaded := rfl
@[simp] theorem Crucible.modLog_told (x : Crucible) (l : Nat) (f : LogCore → LogCore) : (x.modLog l f).told = x.told := rfl

@[simp] theorem Crucible.modPhys_service (x : Crucible) (l : Nat) (f : PhysCore → PhysCore) : (x.modPhys l f).service = x.service := rfl
@[simp] theorem Crucible.modPhys_frozen (x : Crucible) (l : Nat) (f : PhysCore → PhysCore) : (x.modPhys l f).frozen = x.frozen := rfl
@[simp] theorem Crucible.modPhys_tally (x : Crucible) (l : Nat) (f : PhysCore → PhysCore) : (x.modPhys l f).tally = x.tally := rfl
@[simp] theorem Crucible.modPhys_num (x : Crucible) (l : Nat) (f : PhysCore → PhysCore) : (x.modPhys l f).num = x.num := rfl
@[simp] theorem Crucible.modPhys_res (x : Crucible) (l : Nat) (f : PhysCore → PhysCore) : (x.modPhys l f).res = x.res := rfl
@[simp] theorem Crucible.modPhys_hbm (x : Crucible) (l : Nat) (f : PhysCore → PhysCore) : (x.modPhys l f).hbm = x.hbm := rfl
@[simp] theorem Crucible.modPhys_xport (x : Crucible) (l : Nat) (f : PhysCore → PhysCore) : (x.modPhys l f).xport = x.xport := rfl
@[simp] theorem Crucible.modPhys_ports (x : Crucible) (l : Nat) (f : PhysCore → PhysCore) : (x.modPhys l f).ports = x.ports := rfl
@[simp] theorem Crucible.modPhys_chooseLast (x : Crucible) (l : Nat) (f : PhysCore → PhysCore) :
    (x.modPhys l f).chooseLast = x.chooseLast := rfl
@[simp] theorem Crucible.modPhys_fabUnassigned (x : Crucible) (l : Nat) (f : PhysCore → PhysCore) :
    (x.modPhys l f).fabUnassigned = x.fabUnassigned := rfl
@[simp] theorem Crucible.modPhys_riser (x : Crucible) (l : Nat) (f : PhysCore → PhysCore) : (x.modPhys l f).riser = x.riser := rfl
@[simp] theorem Crucible.modPhys_hang (x : Crucible) (l : Nat) (f : PhysCore → PhysCore) : (x.modPhys l f).hang = x.hang := rfl
@[simp] theorem Crucible.modPhys_pwr (x : Crucible) (l : Nat) (f : PhysCore → PhysCore) : (x.modPhys l f).pwr = x.pwr := rfl
@[simp] theorem Crucible.modPhys_unclean (x : Crucible) (l : Nat) (f : PhysCore → PhysCore) : (x.modPhys l f).unclean = x.unclean := rfl
@[simp] theorem Crucible.modPhys_farResetting (x : Crucible) (l : Nat) (f : PhysCore → PhysCore) :
    (x.modPhys l f).farResetting = x.farResetting := rfl
@[simp] theorem Crucible.modPhys_fw (x : Crucible) (l : Nat) (f : PhysCore → PhysCore) : (x.modPhys l f).fw = x.fw := rfl
@[simp] theorem Crucible.modPhys_loaded (x : Crucible) (l : Nat) (f : PhysCore → PhysCore) : (x.modPhys l f).loaded = x.loaded := rfl
@[simp] theorem Crucible.modPhys_told (x : Crucible) (l : Nat) (f : PhysCore → PhysCore) : (x.modPhys l f).told = x.told := rfl

@[simp] theorem Crucible.onXport_service (x : Crucible) (f : Xport → Xport) : (x.onXport f).service = x.service := rfl
@[simp] theorem Crucible.onXport_frozen (x : Crucible) (f : Xport → Xport) : (x.onXport f).frozen = x.frozen := rfl
@[simp] theorem Crucible.onXport_core (x : Crucible) (f : Xport → Xport) : (x.onXport f).core = x.core := rfl
@[simp] theorem Crucible.onXport_tally (x : Crucible) (f : Xport → Xport) : (x.onXport f).tally = x.tally := rfl
@[simp] theorem Crucible.onXport_num (x : Crucible) (f : Xport → Xport) : (x.onXport f).num = x.num := rfl
@[simp] theorem Crucible.onXport_res (x : Crucible) (f : Xport → Xport) : (x.onXport f).res = x.res := rfl
@[simp] theorem Crucible.onXport_hbm (x : Crucible) (f : Xport → Xport) : (x.onXport f).hbm = x.hbm := rfl
@[simp] theorem Crucible.onXport_ports (x : Crucible) (f : Xport → Xport) : (x.onXport f).ports = x.ports := rfl
@[simp] theorem Crucible.onXport_chooseLast (x : Crucible) (f : Xport → Xport) : (x.onXport f).chooseLast = x.chooseLast := rfl
@[simp] theorem Crucible.onXport_fabUnassigned (x : Crucible) (f : Xport → Xport) : (x.onXport f).fabUnassigned = x.fabUnassigned := rfl
@[simp] theorem Crucible.onXport_riser (x : Crucible) (f : Xport → Xport) : (x.onXport f).riser = x.riser := rfl
@[simp] theorem Crucible.onXport_hang (x : Crucible) (f : Xport → Xport) : (x.onXport f).hang = x.hang := rfl
@[simp] theorem Crucible.onXport_pwr (x : Crucible) (f : Xport → Xport) : (x.onXport f).pwr = x.pwr := rfl
@[simp] theorem Crucible.onXport_unclean (x : Crucible) (f : Xport → Xport) : (x.onXport f).unclean = x.unclean := rfl
@[simp] theorem Crucible.onXport_farResetting (x : Crucible) (f : Xport → Xport) : (x.onXport f).farResetting = x.farResetting := rfl
@[simp] theorem Crucible.onXport_fw (x : Crucible) (f : Xport → Xport) : (x.onXport f).fw = x.fw := rfl
@[simp] theorem Crucible.onXport_loaded (x : Crucible) (f : Xport → Xport) : (x.onXport f).loaded = x.loaded := rfl
@[simp] theorem Crucible.onXport_told (x : Crucible) (f : Xport → Xport) : (x.onXport f).told = x.told := rfl

@[simp] theorem Crucible.putPort_service (x : Crucible) (n : Nat) (p : Port) : (x.putPort n p).service = x.service := rfl
@[simp] theorem Crucible.putPort_frozen (x : Crucible) (n : Nat) (p : Port) : (x.putPort n p).frozen = x.frozen := rfl
@[simp] theorem Crucible.putPort_core (x : Crucible) (n : Nat) (p : Port) : (x.putPort n p).core = x.core := rfl
@[simp] theorem Crucible.putPort_tally (x : Crucible) (n : Nat) (p : Port) : (x.putPort n p).tally = x.tally := rfl
@[simp] theorem Crucible.putPort_num (x : Crucible) (n : Nat) (p : Port) : (x.putPort n p).num = x.num := rfl
@[simp] theorem Crucible.putPort_res (x : Crucible) (n : Nat) (p : Port) : (x.putPort n p).res = x.res := rfl
@[simp] theorem Crucible.putPort_hbm (x : Crucible) (n : Nat) (p : Port) : (x.putPort n p).hbm = x.hbm := rfl
@[simp] theorem Crucible.putPort_xport (x : Crucible) (n : Nat) (p : Port) : (x.putPort n p).xport = x.xport := rfl
@[simp] theorem Crucible.putPort_chooseLast (x : Crucible) (n : Nat) (p : Port) : (x.putPort n p).chooseLast = x.chooseLast := rfl
@[simp] theorem Crucible.putPort_fabUnassigned (x : Crucible) (n : Nat) (p : Port) :
    (x.putPort n p).fabUnassigned = x.fabUnassigned := rfl
@[simp] theorem Crucible.putPort_riser (x : Crucible) (n : Nat) (p : Port) : (x.putPort n p).riser = x.riser := rfl
@[simp] theorem Crucible.putPort_hang (x : Crucible) (n : Nat) (p : Port) : (x.putPort n p).hang = x.hang := rfl
@[simp] theorem Crucible.putPort_pwr (x : Crucible) (n : Nat) (p : Port) : (x.putPort n p).pwr = x.pwr := rfl
@[simp] theorem Crucible.putPort_unclean (x : Crucible) (n : Nat) (p : Port) : (x.putPort n p).unclean = x.unclean := rfl
@[simp] theorem Crucible.putPort_farResetting (x : Crucible) (n : Nat) (p : Port) : (x.putPort n p).farResetting = x.farResetting := rfl
@[simp] theorem Crucible.putPort_fw (x : Crucible) (n : Nat) (p : Port) : (x.putPort n p).fw = x.fw := rfl
@[simp] theorem Crucible.putPort_loaded (x : Crucible) (n : Nat) (p : Port) : (x.putPort n p).loaded = x.loaded := rfl
@[simp] theorem Crucible.putPort_told (x : Crucible) (n : Nat) (p : Port) : (x.putPort n p).told = x.told := rfl

@[simp] theorem Crucible.onXport_xport (x : Crucible) (f : Xport → Xport) : (x.onXport f).xport = f x.xport := rfl
@[simp] theorem Crucible.port_putPort_same (x : Crucible) (n : Nat) (p : Port) : (x.putPort n p).port n = p := by
  simp [Crucible.putPort, Crucible.port]
theorem Crucible.port_putPort (x : Crucible) (n m : Nat) (p : Port) : (x.putPort n p).port m = if n = m then p else x.port m := by
  simp [Crucible.putPort, Crucible.port, Store.get_set]

/-! ### Updates of a physical core -/

@[simp] theorem PhysCore.setS_a (p : PhysCore) (i : BitVec 5) (v : W64) : (p.setS i v).a = p.a := by
  unfold PhysCore.setS; split <;> rfl
@[simp] theorem PhysCore.setS_pc (p : PhysCore) (i : BitVec 5) (v : W64) : (p.setS i v).pc = p.pc := by
  unfold PhysCore.setS; split <;> rfl
@[simp] theorem PhysCore.setS_step (p : PhysCore) (i : BitVec 5) (v : W64) : (p.setS i v).step = p.step := by
  unfold PhysCore.setS; split <;> rfl
@[simp] theorem PhysCore.setS_seq (p : PhysCore) (i : BitVec 5) (v : W64) : (p.setS i v).seq = p.seq := by
  unfold PhysCore.setS; split <;> rfl
@[simp] theorem PhysCore.setS_cyc (p : PhysCore) (i : BitVec 5) (v : W64) : (p.setS i v).cyc = p.cyc := by
  unfold PhysCore.setS; split <;> rfl
@[simp] theorem PhysCore.setS_istore (p : PhysCore) (i : BitVec 5) (v : W64) : (p.setS i v).istore = p.istore := by
  unfold PhysCore.setS; split <;> rfl
@[simp] theorem PhysCore.setS_scratch (p : PhysCore) (i : BitVec 5) (v : W64) : (p.setS i v).scratch = p.scratch := by
  unfold PhysCore.setS; split <;> rfl
@[simp] theorem PhysCore.setS_acc (p : PhysCore) (i : BitVec 5) (v : W64) : (p.setS i v).acc = p.acc := by
  unfold PhysCore.setS; split <;> rfl
@[simp] theorem PhysCore.setS_v (p : PhysCore) (i : BitVec 5) (v : W64) : (p.setS i v).v = p.v := by
  unfold PhysCore.setS; split <;> rfl
@[simp] theorem PhysCore.setS_t (p : PhysCore) (i : BitVec 5) (v : W64) : (p.setS i v).t = p.t := by
  unfold PhysCore.setS; split <;> rfl
@[simp] theorem PhysCore.setS_tally (p : PhysCore) (i : BitVec 5) (v : W64) : (p.setS i v).tally = p.tally := by
  unfold PhysCore.setS; split <;> rfl
@[simp] theorem PhysCore.setS_tq (p : PhysCore) (i : BitVec 5) (v : W64) : (p.setS i v).tq = p.tq := by
  unfold PhysCore.setS; split <;> rfl
@[simp] theorem PhysCore.setS_vq (p : PhysCore) (i : BitVec 5) (v : W64) : (p.setS i v).vq = p.vq := by
  unfold PhysCore.setS; split <;> rfl
@[simp] theorem PhysCore.setS_xq (p : PhysCore) (i : BitVec 5) (v : W64) : (p.setS i v).xq = p.xq := by
  unfold PhysCore.setS; split <;> rfl
@[simp] theorem PhysCore.setS_active (p : PhysCore) (i : BitVec 5) (v : W64) : (p.setS i v).active = p.active := by
  unfold PhysCore.setS; split <;> rfl
@[simp] theorem PhysCore.setS_standby (p : PhysCore) (i : BitVec 5) (v : W64) : (p.setS i v).standby = p.standby := by
  unfold PhysCore.setS; split <;> rfl
@[simp] theorem PhysCore.setS_standbyFull (p : PhysCore) (i : BitVec 5) (v : W64) : (p.setS i v).standbyFull = p.standbyFull := by
  unfold PhysCore.setS; split <;> rfl
@[simp] theorem PhysCore.setS_lastLoad (p : PhysCore) (i : BitVec 5) (v : W64) : (p.setS i v).lastLoad = p.lastLoad := by
  unfold PhysCore.setS; split <;> rfl

@[simp] theorem PhysCore.setA_s (p : PhysCore) (i : BitVec 5) (v : W48) : (p.setA i v).s = p.s := rfl
@[simp] theorem PhysCore.setA_pc (p : PhysCore) (i : BitVec 5) (v : W48) : (p.setA i v).pc = p.pc := rfl
@[simp] theorem PhysCore.setA_step (p : PhysCore) (i : BitVec 5) (v : W48) : (p.setA i v).step = p.step := rfl
@[simp] theorem PhysCore.setA_seq (p : PhysCore) (i : BitVec 5) (v : W48) : (p.setA i v).seq = p.seq := rfl
@[simp] theorem PhysCore.setA_cyc (p : PhysCore) (i : BitVec 5) (v : W48) : (p.setA i v).cyc = p.cyc := rfl
@[simp] theorem PhysCore.setA_istore (p : PhysCore) (i : BitVec 5) (v : W48) : (p.setA i v).istore = p.istore := rfl
@[simp] theorem PhysCore.setA_scratch (p : PhysCore) (i : BitVec 5) (v : W48) : (p.setA i v).scratch = p.scratch := rfl
@[simp] theorem PhysCore.setA_acc (p : PhysCore) (i : BitVec 5) (v : W48) : (p.setA i v).acc = p.acc := rfl
@[simp] theorem PhysCore.setA_v (p : PhysCore) (i : BitVec 5) (v : W48) : (p.setA i v).v = p.v := rfl
@[simp] theorem PhysCore.setA_t (p : PhysCore) (i : BitVec 5) (v : W48) : (p.setA i v).t = p.t := rfl
@[simp] theorem PhysCore.setA_tally (p : PhysCore) (i : BitVec 5) (v : W48) : (p.setA i v).tally = p.tally := rfl
@[simp] theorem PhysCore.setA_tq (p : PhysCore) (i : BitVec 5) (v : W48) : (p.setA i v).tq = p.tq := rfl
@[simp] theorem PhysCore.setA_vq (p : PhysCore) (i : BitVec 5) (v : W48) : (p.setA i v).vq = p.vq := rfl
@[simp] theorem PhysCore.setA_xq (p : PhysCore) (i : BitVec 5) (v : W48) : (p.setA i v).xq = p.xq := rfl
@[simp] theorem PhysCore.setA_active (p : PhysCore) (i : BitVec 5) (v : W48) : (p.setA i v).active = p.active := rfl
@[simp] theorem PhysCore.setA_standby (p : PhysCore) (i : BitVec 5) (v : W48) : (p.setA i v).standby = p.standby := rfl
@[simp] theorem PhysCore.setA_standbyFull (p : PhysCore) (i : BitVec 5) (v : W48) : (p.setA i v).standbyFull = p.standbyFull := rfl
@[simp] theorem PhysCore.setA_lastLoad (p : PhysCore) (i : BitVec 5) (v : W48) : (p.setA i v).lastLoad = p.lastLoad := rfl

@[simp] theorem PhysCore.setT_s (p : PhysCore) (i : BitVec 5) (v : W128) : (p.setT i v).s = p.s := rfl
@[simp] theorem PhysCore.setT_a (p : PhysCore) (i : BitVec 5) (v : W128) : (p.setT i v).a = p.a := rfl
@[simp] theorem PhysCore.setT_pc (p : PhysCore) (i : BitVec 5) (v : W128) : (p.setT i v).pc = p.pc := rfl
@[simp] theorem PhysCore.setT_step (p : PhysCore) (i : BitVec 5) (v : W128) : (p.setT i v).step = p.step := rfl
@[simp] theorem PhysCore.setT_seq (p : PhysCore) (i : BitVec 5) (v : W128) : (p.setT i v).seq = p.seq := rfl
@[simp] theorem PhysCore.setT_cyc (p : PhysCore) (i : BitVec 5) (v : W128) : (p.setT i v).cyc = p.cyc := rfl
@[simp] theorem PhysCore.setT_istore (p : PhysCore) (i : BitVec 5) (v : W128) : (p.setT i v).istore = p.istore := rfl
@[simp] theorem PhysCore.setT_scratch (p : PhysCore) (i : BitVec 5) (v : W128) : (p.setT i v).scratch = p.scratch := rfl
@[simp] theorem PhysCore.setT_acc (p : PhysCore) (i : BitVec 5) (v : W128) : (p.setT i v).acc = p.acc := rfl
@[simp] theorem PhysCore.setT_v (p : PhysCore) (i : BitVec 5) (v : W128) : (p.setT i v).v = p.v := rfl
@[simp] theorem PhysCore.setT_tally (p : PhysCore) (i : BitVec 5) (v : W128) : (p.setT i v).tally = p.tally := rfl
@[simp] theorem PhysCore.setT_tq (p : PhysCore) (i : BitVec 5) (v : W128) : (p.setT i v).tq = p.tq := rfl
@[simp] theorem PhysCore.setT_vq (p : PhysCore) (i : BitVec 5) (v : W128) : (p.setT i v).vq = p.vq := rfl
@[simp] theorem PhysCore.setT_xq (p : PhysCore) (i : BitVec 5) (v : W128) : (p.setT i v).xq = p.xq := rfl
@[simp] theorem PhysCore.setT_active (p : PhysCore) (i : BitVec 5) (v : W128) : (p.setT i v).active = p.active := rfl
@[simp] theorem PhysCore.setT_standby (p : PhysCore) (i : BitVec 5) (v : W128) : (p.setT i v).standby = p.standby := rfl
@[simp] theorem PhysCore.setT_standbyFull (p : PhysCore) (i : BitVec 5) (v : W128) : (p.setT i v).standbyFull = p.standbyFull := rfl
@[simp] theorem PhysCore.setT_lastLoad (p : PhysCore) (i : BitVec 5) (v : W128) : (p.setT i v).lastLoad = p.lastLoad := rfl

@[simp] theorem PhysCore.setTally_s (p : PhysCore) (i : Nat) (w : W64) : (p.setTally i w).s = p.s := rfl
@[simp] theorem PhysCore.setTally_a (p : PhysCore) (i : Nat) (w : W64) : (p.setTally i w).a = p.a := rfl
@[simp] theorem PhysCore.setTally_pc (p : PhysCore) (i : Nat) (w : W64) : (p.setTally i w).pc = p.pc := rfl
@[simp] theorem PhysCore.setTally_step (p : PhysCore) (i : Nat) (w : W64) : (p.setTally i w).step = p.step := rfl
@[simp] theorem PhysCore.setTally_seq (p : PhysCore) (i : Nat) (w : W64) : (p.setTally i w).seq = p.seq := rfl
@[simp] theorem PhysCore.setTally_cyc (p : PhysCore) (i : Nat) (w : W64) : (p.setTally i w).cyc = p.cyc := rfl
@[simp] theorem PhysCore.setTally_istore (p : PhysCore) (i : Nat) (w : W64) : (p.setTally i w).istore = p.istore := rfl
@[simp] theorem PhysCore.setTally_scratch (p : PhysCore) (i : Nat) (w : W64) : (p.setTally i w).scratch = p.scratch := rfl
@[simp] theorem PhysCore.setTally_acc (p : PhysCore) (i : Nat) (w : W64) : (p.setTally i w).acc = p.acc := rfl
@[simp] theorem PhysCore.setTally_v (p : PhysCore) (i : Nat) (w : W64) : (p.setTally i w).v = p.v := rfl
@[simp] theorem PhysCore.setTally_t (p : PhysCore) (i : Nat) (w : W64) : (p.setTally i w).t = p.t := rfl
@[simp] theorem PhysCore.setTally_tq (p : PhysCore) (i : Nat) (w : W64) : (p.setTally i w).tq = p.tq := rfl
@[simp] theorem PhysCore.setTally_vq (p : PhysCore) (i : Nat) (w : W64) : (p.setTally i w).vq = p.vq := rfl
@[simp] theorem PhysCore.setTally_xq (p : PhysCore) (i : Nat) (w : W64) : (p.setTally i w).xq = p.xq := rfl
@[simp] theorem PhysCore.setTally_active (p : PhysCore) (i : Nat) (w : W64) : (p.setTally i w).active = p.active := rfl
@[simp] theorem PhysCore.setTally_standby (p : PhysCore) (i : Nat) (w : W64) : (p.setTally i w).standby = p.standby := rfl
@[simp] theorem PhysCore.setTally_standbyFull (p : PhysCore) (i : Nat) (w : W64) : (p.setTally i w).standbyFull = p.standbyFull := rfl
@[simp] theorem PhysCore.setTally_lastLoad (p : PhysCore) (i : Nat) (w : W64) : (p.setTally i w).lastLoad = p.lastLoad := rfl

@[simp] theorem PhysCore.dropUnstarted_s (p : PhysCore) : (p.dropUnstarted).s = p.s := rfl
@[simp] theorem PhysCore.dropUnstarted_a (p : PhysCore) : (p.dropUnstarted).a = p.a := rfl
@[simp] theorem PhysCore.dropUnstarted_pc (p : PhysCore) : (p.dropUnstarted).pc = p.pc := rfl
@[simp] theorem PhysCore.dropUnstarted_step (p : PhysCore) : (p.dropUnstarted).step = p.step := rfl
@[simp] theorem PhysCore.dropUnstarted_seq (p : PhysCore) : (p.dropUnstarted).seq = p.seq := rfl
@[simp] theorem PhysCore.dropUnstarted_cyc (p : PhysCore) : (p.dropUnstarted).cyc = p.cyc := rfl
@[simp] theorem PhysCore.dropUnstarted_istore (p : PhysCore) : (p.dropUnstarted).istore = p.istore := rfl
@[simp] theorem PhysCore.dropUnstarted_scratch (p : PhysCore) : (p.dropUnstarted).scratch = p.scratch := rfl
@[simp] theorem PhysCore.dropUnstarted_acc (p : PhysCore) : (p.dropUnstarted).acc = p.acc := rfl
@[simp] theorem PhysCore.dropUnstarted_v (p : PhysCore) : (p.dropUnstarted).v = p.v := rfl
@[simp] theorem PhysCore.dropUnstarted_t (p : PhysCore) : (p.dropUnstarted).t = p.t := rfl
@[simp] theorem PhysCore.dropUnstarted_tally (p : PhysCore) : (p.dropUnstarted).tally = p.tally := rfl
@[simp] theorem PhysCore.dropUnstarted_active (p : PhysCore) : (p.dropUnstarted).active = p.active := rfl
@[simp] theorem PhysCore.dropUnstarted_standby (p : PhysCore) : (p.dropUnstarted).standby = p.standby := rfl
@[simp] theorem PhysCore.dropUnstarted_standbyFull (p : PhysCore) : (p.dropUnstarted).standbyFull = p.standbyFull := rfl
@[simp] theorem PhysCore.dropUnstarted_lastLoad (p : PhysCore) : (p.dropUnstarted).lastLoad = p.lastLoad := rfl

/-! ### Updates of a run of lanes or accumulator words -/

@[simp] theorem PhysCore.setLanes_s (p : PhysCore) (i : BitVec 5) (l : Nat) (ws : List W32) : (p.setLanes i l ws).s = p.s := by
  induction ws generalizing p l with
  | nil => rfl
  | cons w ws ih => exact ih _ _
@[simp] theorem PhysCore.setLanes_a (p : PhysCore) (i : BitVec 5) (l : Nat) (ws : List W32) : (p.setLanes i l ws).a = p.a := by
  induction ws generalizing p l with
  | nil => rfl
  | cons w ws ih => exact ih _ _
@[simp] theorem PhysCore.setLanes_pc (p : PhysCore) (i : BitVec 5) (l : Nat) (ws : List W32) : (p.setLanes i l ws).pc = p.pc := by
  induction ws generalizing p l with
  | nil => rfl
  | cons w ws ih => exact ih _ _
@[simp] theorem PhysCore.setLanes_step (p : PhysCore) (i : BitVec 5) (l : Nat) (ws : List W32) : (p.setLanes i l ws).step = p.step := by
  induction ws generalizing p l with
  | nil => rfl
  | cons w ws ih => exact ih _ _
@[simp] theorem PhysCore.setLanes_seq (p : PhysCore) (i : BitVec 5) (l : Nat) (ws : List W32) : (p.setLanes i l ws).seq = p.seq := by
  induction ws generalizing p l with
  | nil => rfl
  | cons w ws ih => exact ih _ _
@[simp] theorem PhysCore.setLanes_cyc (p : PhysCore) (i : BitVec 5) (l : Nat) (ws : List W32) : (p.setLanes i l ws).cyc = p.cyc := by
  induction ws generalizing p l with
  | nil => rfl
  | cons w ws ih => exact ih _ _
@[simp] theorem PhysCore.setLanes_istore (p : PhysCore) (i : BitVec 5) (l : Nat) (ws : List W32) :
    (p.setLanes i l ws).istore = p.istore := by
  induction ws generalizing p l with
  | nil => rfl
  | cons w ws ih => exact ih _ _
@[simp] theorem PhysCore.setLanes_scratch (p : PhysCore) (i : BitVec 5) (l : Nat) (ws : List W32) :
    (p.setLanes i l ws).scratch = p.scratch := by
  induction ws generalizing p l with
  | nil => rfl
  | cons w ws ih => exact ih _ _
@[simp] theorem PhysCore.setLanes_acc (p : PhysCore) (i : BitVec 5) (l : Nat) (ws : List W32) : (p.setLanes i l ws).acc = p.acc := by
  induction ws generalizing p l with
  | nil => rfl
  | cons w ws ih => exact ih _ _
@[simp] theorem PhysCore.setLanes_accRes (p : PhysCore) (i : BitVec 5) (l : Nat) (ws : List W32) :
    (p.setLanes i l ws).accRes = p.accRes := by
  induction ws generalizing p l with
  | nil => rfl
  | cons w ws ih => exact ih _ _
@[simp] theorem PhysCore.setLanes_t (p : PhysCore) (i : BitVec 5) (l : Nat) (ws : List W32) : (p.setLanes i l ws).t = p.t := by
  induction ws generalizing p l with
  | nil => rfl
  | cons w ws ih => exact ih _ _
@[simp] theorem PhysCore.setLanes_tally (p : PhysCore) (i : BitVec 5) (l : Nat) (ws : List W32) :
    (p.setLanes i l ws).tally = p.tally := by
  induction ws generalizing p l with
  | nil => rfl
  | cons w ws ih => exact ih _ _
@[simp] theorem PhysCore.setLanes_tq (p : PhysCore) (i : BitVec 5) (l : Nat) (ws : List W32) : (p.setLanes i l ws).tq = p.tq := by
  induction ws generalizing p l with
  | nil => rfl
  | cons w ws ih => exact ih _ _
@[simp] theorem PhysCore.setLanes_vq (p : PhysCore) (i : BitVec 5) (l : Nat) (ws : List W32) : (p.setLanes i l ws).vq = p.vq := by
  induction ws generalizing p l with
  | nil => rfl
  | cons w ws ih => exact ih _ _
@[simp] theorem PhysCore.setLanes_xq (p : PhysCore) (i : BitVec 5) (l : Nat) (ws : List W32) : (p.setLanes i l ws).xq = p.xq := by
  induction ws generalizing p l with
  | nil => rfl
  | cons w ws ih => exact ih _ _
@[simp] theorem PhysCore.setLanes_active (p : PhysCore) (i : BitVec 5) (l : Nat) (ws : List W32) :
    (p.setLanes i l ws).active = p.active := by
  induction ws generalizing p l with
  | nil => rfl
  | cons w ws ih => exact ih _ _
@[simp] theorem PhysCore.setLanes_standby (p : PhysCore) (i : BitVec 5) (l : Nat) (ws : List W32) :
    (p.setLanes i l ws).standby = p.standby := by
  induction ws generalizing p l with
  | nil => rfl
  | cons w ws ih => exact ih _ _
@[simp] theorem PhysCore.setLanes_standbyFull (p : PhysCore) (i : BitVec 5) (l : Nat) (ws : List W32) :
    (p.setLanes i l ws).standbyFull = p.standbyFull := by
  induction ws generalizing p l with
  | nil => rfl
  | cons w ws ih => exact ih _ _
@[simp] theorem PhysCore.setLanes_lastLoad (p : PhysCore) (i : BitVec 5) (l : Nat) (ws : List W32) :
    (p.setLanes i l ws).lastLoad = p.lastLoad := by
  induction ws generalizing p l with
  | nil => rfl
  | cons w ws ih => exact ih _ _

/-! Writing one accumulator word. -/

@[simp] theorem PhysCore.putAcc_s (p : PhysCore) (i : Nat) (w : W32) (r : BitVec 3) : (p.putAcc i w r).s = p.s := rfl
@[simp] theorem PhysCore.putAcc_a (p : PhysCore) (i : Nat) (w : W32) (r : BitVec 3) : (p.putAcc i w r).a = p.a := rfl
@[simp] theorem PhysCore.putAcc_pc (p : PhysCore) (i : Nat) (w : W32) (r : BitVec 3) : (p.putAcc i w r).pc = p.pc := rfl
@[simp] theorem PhysCore.putAcc_step (p : PhysCore) (i : Nat) (w : W32) (r : BitVec 3) : (p.putAcc i w r).step = p.step := rfl
@[simp] theorem PhysCore.putAcc_seq (p : PhysCore) (i : Nat) (w : W32) (r : BitVec 3) : (p.putAcc i w r).seq = p.seq := rfl
@[simp] theorem PhysCore.putAcc_cyc (p : PhysCore) (i : Nat) (w : W32) (r : BitVec 3) : (p.putAcc i w r).cyc = p.cyc := rfl
@[simp] theorem PhysCore.putAcc_istore (p : PhysCore) (i : Nat) (w : W32) (r : BitVec 3) : (p.putAcc i w r).istore = p.istore := rfl
@[simp] theorem PhysCore.putAcc_scratch (p : PhysCore) (i : Nat) (w : W32) (r : BitVec 3) : (p.putAcc i w r).scratch = p.scratch := rfl
@[simp] theorem PhysCore.putAcc_v (p : PhysCore) (i : Nat) (w : W32) (r : BitVec 3) : (p.putAcc i w r).v = p.v := rfl
@[simp] theorem PhysCore.putAcc_vRes (p : PhysCore) (i : Nat) (w : W32) (r : BitVec 3) : (p.putAcc i w r).vRes = p.vRes := rfl
@[simp] theorem PhysCore.putAcc_t (p : PhysCore) (i : Nat) (w : W32) (r : BitVec 3) : (p.putAcc i w r).t = p.t := rfl
@[simp] theorem PhysCore.putAcc_tally (p : PhysCore) (i : Nat) (w : W32) (r : BitVec 3) : (p.putAcc i w r).tally = p.tally := rfl
@[simp] theorem PhysCore.putAcc_tq (p : PhysCore) (i : Nat) (w : W32) (r : BitVec 3) : (p.putAcc i w r).tq = p.tq := rfl
@[simp] theorem PhysCore.putAcc_vq (p : PhysCore) (i : Nat) (w : W32) (r : BitVec 3) : (p.putAcc i w r).vq = p.vq := rfl
@[simp] theorem PhysCore.putAcc_xq (p : PhysCore) (i : Nat) (w : W32) (r : BitVec 3) : (p.putAcc i w r).xq = p.xq := rfl
@[simp] theorem PhysCore.putAcc_active (p : PhysCore) (i : Nat) (w : W32) (r : BitVec 3) : (p.putAcc i w r).active = p.active := rfl
@[simp] theorem PhysCore.putAcc_standby (p : PhysCore) (i : Nat) (w : W32) (r : BitVec 3) : (p.putAcc i w r).standby = p.standby := rfl
@[simp] theorem PhysCore.putAcc_standbyFull (p : PhysCore) (i : Nat) (w : W32) (r : BitVec 3) : (p.putAcc i w r).standbyFull = p.standbyFull := rfl
@[simp] theorem PhysCore.putAcc_lastLoad (p : PhysCore) (i : Nat) (w : W32) (r : BitVec 3) : (p.putAcc i w r).lastLoad = p.lastLoad := rfl
@[simp] theorem PhysCore.putAcc_acc (p : PhysCore) (i : Nat) (w : W32) (r : BitVec 3) :
    (p.putAcc i w r).acc = Store.set zero32 p.acc i w := rfl
@[simp] theorem PhysCore.putAcc_accRes (p : PhysCore) (i : Nat) (w : W32) (r : BitVec 3) :
    (p.putAcc i w r).accRes = Store.set zero3 p.accRes i r := rfl

@[simp] theorem PhysCore.setAcc_s (p : PhysCore) (r c : Nat) (ws : List W32) : (p.setAcc r c ws).s = p.s := by
  induction ws generalizing p c with
  | nil => rfl
  | cons w ws ih => exact ih _ _
@[simp] theorem PhysCore.setAcc_a (p : PhysCore) (r c : Nat) (ws : List W32) : (p.setAcc r c ws).a = p.a := by
  induction ws generalizing p c with
  | nil => rfl
  | cons w ws ih => exact ih _ _
@[simp] theorem PhysCore.setAcc_pc (p : PhysCore) (r c : Nat) (ws : List W32) : (p.setAcc r c ws).pc = p.pc := by
  induction ws generalizing p c with
  | nil => rfl
  | cons w ws ih => exact ih _ _
@[simp] theorem PhysCore.setAcc_step (p : PhysCore) (r c : Nat) (ws : List W32) : (p.setAcc r c ws).step = p.step := by
  induction ws generalizing p c with
  | nil => rfl
  | cons w ws ih => exact ih _ _
@[simp] theorem PhysCore.setAcc_seq (p : PhysCore) (r c : Nat) (ws : List W32) : (p.setAcc r c ws).seq = p.seq := by
  induction ws generalizing p c with
  | nil => rfl
  | cons w ws ih => exact ih _ _
@[simp] theorem PhysCore.setAcc_cyc (p : PhysCore) (r c : Nat) (ws : List W32) : (p.setAcc r c ws).cyc = p.cyc := by
  induction ws generalizing p c with
  | nil => rfl
  | cons w ws ih => exact ih _ _
@[simp] theorem PhysCore.setAcc_istore (p : PhysCore) (r c : Nat) (ws : List W32) : (p.setAcc r c ws).istore = p.istore := by
  induction ws generalizing p c with
  | nil => rfl
  | cons w ws ih => exact ih _ _
@[simp] theorem PhysCore.setAcc_scratch (p : PhysCore) (r c : Nat) (ws : List W32) : (p.setAcc r c ws).scratch = p.scratch := by
  induction ws generalizing p c with
  | nil => rfl
  | cons w ws ih => exact ih _ _
@[simp] theorem PhysCore.setAcc_v (p : PhysCore) (r c : Nat) (ws : List W32) : (p.setAcc r c ws).v = p.v := by
  induction ws generalizing p c with
  | nil => rfl
  | cons w ws ih => exact ih _ _
@[simp] theorem PhysCore.setAcc_vRes (p : PhysCore) (r c : Nat) (ws : List W32) : (p.setAcc r c ws).vRes = p.vRes := by
  induction ws generalizing p c with
  | nil => rfl
  | cons w ws ih => exact ih _ _
@[simp] theorem PhysCore.setAcc_t (p : PhysCore) (r c : Nat) (ws : List W32) : (p.setAcc r c ws).t = p.t := by
  induction ws generalizing p c with
  | nil => rfl
  | cons w ws ih => exact ih _ _
@[simp] theorem PhysCore.setAcc_tally (p : PhysCore) (r c : Nat) (ws : List W32) : (p.setAcc r c ws).tally = p.tally := by
  induction ws generalizing p c with
  | nil => rfl
  | cons w ws ih => exact ih _ _
@[simp] theorem PhysCore.setAcc_tq (p : PhysCore) (r c : Nat) (ws : List W32) : (p.setAcc r c ws).tq = p.tq := by
  induction ws generalizing p c with
  | nil => rfl
  | cons w ws ih => exact ih _ _
@[simp] theorem PhysCore.setAcc_vq (p : PhysCore) (r c : Nat) (ws : List W32) : (p.setAcc r c ws).vq = p.vq := by
  induction ws generalizing p c with
  | nil => rfl
  | cons w ws ih => exact ih _ _
@[simp] theorem PhysCore.setAcc_xq (p : PhysCore) (r c : Nat) (ws : List W32) : (p.setAcc r c ws).xq = p.xq := by
  induction ws generalizing p c with
  | nil => rfl
  | cons w ws ih => exact ih _ _
@[simp] theorem PhysCore.setAcc_active (p : PhysCore) (r c : Nat) (ws : List W32) : (p.setAcc r c ws).active = p.active := by
  induction ws generalizing p c with
  | nil => rfl
  | cons w ws ih => exact ih _ _
@[simp] theorem PhysCore.setAcc_standby (p : PhysCore) (r c : Nat) (ws : List W32) : (p.setAcc r c ws).standby = p.standby := by
  induction ws generalizing p c with
  | nil => rfl
  | cons w ws ih => exact ih _ _
@[simp] theorem PhysCore.setAcc_standbyFull (p : PhysCore) (r c : Nat) (ws : List W32) :
    (p.setAcc r c ws).standbyFull = p.standbyFull := by
  induction ws generalizing p c with
  | nil => rfl
  | cons w ws ih => exact ih _ _
@[simp] theorem PhysCore.setAcc_lastLoad (p : PhysCore) (r c : Nat) (ws : List W32) : (p.setAcc r c ws).lastLoad = p.lastLoad := by
  induction ws generalizing p c with
  | nil => rfl
  | cons w ws ih => exact ih _ _

/-- Lanes written from lane `l` on. -/
theorem PhysCore.setLanes_get (p : PhysCore) (i : BitVec 5) (l : Nat) (ws : List W32) (j : Nat) :
    Store.get zero32 (p.setLanes i l ws).v j =
      if 64 * i.toNat + l ≤ j ∧ j < 64 * i.toNat + l + ws.length then ws.getD (j - (64 * i.toNat + l)) 0 else Store.get zero32 p.v j := by
  induction ws generalizing p l with
  | nil => rw [if_neg (fun h => by have := h.2; rw [List.length_nil] at this; omega)]; rfl
  | cons w ws ih =>
    rw [PhysCore.setLanes, ih, Store.get_set]
    by_cases h : 64 * i.toNat + l = j
    · subst h
      rw [if_neg (by omega), if_pos rfl, if_pos (by simp)]
      simp
    · by_cases hr : 64 * i.toNat + (l + 1) ≤ j ∧ j < 64 * i.toNat + (l + 1) + ws.length
      · have : j - (64 * i.toNat + l) = (j - (64 * i.toNat + (l + 1))) + 1 := by omega
        rw [if_pos hr, if_pos (by simp; omega), this]
        simp
      · rw [if_neg hr, if_neg h, if_neg (by simp; omega)]

/-- Accumulator words written from (r, c) on. -/
theorem PhysCore.setAcc_get (p : PhysCore) (r c : Nat) (ws : List W32) (j : Nat) :
    Store.get zero32 (p.setAcc r c ws).acc j =
      if 64 * r + c ≤ j ∧ j < 64 * r + c + ws.length then ws.getD (j - (64 * r + c)) 0 else Store.get zero32 p.acc j := by
  induction ws generalizing p c with
  | nil => rw [if_neg (fun h => by have := h.2; rw [List.length_nil] at this; omega)]; rfl
  | cons w ws ih =>
    rw [PhysCore.setAcc, ih, PhysCore.putAcc_acc, Store.get_set]
    by_cases h : 64 * r + c = j
    · subst h
      rw [if_neg (by omega), if_pos rfl, if_pos (by simp)]
      simp
    · by_cases hr : 64 * r + (c + 1) ≤ j ∧ j < 64 * r + (c + 1) + ws.length
      · have : j - (64 * r + c) = (j - (64 * r + (c + 1))) + 1 := by omega
        rw [if_pos hr, if_pos (by simp; omega), this]
        simp
      · rw [if_neg hr, if_neg h, if_neg (by simp; omega)]

/-! ### Reset -/

/-- HBM and the cores' memories are in canonical form at reset. -/
theorem State.reset_hbm_wf (c : Cru) : Memory.wf (State.reset.crucible c).hbm.mem = true := by
  match c with
  | 0 | 1 | 2 | 3 => rfl

theorem PhysCore.reset_scratch_wf : Memory.wf PhysCore.reset.scratch = true := rfl

end Sys2Proof.Machine
end

