-- ==== Sys2Proof/Laws/Core.lean ====
section
/-!
SUPPORT. What the shared operations over cores can do, said once: reading back a core that was written, issue and its four ends, and
that none of them reaches past its core.
-/
namespace Sys2Proof.Machine

/-! ### Reading a core back -/

@[simp] theorem Crucible.physIx_putPhys (x : Crucible) (l m : Nat) (v : PhysCore) : (x.putPhys l v).physIx m = x.physIx m := rfl
@[simp] theorem Crucible.physIx_putLog (x : Crucible) (l m : Nat) (v : LogCore) : (x.putLog l v).physIx m = x.physIx m := rfl

@[simp] theorem Crucible.phys_putPhys_same (x : Crucible) (l : Nat) (v : PhysCore) : (x.putPhys l v).phys l = v := by
  simp [Crucible.putPhys, Crucible.phys, Crucible.physIx]

@[simp] theorem Crucible.log_putLog_same (x : Crucible) (l : Nat) (v : LogCore) : (x.putLog l v).log l = v := by
  simp [Crucible.putLog, Crucible.log]

theorem Crucible.log_putLog (x : Crucible) (l m : Nat) (v : LogCore) : (x.putLog l v).log m = if l = m then v else x.log m := by
  simp [Crucible.putLog, Crucible.log, Store.get_set]

@[simp] theorem Crucible.phys_putLog (x : Crucible) (l m : Nat) (v : LogCore) : (x.putLog l v).phys m = x.phys m := rfl
@[simp] theorem Crucible.log_putPhys (x : Crucible) (l m : Nat) (v : PhysCore) : (x.putPhys l v).log m = x.log m := rfl
@[simp] theorem Crucible.log_markUnclean (x : Crucible) (n : Option Nat) (m : Nat) : (x.markUnclean n).log m = x.log m := by
  unfold Crucible.markUnclean; split <;> rfl
@[simp] theorem Crucible.phys_markUnclean (x : Crucible) (n : Option Nat) (m : Nat) : (x.markUnclean n).phys m = x.phys m := by
  unfold Crucible.markUnclean; split <;> rfl
@[simp] theorem Crucible.core_markUnclean (x : Crucible) (n : Option Nat) : (x.markUnclean n).core = x.core := by
  unfold Crucible.markUnclean; split <;> rfl

/-! ### Only one core changes -/

/-- From `x` to `y` nothing changes but the physical core that `l` is bound to, and logical core `l`. -/
def Crucible.Only (l : Nat) (x y : Crucible) : Prop :=
  ∃ P L, y = { x with core := { x.core with phys := P, logi := L } } ∧
    (∀ q, q ≠ x.physIx l → Store.get physDefault P q = Store.get physDefault x.core.phys q) ∧
    (∀ m, m ≠ l → Store.get logiDefault L m = Store.get logiDefault x.core.logi m)

theorem Crucible.Only.refl (l : Nat) (x : Crucible) : Crucible.Only l x x := ⟨_, _, rfl, fun _ _ => rfl, fun _ _ => rfl⟩

theorem Crucible.Only.trans {l : Nat} {x y z : Crucible} (h : Crucible.Only l x y) (k : Crucible.Only l y z) : Crucible.Only l x z := by
  obtain ⟨P, L, rfl, hp, hl⟩ := h
  obtain ⟨P', L', rfl, hp', hl'⟩ := k
  exact ⟨P', L', rfl, fun q hq => (hp' q hq).trans (hp q hq), fun m hm => (hl' m hm).trans (hl m hm)⟩

theorem Crucible.only_putPhys (x : Crucible) (l : Nat) (v : PhysCore) : Crucible.Only l x (x.putPhys l v) :=
  ⟨_, _, rfl, fun _ hq => Store.get_set_other _ _ (Ne.symm hq), fun _ _ => rfl⟩

theorem Crucible.only_putLog (x : Crucible) (l : Nat) (v : LogCore) : Crucible.Only l x (x.putLog l v) :=
  ⟨_, _, rfl, fun _ _ => rfl, fun _ hm => Store.get_set_other _ _ (Ne.symm hm)⟩

theorem Crucible.only_settle (x : Crucible) (l : Nat) : Crucible.Only l x (x.settle l) := by
  unfold Crucible.settle
  simp only
  split
  · split
    · exact x.only_putLog l _
    · split
      · exact x.only_putLog l _
      · exact .refl l x
    · exact .refl l x
  · exact .refl l x

theorem Crucible.only_ownHalt (x : Crucible) (l : Nat) : Crucible.Only l x (x.ownHalt l) :=
  (x.only_putLog l _).trans (Crucible.only_settle _ l)

theorem Crucible.only_mgmtHalt (x : Crucible) (l : Nat) : Crucible.Only l x (x.mgmtHalt l) := by
  unfold Crucible.mgmtHalt
  simp only
  split
  · exact (x.only_putLog l _).trans (Crucible.only_settle _ l)
  · exact x.only_putLog l _
  · split
    · exact x.only_putLog l _
    · exact .refl l x

theorem Crucible.only_retire (x : Crucible) (l : Nat) (g : LogCore) (p : PhysCore) (next : Nat) :
    Crucible.Only l x (x.retire l g p next) := (x.only_putPhys l _).trans (Crucible.only_putLog _ l _)

/-- A fault changes its core, and notes that its step is not clean. -/
theorem Crucible.only_raise (x : Crucible) (l : Nat) (cause : Byte) (source : BitVec 3) (pc : BitVec 13) (detail : W32) :
    Crucible.Only l x (x.raise l cause source pc detail) ∨
      Crucible.Only l (x.markUnclean (some (x.phys l).step.toNat)) (x.raise l cause source pc detail) := by
  unfold Crucible.raise Crucible.raiseBy
  simp only
  split
  · exact .inl (.refl l x)
  · exact .inl (x.only_putLog l _)
  · exact .inr ((Crucible.only_putPhys _ l _).trans (Crucible.only_putLog _ l _))

/-- What only one core's change means for the state. -/
theorem onlyCore_of_only {s : State} {k : CoreId} {y : Crucible} (h : Crucible.Only k.core.val (s.crucible k.cru) y) :
    OnlyCore k s (s.putCrucible k.cru y) := by
  obtain ⟨P, L, rfl, hp, hl⟩ := h
  exact ⟨P, L, rfl, hp, hl⟩

/-! ### Issue -/

/-- A scalar instruction without a mismatch in its unit. -/
@[simp] theorem State.scalarChecked_false (s : State) (k : CoreId) (run : State → State) : s.scalarChecked false k run = run s := rfl

/-- The three ends of a scalar instruction whose check fails: no register write to check, the first mismatch, the second. -/
theorem State.scalarChecked_true (s : State) (k : CoreId) (run : State → State) :
    let x := s.crucible k.cru
    let seq := BitVec.ofNat 32 (x.phys k.core.val).seq
    let retired := (((run s).crucible k.cru).log k.core.val).progCore ≠ (x.log k.core.val).progCore
    let y := x.countMismatch k.core.val 6 3 seq
    (¬retired → s.scalarChecked true k run = run s) ∧
    (retired → x.firstMismatch k.core.val = true → s.scalarChecked true k run = run (s.putCrucible k.cru y)) ∧
    (retired → x.firstMismatch k.core.val = false →
      s.scalarChecked true k run = s.putCrucible k.cru (y.requestRetire k.core.val srcScalar seq)) := by
  refine ⟨fun h => ?_, fun h hf => ?_, fun h hf => ?_⟩
  · simp only [State.scalarChecked, State.scalarMismatch, if_true]
    rw [if_pos (Classical.not_not.mp h)]
  · simp only [State.scalarChecked, State.scalarMismatch, if_true]
    rw [if_neg h, if_pos hf]
  · simp only [State.scalarChecked, State.scalarMismatch, if_true]
    rw [if_neg h, if_neg (by simp [hf])]

/-- A core that does not issue is unchanged (log 6). -/
theorem Crucible.issue_stalled {x : Crucible} {l : Nat} (h : x.canIssue l = false) (word : W64) (f : LogCore → PhysCore → Issue) :
    x.issue l word f = x := by
  simp [Crucible.issue, h]

/-- The four ends of an instruction that issues: a fault, the effect, a wait and the core's halt. -/
theorem Crucible.issue_cases {x : Crucible} {l : Nat} (h : x.canIssue l = true) (word : W64) (f : LogCore → PhysCore → Issue) :
    let i := f (x.log l) (x.phys l)
    (∀ c d, i.fault word = some (c, d) → x.issue l word f = x.raise l c srcScalar (x.phys l).pc d) ∧
    (i.fault word = none →
      (∀ g p, i.effect = .run g p → x.issue l word f = x.retire l g p i.next) ∧
      (∀ w, i.effect = .wait w → x.issue l word f = x.putLog l { x.log l with waiting := some w }) ∧
      (i.effect = .halt → x.issue l word f = x.ownHalt l)) := by
  simp only [Crucible.issue, h, if_true]
  refine ⟨fun c d hf => by simp [hf], fun hf => ⟨fun g p he => ?_, fun w he => ?_, fun he => ?_⟩⟩ <;> simp [hf, he]

/-- No fault: no reserved bit, no bad tally field, a next index below 8192, and none of the later conditions. -/
theorem Issue.fault_none {i : Issue} {word : W64} (h1 : i.illegal = false) (h2 : i.tally = none) (h3 : i.next < 8192)
    (h4 : i.later.findSome? id = none) : i.fault word = none := by
  simp [Issue.fault, h1, h2, Nat.not_le.mpr h3, h4]

/-- An instruction that issues with no fault and executes retires: this is what `Retires` asks of it. -/
theorem retires_of_issue {s : State} {k : CoreId} {i : Instr} {op : Byte} {bits : BitVec 56} {f : LogCore → PhysCore → Issue}
    {g : LogCore} {p : PhysCore} (hx : exec i s = .next (s.issue k op bits f)) (hi : s.issues k)
    (hf : (f (s.logi k) (s.phys k)).fault (instrWord op bits) = none) (he : (f (s.logi k) (s.phys k)).effect = .run g p) :
    Retires i k s g p (f (s.logi k) (s.phys k)).next := by
  have hr := ((Crucible.issue_cases hi (instrWord op bits) f).2 hf).1 g p he
  refine ⟨_, hx, ?_⟩
  rw [State.issue, State.atCrucible, hr]
  refine ⟨?_, ?_, onlyCore_of_only (Crucible.only_retire _ _ _ _ _)⟩
  · simp [State.phys, Crucible.retire, State.logi]
  · simp [State.logi, Crucible.retire]

/-- An instruction that issues and has a fault takes it: this is what `Faults` asks of it. -/
theorem faults_of_issue {s : State} {k : CoreId} {i : Instr} {op : Byte} {bits : BitVec 56} {f : LogCore → PhysCore → Issue}
    {cause : Byte} {detail : W32} (hx : exec i s = .next (s.issue k op bits f)) (hi : s.issues k)
    (hf : (f (s.logi k) (s.phys k)).fault (instrWord op bits) = some (cause, detail)) : Faults i k s cause detail := by
  have hr := (Crucible.issue_cases hi (instrWord op bits) f).1 cause detail hf
  have hm : ((s.crucible k.cru).log k.core.val).mode = .running := by
    simp only [State.issues, Crucible.canIssue, Bool.and_eq_true] at hi
    simpa using hi.1.2
  let g : LogCore := { s.logi k with mode := .faulted, waiting := none, mgmtHalt := false, runWaiting := none,
                                     fault := ⟨cause, srcScalar, false, (s.phys k).pc, detail⟩, faultOrder := issueOrder (s.phys k).step (s.phys k).seq,
                                     faultAt := (s.crucible k.cru).pwr.aon, faultFlag := true, clearReq := false }
  let u := (s.crucible k.cru).markUnclean (some (s.phys k).step.toNat)
  let y := (u.modPhys k.core.val PhysCore.dropUnstarted).putLog k.core.val g
  have hs : s.issue k op bits f = s.putCrucible k.cru y := by
    show s.putCrucible k.cru ((s.crucible k.cru).issue k.core.val (instrWord op bits) f) = _
    rw [hr]
    simp [Crucible.raise, Crucible.raiseBy, hm, y, u, g, State.logi, State.phys]
  have hu : (s.putCrucible k.cru u).crucible k.cru = u := by simp
  have ho : Crucible.Only k.core.val ((s.putCrucible k.cru u).crucible k.cru) y := by
    rw [hu]
    exact (Crucible.only_putPhys _ _ _).trans (Crucible.only_putLog _ _ _)
  refine ⟨_, hx.trans (congrArg _ hs), ?_, ?_, ?_⟩
  · simp [State.phys, y, u, Crucible.modPhys]
  · simp [State.logi, y, g]
  · simpa [State.atCrucible, u] using onlyCore_of_only ho

/-- An instruction that passes its checks and waits: this is what `Waits` asks of it. -/
theorem waits_of_issue {s : State} {k : CoreId} {i : Instr} {op : Byte} {bits : BitVec 56} {f : LogCore → PhysCore → Issue}
    {w : Waiting} (hx : exec i s = .next (s.issue k op bits f)) (hi : s.issues k)
    (hf : (f (s.logi k) (s.phys k)).fault (instrWord op bits) = none) (he : (f (s.logi k) (s.phys k)).effect = .wait w) :
    Waits i k s w := by
  have hr := ((Crucible.issue_cases hi (instrWord op bits) f).2 hf).2.1 w he
  refine ⟨_, hx, ?_⟩
  rw [State.issue, State.atCrucible, hr]
  refine ⟨?_, ?_, onlyCore_of_only (Crucible.only_putLog _ _ _)⟩
  · simp [State.phys]
  · simp [State.logi]

end Sys2Proof.Machine
end

