-- ==== Sys2Proof/Laws/Module.lean ====
section
/-!
SUPPORT. What the module's shared operations do: the fused version and its fuses, numbers the module chooses, firmware slots, responses,
and the order in which states follow one another.
-/
namespace Sys2Proof.Machine

/-! ### The fused version (R626, R627) -/

/-- The highest index of `b` below n, plus one. -/
def highest (b : Nat → Bool) (n : Nat) : Nat := (List.range n).foldl (fun v i => if b i then i + 1 else v) 0

theorem highest_succ (b : Nat → Bool) (n : Nat) : highest b (n + 1) = if b n then n + 1 else highest b n := by
  simp [highest, List.range_succ]

theorem highest_le (b : Nat → Bool) (n : Nat) : highest b n ≤ n := by
  induction n with
  | zero => simp [highest]
  | succ n ih => rw [highest_succ]; split <;> omega

theorem highest_mono {b c : Nat → Bool} (h : ∀ i, b i = true → c i = true) (n : Nat) : highest b n ≤ highest c n := by
  induction n with
  | zero => simp [highest]
  | succ n ih =>
    have := highest_le b n
    rw [highest_succ, highest_succ]
    cases hb : b n with
    | true => simp [h n hb]
    | false =>
      cases c n with
      | true => simp; omega
      | false => simpa using ih

/-- Fuse i of an OTP. -/
def fuse (otp : List Byte) (i : Nat) : Bool := (otp.getD (i / 8) 0).getLsbD (i % 8)

theorem fusedVersion_eq (otp : List Byte) : fusedVersion otp = highest (fuse otp) 256 := rfl

/-- An OTP that keeps every fuse keeps the version. -/
theorem fusedVersion_mono {o p : List Byte} (h : ∀ i, fuse o i = true → fuse p i = true) : fusedVersion o ≤ fusedVersion p := by
  rw [fusedVersion_eq, fusedVersion_eq]
  exact highest_mono h 256

theorem fuse_blowBit (o : List Byte) (b i : Nat) (h : fuse o i = true) : fuse (blowBit o b) i = true := by
  have hi : i / 8 < o.length := by
    rcases Nat.lt_or_ge (i / 8) o.length with h' | h'
    · exact h'
    · simp [fuse, h'] at h
  rw [fuse, blowBit, List.getD_eq_getElem?_getD, listSet_getElem?]
  by_cases hb : b / 8 = i / 8
  · rw [if_pos ⟨hb, by omega⟩]
    simp only [fuse] at h
    rw [Option.getD_some, BitVec.getLsbD_or, hb, h, Bool.true_or]
  · rw [if_neg (by simp [hb])]
    rwa [fuse, List.getD_eq_getElem?_getD] at h

theorem fuse_foldl_blowBit (l : List Nat) (v : Nat) (o : List Byte) (i : Nat) (h : fuse o i = true) :
    fuse (l.foldl (fun o j => blowBit o (v + j)) o) i = true := by
  induction l generalizing o with
  | nil => exact h
  | cons j l ih => exact ih _ (fuse_blowBit o _ i h)

/-- A raise of the version keeps every fuse blown. -/
theorem fuse_raiseVersion (o : List Byte) (n i : Nat) (h : fuse o i = true) : fuse (raiseVersion o n) i = true :=
  fuse_foldl_blowBit _ _ o i h

/-! ### States that follow one another -/

/-- The commands that wait are the same, and no fuse has returned to 0. -/
def Follows (s t : State) : Prop := t.pending = s.pending ∧ ∀ i, fuse s.boot.otp i = true → fuse t.boot.otp i = true

theorem Follows.refl (s : State) : Follows s s := ⟨rfl, fun _ h => h⟩

theorem Follows.trans {s t u : State} (h : Follows s t) (k : Follows t u) : Follows s u :=
  ⟨k.1.trans h.1, fun i hi => k.2 i (h.2 i hi)⟩

theorem Follows.version {s t : State} (h : Follows s t) : fusedVersion s.boot.otp ≤ fusedVersion t.boot.otp := fusedVersion_mono h.2

/-- What touches neither the queue nor the OTP. -/
theorem Follows.of_eq {s t : State} (hp : t.pending = s.pending) (ho : t.boot.otp = s.boot.otp) : Follows s t :=
  ⟨hp, fun _ h => ho ▸ h⟩

theorem Follows.foldl {α : Type} {f : State → α → State} (h : ∀ s a, Follows s (f s a)) (l : List α) (s : State) :
    Follows s (l.foldl f s) := by
  induction l generalizing s with
  | nil => exact .refl s
  | cons a l ih => exact (h s a).trans (ih _)

theorem follows_putCrucible (s : State) (c : Cru) (x : Crucible) : Follows s (s.putCrucible c x) := .of_eq rfl rfl
theorem follows_atCrucible (s : State) (c : Cru) (f : Crucible → Crucible) : Follows s (s.atCrucible c f) := .of_eq rfl rfl
theorem follows_mapCrucibles (s : State) (f : Crucible → Crucible) : Follows s (s.mapCrucibles f) := .of_eq rfl rfl
theorem follows_putHalf (s : State) (h : HalfIx) (v : Half) : Follows s (s.putHalf h v) := .of_eq rfl rfl
theorem follows_modHalf (s : State) (h : HalfIx) (f : Half → Half) : Follows s (s.modHalf h f) := .of_eq rfl rfl
theorem follows_emit (s : State) (os : List Out) : Follows s (s.emit os) := .of_eq rfl rfl
theorem follows_event (s : State) (code : W16) (cru : Byte) (step : W48) (body : List Byte) :
    Follows s (s.event code cru step body) := .of_eq rfl rfl
theorem follows_enterPort (s : State) (c : Cru) (n : PortIx) (vc : Nat) (q : Packet) : Follows s (s.enterPort c n vc q) := .of_eq rfl rfl
theorem follows_issue (s : State) (k : CoreId) (op : Byte) (bits : BitVec 56) (f : LogCore → PhysCore → Issue) :
    Follows s (s.issue k op bits f) := .of_eq rfl rfl

theorem follows_raiseFuses (s : State) : Follows s s.raiseFuses := by
  unfold State.raiseFuses
  split
  · exact ⟨rfl, fun i hi => fuse_raiseVersion _ _ i hi⟩
  · exact .refl s

theorem follows_sendEth (s : State) (h : HalfIx) (m : EthMsg) : Follows s (s.sendEth h m) := .of_eq rfl rfl

theorem follows_reply (s : State) (a : AnswerTo) (status : W16) (detail : W32) (u : BitVec 4) (body : List Byte) :
    Follows s (s.reply a status detail u body) := by
  unfold State.reply
  split
  · exact .refl s
  · exact (follows_sendEth s a.half (.response ..)).trans (follows_modHalf _ _ _)

theorem follows_checked {f : State → State} (s : State) (a : AnswerTo) (cs : List Check) (h : Follows s (f s)) :
    Follows s (s.checked a cs f) := by
  unfold State.checked
  split
  · exact follows_reply _ _ _ _ _ _
  · exact h

theorem follows_serve {f : AnswerTo → State → State} (s : State) (m : CmdMsg) (op : W16) (fs : Fields)
    (h : ∀ a, Follows s (f a s)) : Follows s (s.serve m op fs f) := by
  unfold State.serve
  simp only
  split
  · exact follows_reply _ _ _ _ _ _
  · split
    · exact follows_reply _ _ _ _ _ _
    · split
      · exact follows_reply _ _ _ _ _ _
      · exact h _

/-! ### Responses (R444, R445) -/

/-- Counters of a half change no mark. -/
@[simp] theorem Half.markOf_ethAdd (h : Half) (k n : Nat) (m : EthMsg) : (h.ethAdd k n).markOf m = h.markOf m := rfl
@[simp] theorem Half.markOf_cmdBump (h : Half) (k : Nat) (m : EthMsg) : (h.cmdBump k).markOf m = h.markOf m := rfl
@[simp] theorem Half.holdsBack_ethAdd (h : Half) (k n : Nat) (x : SentMark) : (h.ethAdd k n).holdsBack x = h.holdsBack x := rfl
@[simp] theorem Half.holdsBack_cmdBump (h : Half) (k : Nat) (x : SentMark) : (h.cmdBump k).holdsBack x = h.holdsBack x := rfl

/-- A message sent leaves, or waits for its priority; the half keeps everything but its counters and what waits. -/
theorem State.sendEth_sent (s : State) (h : HalfIx) (m : EthMsg) : Sent s (s.sendEth h m) h m := by
  unfold Sent State.sendEth Half.send
  by_cases e : (s.halfAt h).holdsBack ((s.halfAt h).markOf m) = true
  · simp only [e, if_true, State.halfAt_emit, State.halfAt_putHalf_same]
    refine ⟨fun k => ?_, fun _ => ⟨by simp [State.emit, State.putHalf], _, rfl⟩⟩
    exact absurd (k.symm.trans e) (by decide)
  · simp only [e, State.halfAt_emit, State.halfAt_putHalf_same]
    exact ⟨fun _ => rfl, fun k => absurd k e⟩

/-- The response of a queue pair that works is sent. -/
theorem State.reply_sent (s : State) (a : AnswerTo) (status : W16) (detail : W32) (u : BitVec 4) (body : List Byte)
    (h : s.qpWorks a.half a.qp = true) :
    Sent s (s.reply a status detail u body) a.half (.response a.qp (a.opcode ||| 0x8000) status a.tag detail (u ||| a.away) body) := by
  have k := State.sendEth_sent s a.half (.response a.qp (a.opcode ||| 0x8000) status a.tag detail (u ||| a.away) body)
  rw [State.reply, if_neg (by simp [h])]
  unfold Sent at k ⊢
  dsimp only at k ⊢
  split
  · simpa using k
  · rw [State.halfAt_modHalf_same, Half.markOf_cmdBump, Half.holdsBack_cmdBump]
    exact k

/-- A response on a queue pair that is lost reaches nobody. -/
theorem State.reply_lost (s : State) (a : AnswerTo) (status : W16) (detail : W32) (u : BitVec 4) (body : List Byte)
    (h : s.qpWorks a.half a.qp = false) : s.reply a status detail u body = s := by
  simp [State.reply, h]

/-! ### Numbers the module chooses (log 31) -/

theorem unusedFrom_cases (used : List Nat) (n : Nat) {v : Nat} (hv : v < 2 ^ 32) :
    unusedFrom used v n ∉ used ∨ ∀ i, i < n → (v + i) % 2 ^ 32 ∈ used := by
  induction n generalizing v with
  | zero => exact .inr (fun i hi => by omega)
  | succ n ih =>
    by_cases hm : v ∈ used
    · rcases ih (Nat.mod_lt (v + 1) (by norm_num : 0 < 2 ^ 32)) with h | h
      · exact .inl (by rwa [unusedFrom, if_pos hm])
      · refine .inr (fun i hi => ?_)
        cases i with
        | zero => rwa [Nat.add_zero, Nat.mod_eq_of_lt hv]
        | succ i =>
          have := h i (by omega)
          rwa [Nat.mod_add_mod, Nat.add_assoc, Nat.add_comm 1 i] at this
    · exact .inl (by rwa [unusedFrom, if_neg hm])

theorem unusedFrom_lt (used : List Nat) (n : Nat) {v : Nat} (h : v < 2 ^ 32) : unusedFrom used v n < 2 ^ 32 := by
  induction n generalizing v with
  | zero => exact h
  | succ n ih =>
    rw [unusedFrom]
    split
    · exact ih (Nat.mod_lt _ (by norm_num))
    · exact h

theorem unusedFrom_end (used : List Nat) (n : Nat) {v : Nat} (hv : v < 2 ^ 32) (h : ∀ i, i < n → (v + i) % 2 ^ 32 ∈ used) :
    unusedFrom used v n = (v + n) % 2 ^ 32 := by
  induction n generalizing v with
  | zero => rw [unusedFrom, Nat.add_zero, Nat.mod_eq_of_lt hv]
  | succ n ih =>
    have h0 : v ∈ used := by
      have := h 0 (by omega)
      rwa [Nat.add_zero, Nat.mod_eq_of_lt hv] at this
    rw [unusedFrom, if_pos h0, ih (Nat.mod_lt _ (by norm_num))]
    · rw [Nat.mod_add_mod, Nat.add_assoc, Nat.add_comm 1 n]
    · intro i hi
      have := h (i + 1) (by omega)
      rwa [Nat.mod_add_mod, Nat.add_assoc, Nat.add_comm 1 i]

/-- While fewer than 2^32 numbers are in use, the number chosen is not one of them. -/
theorem unused_not_mem (used : List Nat) (i : Nat) (h : used.length < 2 ^ 32) : unused used i ∉ used := by
  have hv : (Config.free32 i).toNat < 2 ^ 32 := (Config.free32 i).isLt
  rcases unusedFrom_cases used used.length hv with h' | hall
  · exact h'
  · rw [unused, unusedFrom_end used _ hv hall]
    intro hmem
    let l := (List.range (used.length + 1)).map (fun j => ((Config.free32 i).toNat + j) % 2 ^ 32)
    have hnd : l.Nodup := by
      refine List.Nodup.map_on ?_ List.nodup_range
      intro a ha b hb hab
      simp only [List.mem_range] at ha hb
      have : a % 2 ^ 32 = b % 2 ^ 32 := Nat.ModEq.add_left_cancel' (Config.free32 i).toNat hab
      rwa [Nat.mod_eq_of_lt (by omega), Nat.mod_eq_of_lt (by omega)] at this
    have hsub : l ⊆ used := by
      intro x hx
      simp only [l, List.mem_map, List.mem_range] at hx
      obtain ⟨j, hj, rfl⟩ := hx
      rcases Nat.lt_or_ge j used.length with hlt | hge
      · exact hall j hlt
      · have : j = used.length := by omega
        exact this ▸ hmem
    have := (hnd.subperm hsub).length_le
    simp [l] at this

/-! ### Firmware slots (R594, R623) -/

theorem slotRead_getD (slot : List Byte) (o n i : Nat) (h : i < n) : (slotRead slot o n).getD i 0 = slot.getD (o + i) 0xFF := by
  simp only [slotRead, List.getD_eq_getElem?_getD]
  rcases Nat.lt_or_ge (o + i) slot.length with hl | hl
  · rw [List.getElem?_append_left (by simp; omega)]
    simp [h, List.getElem?_drop, List.getElem?_eq_getElem hl]
  · rw [List.getElem?_append_right (by simp; omega), List.getElem?_replicate, if_pos (by simp; omega),
      List.getElem?_eq_none hl]
    rfl

theorem slotRead_length (slot : List Byte) (o n : Nat) : (slotRead slot o n).length = n := by
  simp [slotRead]

/-- Trimming changes no byte that a slot reads. -/
theorem trimSlot_getD (bs : List Byte) (i : Nat) : (trimSlot bs).getD i 0xFF = bs.getD i 0xFF := by
  induction bs using List.reverseRecOn with
  | nil => rfl
  | append_singleton bs b ih =>
    by_cases h : b = 0xFF
    · subst h
      have ht : trimSlot (bs ++ [0xFF]) = trimSlot bs := by simp [trimSlot]
      rw [ht, ih]
      simp only [List.getD_eq_getElem?_getD]
      rcases Nat.lt_or_ge i bs.length with hl | hl
      · rw [List.getElem?_append_left hl]
      · rw [List.getElem?_append_right hl, List.getElem?_eq_none hl]
        rcases Nat.eq_zero_or_pos (i - bs.length) with hz | hz
        · simp [hz]
        · rw [List.getElem?_eq_none (by simp; omega)]
    · have ht : trimSlot (bs ++ [b]) = bs ++ [b] := by
        rw [trimSlot, List.reverse_append, List.reverse_singleton, List.singleton_append,
          List.dropWhile_cons_of_neg (by simpa using h)]
        simp
      rw [ht]

/-- What is written to a slot reads back. -/
theorem slotRead_slotWrite (slot : List Byte) (o : Nat) (bs : List Byte) : slotRead (slotWrite slot o bs) o bs.length = bs := by
  apply List.ext_getElem
  · exact slotRead_length _ _ _
  · intro i h1 h2
    have hb := slotRead_getD (slotWrite slot o bs) o bs.length i h2
    rw [slotWrite, trimSlot_getD] at hb
    have hl : (slotRead slot 0 o).length = o := slotRead_length _ _ _
    have h3 : (slotRead slot 0 o ++ bs ++ slot.drop (o + bs.length)).getD (o + i) 0xFF = bs[i] := by
      simp only [List.getD_eq_getElem?_getD]
      rw [List.append_assoc, List.getElem?_append_right (by omega), hl, List.getElem?_append_left (by omega)]
      simp [List.getElem?_eq_getElem h2]
    rw [h3, List.getD_eq_getElem?_getD, ← slotWrite, List.getElem?_eq_getElem h1] at hb
    exact hb

end Sys2Proof.Machine
end

