-- ==== Sys2Proof/Laws/Residue.lean ====
section
/-!
SUPPORT. Every write of an accumulator word or a vector lane leaves check bits that agree with it (R465).
-/
namespace Sys2Proof.Machine

theorem residueAgrees_fp (w : W32) : residueAgrees (residue32 w) w = true := by simp [residueAgrees]

theorem residueAgrees_int (w : W32) : residueAgrees (residueInt w) w = true := by simp [residueAgrees]

/-- Word i of an accumulator and its check bits agree. -/
def PhysCore.wordAgrees (p : PhysCore) (i : Nat) : Prop :=
  residueAgrees (Store.get zero3 p.accRes i) (Store.get zero32 p.acc i) = true

theorem PhysCore.putAcc_agrees (p : PhysCore) (i k : Nat) (w : W32) (h : p.wordAgrees k) : (p.putAcc i w (residue32 w)).wordAgrees k := by
  unfold PhysCore.wordAgrees PhysCore.putAcc at *
  by_cases e : i = k
  · subst e
    simp [residueAgrees_fp]
  · simpa [Store.get_set, e] using h

/-- A row that a vector, a load or an FP32 chain writes. -/
theorem PhysCore.setAcc_agrees (r : Nat) (ws : List W32) : ∀ (p : PhysCore) (c k : Nat), p.wordAgrees k → (p.setAcc r c ws).wordAgrees k := by
  induction ws with
  | nil => exact fun _ _ _ h => h
  | cons w ws ih => exact fun p c k h => ih _ _ _ (p.putAcc_agrees _ _ w h)

/-- Lane word i of the vector registers and its check bits agree. -/
def PhysCore.laneAgrees (p : PhysCore) (i : Nat) : Prop :=
  residueAgrees (Store.get zero3 p.vRes i) (Store.get zero32 p.v i) = true

/-- Lanes that any instruction writes. -/
theorem PhysCore.setLanes_agrees (i : BitVec 5) (ws : List W32) :
    ∀ (p : PhysCore) (l k : Nat), p.laneAgrees k → (p.setLanes i l ws).laneAgrees k := by
  induction ws with
  | nil => exact fun _ _ _ h => h
  | cons w ws ih =>
    intro p l k h
    refine ih _ _ _ ?_
    unfold PhysCore.laneAgrees at *
    by_cases e : 64 * i.toNat + l = k
    · subst e
      simp [residueAgrees_fp]
    · simpa [Store.get_set, e] using h

/-! ### A unit that works predicts what it forms (R466) -/

theorem mod7_toNat (a : Int) : (mod7 a).toNat = (a % 7).toNat := by
  have h : (a % 7).toNat < 8 := by omega
  simp [mod7, Nat.mod_eq_of_lt h]

/-- The prediction of a product from the residues of its factors. -/
theorem residueProduct_mod7 (a b : Int) : residueProduct (mod7 a) (mod7 b) = mod7 (a * b) := by
  have ha : ((a % 7).toNat : Int) = a % 7 := Int.toNat_of_nonneg (by omega)
  have hb : ((b % 7).toNat : Int) = b % 7 := Int.toNat_of_nonneg (by omega)
  unfold residueProduct
  rw [mod7_toNat, mod7_toNat]
  unfold mod7
  rw [ha, hb, ← Int.mul_emod]

theorem mod7_lin (a b x y : Int) : (a % 7 * x + b % 7 * y) % 7 = (a * x + b * y) % 7 := by
  simp [Int.add_emod, Int.mul_emod]

/-- That of an exact sum. -/
theorem residueSum_mod7 (a b : Int) (i j : Nat) : residueSum (mod7 a) (mod7 b) i j = mod7 (a * 2 ^ i + b * 2 ^ j) := by
  have ha : ((a % 7).toNat : Int) = a % 7 := Int.toNat_of_nonneg (by omega)
  have hb : ((b % 7).toNat : Int) = b % 7 := Int.toNat_of_nonneg (by omega)
  unfold residueSum
  rw [mod7_toNat, mod7_toNat]
  unfold mod7
  rw [ha, hb, mod7_lin]

/-- A chain stage, or a conversion, that rounds exactly what it sums passes its comparison. -/
theorem stageAgrees_exact (r d : Int) (t : Nat) : stageAgrees (mod7 r) (mod7 d) (mod7 (r * 2 ^ t + d)) t = true := by
  have hr : ((r % 7).toNat : Int) = r % 7 := Int.toNat_of_nonneg (by omega)
  have hd : ((d % 7).toNat : Int) = d % 7 := Int.toNat_of_nonneg (by omega)
  have h : (r % 7 * (2 ^ t % 7) + d % 7) % 7 = (r * 2 ^ t + d) % 7 := by
    rw [Int.add_emod, ← Int.mul_emod, Int.emod_emod_of_dvd d (Int.dvd_refl 7), ← Int.add_emod]
  unfold stageAgrees
  rw [mod7_toNat, mod7_toNat]
  unfold mod7
  rw [hr, hd, h]
  simp

end Sys2Proof.Machine
end

