-- ==== Sys2Proof/Laws/Train.lean ====
section
/-!
SUPPORT. What the passes and the reduce-scatter of a step leave of the step's state: what they hold, form and send changes, and nothing else.
-/
namespace Sys2Proof.Machine

/-- From `s` to `t` the step state changes in the passes to come, what they hold, the gradients that are final, the chunks sent and received,
and the sums of finished blocks, and in nothing else. -/
def PassFrame (s t : State) : Prop :=
  t.steps = { s.steps with passes := t.steps.passes, held := t.steps.held, heldStats := t.steps.heldStats, back := t.steps.back,
                           finalTiles := t.steps.finalTiles, finalNext := t.steps.finalNext, sentChunks := t.steps.sentChunks,
                           reduced := t.steps.reduced, blockSums := t.steps.blockSums }

theorem PassFrame.refl (s : State) : PassFrame s s := rfl

theorem PassFrame.of_steps {s t : State} (h : t.steps = s.steps) : PassFrame s t := by simp [PassFrame, h]

theorem PassFrame.trans {s t u : State} (h : PassFrame s t) (k : PassFrame t u) : PassFrame s u := by
  unfold PassFrame at *
  rw [k, h]

theorem foldl_frame {α : Type} (f : State → α → State) (hf : ∀ s a, PassFrame s (f s a)) (l : List α) :
    ∀ s, PassFrame s (l.foldl f s) := by
  induction l with
  | nil => exact PassFrame.refl
  | cons a l ih => exact fun s => (hf s a).trans (ih (f s a))

theorem foldl_steps {α : Type} (f : State → α → State) (hf : ∀ s a, (f s a).steps = s.steps) (l : List α) :
    ∀ s, (l.foldl f s).steps = s.steps := by
  induction l with
  | nil => exact fun _ => rfl
  | cons a l ih => exact fun s => (ih (f s a)).trans (hf s a)

theorem State.eachLive_steps (s : State) (f : Cru → Crucible → Crucible) : (s.eachLive f).steps = s.steps := by
  refine foldl_steps _ (fun s c => ?_) _ s
  split <;> rfl

/-! ### What a pass writes -/

theorem State.callKernel_steps (s : State) (v : PassEnv) (q : Kernel) (j l r : Nat) (c : Cru) : (s.callKernel v q j l r c).steps = s.steps := by
  unfold State.callKernel
  dsimp only
  split <;> rfl

theorem State.callKernels_steps (s : State) (v : PassEnv) (j : Nat) (b : Bool) : (s.callKernels v j b).steps = s.steps := by
  unfold State.callKernels
  split
  · rfl
  · exact foldl_steps _ (fun s c => foldl_steps _ (fun s r => State.callKernel_steps ..) _ s) _ s

theorem State.putRing_steps (s : State) (v : PassEnv) (t i j : Nat) (w : W32) : (s.putRing v t i j w).steps = s.steps := by
  unfold State.putRing
  split <;> rfl

theorem State.putOutput_steps (s : State) (v : PassEnv) (h : HeldTensor) : (s.putOutput v h).steps = s.steps := by
  unfold State.putOutput
  dsimp only
  split
  · exact foldl_steps _ (fun s i => foldl_steps _ (fun s j => State.putRing_steps ..) _ s) _ s
  · rfl

theorem State.putTile_steps (s : State) (v : PassEnv) (b : Bool) (tag : Nat) (h : HeldTensor) (k : Nat) :
    (s.putTile v b tag h k).steps = s.steps := by
  unfold State.putTile
  dsimp only
  split <;> rfl

theorem State.pin_steps (s : State) (v : PassEnv) (h : HeldTensor) : (s.pin v h).steps = s.steps := by
  unfold State.pin
  split
  · rfl
  · exact State.eachLive_steps ..

theorem State.putOut_steps (s : State) (v : PassEnv) (b : Bool) (j : Nat) (h : HeldTensor) : (s.putOut v b j h).steps = s.steps := by
  unfold State.putOut
  dsimp only
  refine (State.putOutput_steps ..).trans ?_
  split
  · exact State.pin_steps ..
  · exact foldl_steps _ (fun s k => State.putTile_steps ..) _ _

theorem State.putStats_steps (s : State) (v : PassEnv) (b : Bool) (h : HeldStats) : (s.putStats v b h).steps = s.steps := by
  unfold State.putStats
  refine foldl_steps _ (fun s c => ?_) _ _
  dsimp only
  generalize List.flatten _ = bs
  split <;> rfl

theorem State.putKept_steps (s : State) (v : PassEnv) (b : Bool) (st : List HeldStats) : (s.putKept v b st).steps = s.steps := by
  unfold State.putKept
  refine foldl_steps _ (fun s h => ?_) _ _
  split
  · exact State.putStats_steps ..
  · rfl

/-! ### The ring of stream attention -/

theorem State.ringAct_steps (s : State) (r : RingRun) (act : RingAct) : (s.ringAct r act).steps = s.steps := by
  unfold State.ringAct
  split
  case h_5 =>
    refine foldl_steps _ (fun s t => ?_) _ _
    rfl
  all_goals rfl

theorem State.runRing_steps (s : State) (v : PassEnv) (j k : Nat) (b : Cru → Nat → List Byte) (f : Nat → Nat → List Byte) :
    (s.runRing v j k b f).steps = s.steps := by
  unfold State.runRing
  dsimp only
  refine foldl_steps _ (fun s c => ?_) _ _
  split
  · exact foldl_steps _ (fun s a => State.ringAct_steps ..) _ _
  · rfl

theorem State.ringForward_steps (s : State) (v : PassEnv) (j : Nat) (q k w : Mat) : (s.ringForward v j q k w).steps = s.steps := by
  unfold State.ringForward
  exact State.runRing_steps ..

theorem State.ringQuery_steps (s : State) (v : PassEnv) (j : Nat) (q k w d : Mat) (st : List (List SoftRow)) :
    (s.ringQuery v j q k w d st).steps = s.steps := by
  unfold State.ringQuery
  exact State.runRing_steps ..

theorem State.ringKey_steps (s : State) (v : PassEnv) (j : Nat) (q k w d : Mat) (st : List (List SoftRow)) :
    (s.ringKey v j q k w d st).steps = s.steps := by
  unfold State.ringKey
  exact State.runRing_steps ..

theorem State.ringOp_steps (s : State) (v : PassEnv) (hs : List HeldTensor) (j : Nat) : (s.ringOp v hs j).steps = s.steps := by
  unfold State.ringOp
  dsimp only
  split
  · exact State.ringForward_steps ..
  · rfl

theorem State.runOps_steps (v : PassEnv) (b : Bool) (js : List Nat) :
    ∀ (s : State) (hs : List HeldTensor) (st : List HeldStats), (s.runOps v b hs st js).1.steps = s.steps := by
  induction js with
  | nil => exact fun _ _ _ => rfl
  | cons j js ih =>
    intro s hs st
    refine (ih _ _ _).trans ?_
    exact (State.putKept_steps ..).trans ((foldl_steps _ (fun s h => State.putOut_steps s v b j h) _ _).trans
      ((State.ringOp_steps ..).trans (State.callKernels_steps ..)))

theorem State.readWeights_steps (s : State) (v : PassEnv) (b : Bool) : (s.readWeights v b).steps = s.steps := State.eachLive_steps ..

theorem State.readRings_steps (s : State) (v : PassEnv) : (s.readRings v).steps = s.steps := by
  unfold State.readRings
  refine foldl_steps _ (fun s t => ?_) _ _
  dsimp only
  refine foldl_steps _ (fun s i => foldl_steps _ (fun s j => ?_) _ _) _ _
  split <;> rfl

/-- F(b) adds what the stage holds, and nothing else of the step state. -/
theorem State.forwardPass_frame (s : State) (v : PassEnv) : PassFrame s (s.forwardPass v) := by
  unfold State.forwardPass State.sendForward
  dsimp only
  split
  · simp only [PassFrame, State.runOps_steps, State.readRings_steps, State.readWeights_steps]
  · exact PassFrame.of_steps (by simp only [State.runOps_steps, State.readRings_steps, State.readWeights_steps])

/-! ### The backward pass -/

theorem State.putChains_frame (s : State) (v : PassEnv) (t : Nat) (cs : List Chain) : PassFrame s (s.putChains v t cs) := by
  unfold State.putChains
  have h : ∀ (l : List (List Chain × Nat)), (l.foldl (fun (s : State) (e : List Chain × Nat) =>
      let (c, j) := v.p.groupPlace (v.firstGroup t + e.2)
      if (s.crucible c).live then
        s.putCrucible c ((s.crucible c).hbmWriteAs (v.firstCore true)
          (some (passTag v.p.side true)) (s.region5 v.p c + pageSize * j) ((e.1.map (fun x => leBytes 4 x.sum.toNat)).flatten) (some v.step))
      else s) s).steps = s.steps := fun l => by
    refine foldl_steps _ (fun s e => ?_) l s
    dsimp only
    split <;> rfl
  simp only [PassFrame, h]

theorem Backward.contribute_frame (w : Backward) (v : PassEnv) (j t : Nat) (q : Part) (m : Mat) (k : Nat → Nat → W32 → W32) (b : Bool) :
    PassFrame w.s (w.contribute v j t q m k b).s := by
  unfold Backward.contribute
  dsimp only
  split
  · exact State.putChains_frame ..
  · split <;> exact PassFrame.refl _

theorem Backward.give_frame (w : Backward) (v : PassEnv) (j t : Nat) (q : Part) (m : Mat) : PassFrame w.s (w.give v j t q m).s :=
  Backward.contribute_frame ..

theorem Backward.foldl_frame {α : Type} (f : Backward → α → Backward) (hf : ∀ w a, PassFrame w.s (f w a).s) (l : List α) :
    ∀ w : Backward, PassFrame w.s (l.foldl f w).s := by
  induction l with
  | nil => exact fun _ => PassFrame.refl _
  | cons a l ih => exact fun w => (hf w a).trans (ih (f w a))

theorem Backward.products_frame (w : Backward) (v : PassEnv) (j : Nat) (p : OpRec) (y : Nat) (dy : Mat) :
    PassFrame w.s (w.products v j p y dy).s := by
  unfold Backward.products
  dsimp only
  have h : ∀ q m k b, PassFrame w.s (if p.inputGrad = true then w.contribute v j (p.ins.getD 0 0) q m k b else w).s := fun q m k b => by
    split
    · exact Backward.contribute_frame ..
    · exact PassFrame.refl _
  split
  · split
    · exact (h _ _ _ _).trans (State.putChains_frame ..)
    · exact h _ _ _ _
  · exact (h _ _ _ _).trans (Backward.give_frame ..)

theorem Backward.rows_frame (w : Backward) (v : PassEnv) (j : Nat) (p : OpRec) (y : Nat) (dy : Mat) :
    PassFrame w.s (w.rows v j p y dy).s := by
  unfold Backward.rows
  dsimp only
  split
  · exact Backward.give_frame ..
  · refine (Backward.foldl_frame _ (fun w k => ?_) _ w).trans (Backward.give_frame ..)
    split
    · exact Backward.give_frame ..
    · exact PassFrame.refl _

theorem Backward.lanes_frame (w : Backward) (v : PassEnv) (j : Nat) (p : OpRec) (y : Nat) (dy : Mat) :
    PassFrame w.s (w.lanes v j p y dy).s := by
  unfold Backward.lanes
  dsimp only
  split
  · exact (Backward.give_frame ..).trans (Backward.give_frame ..)
  · split
    · exact (Backward.give_frame ..).trans (Backward.give_frame ..)
    · split <;> exact Backward.give_frame ..

theorem Backward.attention_frame (w : Backward) (v : PassEnv) (j : Nat) (p : OpRec) (y : Nat) (dy : Mat) :
    PassFrame w.s (w.attention v j p y dy).s := by
  unfold Backward.attention
  dsimp only
  refine PassFrame.trans (PassFrame.of_steps ?_) (Backward.foldl_frame _ (fun w k => Backward.contribute_frame ..) _ _)
  dsimp only
  rw [State.ringKey_steps, State.ringQuery_steps]

theorem Backward.runOp_frame (v : PassEnv) (w : Backward) (j : Nat) : PassFrame w.s (Backward.runOp v w j).s := by
  unfold Backward.runOp
  dsimp only
  split
  · exact PassFrame.refl _
  · split
    · exact (PassFrame.of_steps (State.callKernels_steps ..)).trans
        (Backward.foldl_frame _ (fun w t => Backward.give_frame ..) _ _)
    · split
      · exact Backward.products_frame ..
      · split
        · exact Backward.attention_frame ..
        · split
          · exact Backward.rows_frame ..
          · exact Backward.lanes_frame ..

theorem State.setBack_frame (s : State) (r : Option BackRun) : PassFrame s (s.setBack r) := rfl

theorem State.beginBack_frame (s : State) (v : PassEnv) : PassFrame s (s.beginBack v) :=
  (PassFrame.of_steps (State.readWeights_steps ..)).trans (State.setBack_frame ..)

/-- Final tiles change the lists of final tiles and nothing else. -/
theorem Steps.addFinal_frame (t : Steps) (n : Nat) :
    t.addFinal n = { t with finalTiles := (t.addFinal n).finalTiles, finalNext := (t.addFinal n).finalNext } := by
  unfold Steps.addFinal
  split
  · split <;> rfl
  · split
    · split <;> rfl
    · rfl

theorem Steps.foldl_addFinal_frame (l : List Nat) : ∀ t : Steps,
    l.foldl Steps.addFinal t = { t with finalTiles := (l.foldl Steps.addFinal t).finalTiles, finalNext := (l.foldl Steps.addFinal t).finalNext } := by
  induction l with
  | nil => exact fun _ => rfl
  | cons n l ih =>
    intro t
    rw [List.foldl_cons, ih (t.addFinal n), Steps.addFinal_frame t n]

/-- B(b) drops what the stage held and notes final tiles, and changes nothing else of the step state. -/
theorem State.endBack_frame (s : State) (v : PassEnv) (g : List HeldTensor) : PassFrame s (s.endBack v g) := by
  unfold State.endBack State.sendBack State.setBack PassFrame
  dsimp only
  split
  · rw [Steps.foldl_addFinal_frame]
  · rfl

theorem State.advanceBack_frame (s : State) (v : PassEnv) (r : BackRun) : PassFrame s (s.advanceBack v r) := by
  unfold State.advanceBack
  split
  · exact PassFrame.trans (Backward.runOp_frame v ⟨s, s.steps.held ++ r.held, s.steps.heldStats ++ r.stats, r.grads⟩ _) (State.setBack_frame ..)
  · exact (PassFrame.of_steps (State.runOps_steps ..)).trans (State.setBack_frame ..)
  · exact State.endBack_frame ..

theorem State.goBack_frame (s : State) (v : PassEnv) (more : BackRun → Bool) : PassFrame s (s.goBack v more) := by
  unfold State.goBack
  refine foldl_frame _ (fun s n => ?_) _ _
  split
  · split
    · exact State.advanceBack_frame ..
    · exact PassFrame.refl _
  · exact PassFrame.refl _

theorem State.backwardPass_frame (s : State) (v : PassEnv) : PassFrame s (s.backwardPass v) :=
  (State.beginBack_frame ..).trans (State.goBack_frame ..)

/-! ### Passes in order -/

/-- A pass leaves the list of those to come. -/
theorem State.dropPass_frame (s : State) (q : Pass) :
    PassFrame s { s with steps := { s.steps with passes := s.steps.passes.erase q } } := rfl

/-- A pass. -/
theorem State.runPass_frame (s : State) (p : Placement) (n : Nat) (q : Pass) : PassFrame s (s.runPass p n q) := by
  unfold State.runPass
  dsimp only
  split
  · exact (State.dropPass_frame s q).trans (State.backwardPass_frame ..)
  · exact (State.dropPass_frame s q).trans (State.forwardPass_frame ..)

/-- All the passes left. -/
theorem State.endPasses_frame (s : State) : PassFrame s s.endPasses := by
  unfold State.endPasses
  split
  · exact (State.goBack_frame ..).trans (foldl_frame _ (fun s q => State.runPass_frame ..) _ _)
  · exact PassFrame.refl _

/-- What a tile's last term takes. -/
theorem State.finishTile_frame (s : State) (p : Placement) (n t : Nat) : PassFrame s (s.finishTile p n t) := by
  have h : ∀ u : State, PassFrame s u →
      PassFrame s (match ((u.passEnv p n (p.microBatches - 1)).places t).getLast? with
        | some j => u.goBack (u.passEnv p n (p.microBatches - 1)) (fun r => r.awaits j)
        | none => u) := fun u hu => by
    split
    · exact hu.trans (State.goBack_frame ..)
    · exact hu
  unfold State.finishTile
  dsimp only
  refine h _ ?_
  split
  · exact PassFrame.refl _
  · have k : PassFrame s ((s.steps.passes.filter (· != (⟨true, p.microBatches - 1⟩ : Pass))).foldl (fun s q => s.runPass p n q) s) :=
      foldl_frame _ (fun s q => State.runPass_frame s p n q) _ s
    split
    · exact k.trans ((State.dropPass_frame _ _).trans (State.beginBack_frame ..))
    · exact k

/-! ### The reduce-scatter -/

theorem State.sendChunk_frame (s : State) (p : Placement) (n : Nat) (c : Cru) (k : Nat) : PassFrame s (s.sendChunk p n c k) := by
  unfold State.sendChunk
  dsimp only
  split
  · rfl
  · split <;> rfl

theorem State.announceChunks_steps (s : State) (p : Placement) (c : Cru) (ks : List Nat) : (s.announceChunks p c ks).steps = s.steps := by
  unfold State.announceChunks
  dsimp only
  split <;> rfl

theorem State.sendChunks_frame (s : State) (p : Placement) (n : Nat) (go : Cru → Nat → Bool) : PassFrame s (s.sendChunks p n go) := by
  unfold State.sendChunks
  dsimp only
  refine foldl_frame _ (fun s c => ?_) _ _
  split
  · exact (foldl_frame _ (fun s k => State.sendChunk_frame ..) _ _).trans (PassFrame.of_steps (State.announceChunks_steps ..))
  · exact PassFrame.refl _

theorem State.takeChunk_frame (s : State) (p : Placement) (n : Nat) (y : ShardCopy) (c : Cru) (k : Nat) : PassFrame s (s.takeChunk p n y c k) := by
  unfold State.takeChunk
  dsimp only
  split <;> rfl

theorem State.takeChunks_frame (s : State) (p : Placement) (n : Nat) (come : Bool → Cru → Nat → Bool) : PassFrame s (s.takeChunks p n come) := by
  unfold State.takeChunks
  refine foldl_frame _ (fun s c => ?_) _ _
  split
  · refine foldl_frame _ (fun s y => foldl_frame _ (fun s k => ?_) _ _) _ _
    split
    · exact State.takeChunk_frame ..
    · exact PassFrame.refl _
  · exact PassFrame.refl _

theorem State.endReduce_frame (s : State) (p : Placement) (n : Nat) : PassFrame s (s.endReduce p n) :=
  (State.sendChunks_frame ..).trans (State.takeChunks_frame ..)

/-! ### The update -/

theorem State.updateShards_steps (s : State) (p : Placement) (h : Hyper) : (s.updateShards p h).steps = s.steps := by
  have hg : ∀ (n : Nat) (y : ShardCopy) (c : Cru) (s : State), (s.updateCopy p h n y c).steps = s.steps := fun n y c s => by
    unfold State.updateCopy
    split
    · exact foldl_steps (fun (s : State) j => s.updateGroup p h n y c j) (fun s j => rfl) _ s
    · rfl
  have hc : ∀ (ys : List ShardCopy) (c : Cru) (acc : State × Nat),
      ((ys.foldl (fun (acc : State × Nat) y => (acc.1.updateCopy p h acc.2 y c, acc.2 + p.copyGroups y c)) acc).1).steps = acc.1.steps := by
    intro ys c
    induction ys with
    | nil => exact fun _ => rfl
    | cons y ys ih => exact fun acc => (ih _).trans (hg ..)
  exact foldl_steps _ (fun s c => hc _ c (s, 0)) _ s

/-- The rest of phase 2, and phase 3, send and receive chunks, and leave the rest of the step state to the command that starts them. -/
theorem State.updateStep_frame (s : State) (p : Placement) (h : Hyper) : PassFrame s (s.updateStep p h) := by
  unfold State.updateStep
  dsimp only
  split
  · exact (State.endReduce_frame ..).trans (PassFrame.of_steps ((State.updateShards_steps ..).trans (State.eachLive_steps ..)))
  · exact PassFrame.refl _

end Sys2Proof.Machine
end

