-- ==== Sys2Proof/Machine/Lines.lean ====
section
/-!
DEFINITION. Lines that the state drives at every moment: a crucible's management-core interrupt and the output pins of J9 (R27, R585).
And where on the connectors each lane stands (R583, R584).
-/
namespace Sys2Proof.Machine

/-- The management-core interrupt of a crucible: asserted while a core's fault flag (R114) or numeric flag (R219), UE_PENDING (R330),
FORCED (R356), a bit of a port's FAB_EVENT (R394), STALE_NOTICE (R434) or RECORD_PENDING (R486) is set. -/
def Crucible.interrupt (x : Crucible) : Bool :=
  x.core.logi.any (fun (e : Nat × LogCore) => decide (e.1 < 500) && (e.2.faultFlag || e.2.numFlag)) ||
  x.hbm.status.getLsbD 5 || x.tally.status.getLsbD 3 ||
  x.ports.any (fun (e : Nat × Port) => decide (e.1 < 16) && e.2.event != 0) ||
  x.xport.status.getLsbD 7 || !x.res.records.isEmpty

/-- The module is degraded: a crucible has been taken out of service (R27, R312, R472, R556). -/
def State.degraded (s : State) : Bool :=
  [s.cru.c0, s.cru.c1, s.cru.c2, s.cru.c3].any (fun x => x.service == .outOfService)

/-- ALERT_N is low. -/
def State.alertLow (s : State) : Bool := s.power.event != 0

/-- PWR_GOOD is high: from the end of power-up until a power-down starts (R566, R568). -/
def State.powerGood (s : State) : Bool :=
  match s.power.mode with
  | .on | .enteringBanked | .banked | .waking => true
  | .standby | .poweringUp | .poweringDown => false

/-- THERM_TRIP_N is low: from a trip until PWR_EN has been low for 10 ms (R571, R585). -/
def State.thermTripLow (s : State) : Bool := s.power.tripped

/-- PRSNT_N is low: it is tied to return (R585). -/
def State.prsntLow (_ : State) : Bool := true

/-- FAULT_LED. -/
inductive Led where
  | off
  | on
  | blinking
  deriving DecidableEq, Repr

/-- What FAULT_LED shows. Where two of its conditions hold at once the spec gives no order: on comes first (log 123, DESIGN CHOICE). -/
def State.faultLed (s : State) : Led :=
  if s.degraded || s.thermTripLow then .on
  else if s.boot.mode == .recovery then .blinking
  else .off

/-! ### Pairs of the connectors (R387, R583, R584) -/

/-- The connector J and the pair of a lane of fabric port n (0 to 12) of crucible c; lane 8 is the spare. -/
def fabricPair (c : Cru) (n lane : Nat) (receiver : Bool) : Nat × Nat :=
  let d := if receiver then 1 else 0
  if n < 7 then (2 * c.val + 1, 18 * n + 2 * lane + d) else (2 * c.val + 2, 18 * (n - 7) + 2 * lane + d)

/-- The pair of J9 of a host lane (0 to 3) of a half: TX0 to TX3, then RX0 to RX3. -/
def hostPair (h : HalfIx) (lane : Nat) (receiver : Bool) : Nat := 8 * h.val + (if receiver then 4 else 0) + lane

end Sys2Proof.Machine
end

