-- ==== Sys2Proof/WellFormed.lean ====
section
/-!
DEFINITION. Commands that can arise: their lists and numbers fit what the spec gives them. The machine answers the others too; no
statement needs a command to be well-formed unless it says so.
-/
namespace Sys2Proof

/-- A queue pair's number has at most the four bytes of R453. -/
def qpOk (qp : Nat) : Bool := decide (qp < 2 ^ 32)

/-- A host command is a SEND of at most 4,096 bytes on a queue pair (R444, R445). -/
def CmdMsg.wf (m : CmdMsg) : Bool := qpOk m.qp && decide (m.body.length ≤ 4064)

/-- An RDMA access names a 64-bit offset (R442). -/
def RdmaReq.wf (r : RdmaReq) : Bool := qpOk r.qp && decide (r.offset < 2 ^ 64)

/-- A range lies in HBM (R46). -/
def rangeOk (off : BitVec 36) (data : List Byte) : Bool := decide (off.toNat + data.length ≤ 2 ^ 36)

/-- A control-space access is a word inside its 16 MiB (R54). -/
def wordOk (off : Nat) : Bool := decide (off < 2 ^ 24) && decide (off % 4 = 0)

/-- A sample reads four hot spots and eight stacks (R571). -/
def TempReading.wf (t : TempReading) : Bool := decide (t.die.length = 4) && decide (t.hbm.length = 8)

/-- A record's payload fits (R597). -/
def RecordReq.wf (r : RecordReq) : Bool := decide (r.payload.length ≤ 4032)

/-- A packet's payload can be counted in LEN (R397). -/
def Packet.wf (p : Packet) : Bool := decide (p.payload.length < 2 ^ 13)

/-- An address family (R437). -/
def familyOk (f : Nat) : Bool := f == 4 || f == 6

/-- The command's operands fit; a command not listed has none that could fail to. -/
def Instr.wf : Instr → Bool
  | .identify m | .subscribe m | .attest m | .bankCommand m | .wakeCommand m | .unknownOpcode m _ | .jobSet m | .setEpoch m
  | .setHealthMap m | .setXrack m | .takeOver m | .defineWindow m | .deleteWindow m | .defineRing m | .ringCredit m
  | .registerKernel m | .submitGraph m | .stepCommand m | .stopCommand m | .ingot m | .restore m | .ctrlRead m | .ctrlWrite m
  | .updateWrite m | .activate m => m.wf
  | .storageTarget m _ _ _ _ => m.wf
  | .rdmaWrite _ r => r.wf
  | .rdmaWriteWithImmediate _ r _ => r.wf
  | .rdmaRead _ r _ => r.wf
  | .dataQpSend _ qp => qpOk qp
  | .cnp _ qp => qpOk qp
  | .cnpRateIncrease _ qp => qpOk qp
  | .roceAck _ qp _ => qpOk qp
  | .roceAckTimeout _ qp => qpOk qp
  | .sendWithoutReceiveBuffer _ qp => qpOk qp
  | .hbmWrite _ _ off data _ => rangeOk off data
  | .riserWriteStall _ off w => rangeOk off w.data
  | .shadowWrite _ _ off _ => wordOk off
  | .registerWrite _ _ off _ => wordOk off
  | .packetWrite _ _ r | .packetRead _ _ r => r.packet.wf
  | .tallySignal _ _ p | .tallyTake _ _ p | .response _ _ p _ | .readData _ _ p _
  | .urgentAck _ _ p | .portLossNotice _ _ p | .portUpNotice _ _ p | .epochStale _ _ p | .stepReport _ _ p | .stepChecked _ _ p
  | .replayStep _ _ p | .drainedReport _ _ p | .resumeStep _ _ p => p.wf
  | .temperatureSample t => t.wf
  | .persistentRecord r => r.wf
  | .icmpEcho _ f _ _ => familyOk f
  | .cmReq _ r => familyOk r.family
  | _ => true

end Sys2Proof
end

