-- ==== Sys2Proof/Tests/Slice0.lean ====
section
/-!
SUPPORT. Tests: values worked out by hand from the spec's words, an ill-formed command for each check of WellFormed, and for each
statement with hypotheses a state and operands that meet them.
-/
set_option Elab.async false

namespace Sys2Proof.Machine.Tests

/-! ### Small states -/

def k0 : CoreId := ⟨0, 0⟩
def crucibleUp : Crucible := { Crucible.reset with service := .inService }

/-- Every part of the module is up. -/
def moduleUp : State :=
  { State.reset with
    cru := Quad.all crucibleUp
    power := { Power.reset with mode := .on, off := false }
    boot := { Boot.reset with image := some ⟨0, 1, 0, 1, [], 0, []⟩, loaded := true, otp := [] }
    store := { StoreBlock.reset with ready := true } }

def withCru (x : Crucible) : State := moduleUp.putCrucible 0 x
def onCore (p : PhysCore) (g : LogCore) : State := withCru ((crucibleUp.putPhys 0 p).putLog 0 g)
def running : LogCore := { LogCore.reset with mode := .running }
def core (p : PhysCore) : State := onCore p running

/-- The state a command leaves. -/
def after (i : Instr) (s : State) : State :=
  match exec i s with
  | .next t => t
  | _ => s

def regs : PhysCore := ((PhysCore.reset.setS 1 0xFFFFFFFFFFFFFFFF).setS 2 2).setA 1 0xFFFF8
def endOfStore : PhysCore := { regs with pc := 8191 }

def sOf (i : Instr) (p : PhysCore) (r : BitVec 5) : W64 := ((after i (core p)).phys k0).sreg r
def faultOf (i : Instr) (p : PhysCore) : Byte × W32 :=
  (((after i (core p)).logi k0).fault.cause, ((after i (core p)).logi k0).fault.detail)

theorem ready_met : (core regs).ready k0 := ⟨by unfold State.issues; decide, by decide⟩

/-! ### Well-formed commands -/

def fr : Frame := ⟨0, none, false⟩
def msg (body : List Byte) : CmdMsg := ⟨fr, 7, 0, 1, BitVec.ofNat 32 (32 + body.length), 0, 0, 0, 0, body⟩
def pkt : Packet := ⟨0x01, 0, false, false, false, false, 0, 0, 0, 0, 0, 0, 0, 0, 0, 0, 0, 0, false, []⟩

theorem test_wf_message : (Instr.identify (msg [])).wf = true ∧ (Instr.identify (msg (List.replicate 4065 0))).wf = false ∧
    (Instr.identify { msg [] with qp := 2 ^ 32 }).wf = false := by decide +kernel
theorem test_wf_rdma : (Instr.rdmaWrite fr ⟨1, 0, 2 ^ 64, []⟩).wf = false := by decide
theorem test_wf_queue_pair : (Instr.cnp fr (2 ^ 32)).wf = false := by decide
theorem test_wf_range : (Instr.hbmWrite 0 .mgmt 0xFFFFFFFFF [1, 2] []).wf = false := by decide
theorem test_wf_word : (Instr.registerWrite .mgmt (.crucible 0) 2 0).wf = false ∧
    (Instr.registerWrite .mgmt (.crucible 0) (2 ^ 24) 0).wf = false := by decide
theorem test_wf_packet : (Instr.packetWrite 0 0 ⟨{ pkt with payload := List.replicate 8192 0 }, false⟩).wf = false := by decide +kernel
theorem test_wf_sample : (Instr.temperatureSample ⟨[1, 2, 3], List.replicate 8 0, 0⟩).wf = false := by decide
theorem test_wf_record : (Instr.persistentRecord ⟨0, 1, 0, 1, List.replicate 4033 0⟩).wf = false := by decide +kernel
theorem test_wf_family : (Instr.icmpEcho fr 5 0 []).wf = false ∧ (Instr.cmReq fr ⟨1, 5, 0, 1024, 0, 0⟩).wf = false := by decide

/-! ### The queue of commands -/

theorem test_step_takes_the_front : step { moduleUp with pending := [.statusWord, .clearFaults] } =
    exec .statusWord { moduleUp with pending := [.clearFaults] } := by rfl
theorem test_no_row_has_bits : decodeTableWord 8 0 = none := rfl

/-! ### Scalar instructions (R62, R127 to R130) -/

theorem test_register_file_met : (1 : BitVec 5) ≠ 0 ∧ (2 : BitVec 5) ≠ 1 ∧ (List.replicate 64 (1 : W32)).length = 64 := by decide
theorem test_add_wraps : sOf (.add k0 ⟨3, 1, 2, 0, 0⟩) regs 3 = 1 := by decide
theorem test_write_to_s0_is_discarded : sOf (.add k0 ⟨0, 1, 2, 0, 0⟩) regs 0 = 0 := by decide
theorem test_sub_order : sOf (.sub k0 ⟨3, 2, 1, 0, 0⟩) regs 3 = 3 := by decide
theorem test_logic : sOf (.andB k0 ⟨3, 1, 2, 0, 0⟩) regs 3 = 2 ∧ sOf (.orB k0 ⟨3, 0, 2, 0, 0⟩) regs 3 = 2 ∧
    sOf (.xorB k0 ⟨3, 1, 2, 0, 0⟩) regs 3 = 0xFFFFFFFFFFFFFFFD := by decide
theorem test_shifts : sOf (.sll k0 ⟨3, 2, 2, 0, 0⟩) regs 3 = 8 ∧ sOf (.srl k0 ⟨3, 1, 2, 0, 0⟩) regs 3 = 0x3FFFFFFFFFFFFFFF ∧
    sOf (.sra k0 ⟨3, 1, 2, 0, 0⟩) regs 3 = 0xFFFFFFFFFFFFFFFF := by decide
theorem test_shift_uses_six_bits : sOf (.sll k0 ⟨3, 2, 1, 0, 0⟩) regs 3 = 0 ∧ sOf (.srl k0 ⟨3, 1, 1, 0, 0⟩) regs 3 = 1 := by decide
theorem test_products : sOf (.mul k0 ⟨3, 1, 2, 0, 0⟩) regs 3 = 0xFFFFFFFFFFFFFFFE ∧ sOf (.mulhu k0 ⟨3, 1, 2, 0, 0⟩) regs 3 = 1 := by
  decide
theorem test_compares : sOf (.slt k0 ⟨3, 1, 2, 0, 0⟩) regs 3 = 1 ∧ sOf (.sltu k0 ⟨3, 1, 2, 0, 0⟩) regs 3 = 0 ∧
    sOf (.seq k0 ⟨3, 1, 1, 0, 0⟩) regs 3 = 1 := by decide
theorem test_immediates : sOf (.addi k0 ⟨3, 2, 0, 0, 0xFFFFFFFF⟩) regs 3 = 1 ∧ sOf (.andi k0 ⟨3, 1, 0, 0, 0xFFFFFFF0⟩) regs 3 =
    0xFFFFFFFFFFFFFFF0 ∧ sOf (.ori k0 ⟨3, 0, 0, 0, 0x80000000⟩) regs 3 = 0xFFFFFFFF80000000 ∧
    sOf (.xori k0 ⟨3, 1, 0, 0, 1⟩) regs 3 = 0xFFFFFFFFFFFFFFFE := by decide
theorem test_immediate_shifts : sOf (.slli k0 ⟨3, 2, 0, 0, 63⟩) regs 3 = 0 ∧ sOf (.srli k0 ⟨3, 1, 0, 0, 63⟩) regs 3 = 1 ∧
    sOf (.srai k0 ⟨3, 1, 0, 0, 63⟩) regs 3 = 0xFFFFFFFFFFFFFFFF := by decide
/-- R127's example: li s1, 0x00510000 followed by lih s1, s1, 0x00400020 leaves s1 = 0x0040002000510000. -/
theorem test_li_lih : ((after (.lih k0 ⟨1, 1, 0, 0, 0x00400020⟩) (after (.li k0 ⟨1, 0, 0, 0, 0x00510000⟩) (core regs))).phys k0).sreg 1 =
    0x0040002000510000 := by decide
theorem test_moves : ((after (.movAs k0 ⟨15, 1, 0, 0, 0⟩) (core regs)).phys k0).areg 15 = 0xFFFFFFFFFFFF ∧
    sOf (.movSa k0 ⟨3, 1, 0, 0, 0⟩) regs 3 = 0xFFFF8 := by decide
theorem test_address_sums_wrap : ((after (.aaddi k0 ⟨1, 1, 0, 0, 0xFFF00007⟩) (core regs)).phys k0).areg 1 = 0xFFFFFFFFFFFF ∧
    ((after (.aadd k0 ⟨2, 1, 1, 0, 0⟩) (core regs)).phys k0).areg 2 = 0xFFFF7 := by decide
theorem test_reserved_bit_is_illegal : faultOf (.add k0 ⟨3, 1, 2, 0, 1⟩) regs = (0x01, 1) ∧
    faultOf (.slli k0 ⟨3, 1, 0, 0, 64⟩) regs = (0x01, 64) := by decide
/-- R469, R470: the first mismatch is counted and the sum written, the second halts the core with no write and asks for retirement. -/
theorem test_first_scalar_mismatch :
    ((after (.add k0 ⟨3, 1, 2, 0, 0⟩ true) (core regs)).phys k0).sreg 3 = 1 ∧
    ((after (.add k0 ⟨3, 1, 2, 0, 0⟩ true) (core regs)).logi k0).mismatches = 1 ∧
    ((after (.add k0 ⟨3, 1, 2, 0, 0⟩ true) (core regs)).crucible 0).res.records.map (fun r => (r.type, r.unit)) = [(1, 6)] := by
  decide +kernel
theorem test_second_scalar_mismatch :
    let t := after (.add k0 ⟨3, 1, 2, 0, 0⟩ true) (onCore regs { running with mismatches := 1 })
    (t.phys k0).sreg 3 = 0 ∧ (t.logi k0).mode = .halted ∧ (t.logi k0).mismatches = 2 ∧
    (t.logi k0).retireDue = some ⟨0x0E, 0, false, 0, 0⟩ ∧ (t.crucible 0).res.records.map (fun r => (r.type, r.unit)) = [(3, 6)] := by
  decide +kernel
theorem test_scalar_mismatch_met : ((after (.add k0 ⟨3, 1, 2, 0, 0⟩) (core regs)).logi k0).progCore ≠ (running.progCore) ∧
    ((after (.add k0 ⟨3, 1, 2, 0, 1⟩) (core regs)).logi k0).progCore = (running.progCore) := by decide +kernel
theorem test_last_step_is_pc_range : faultOf (.add k0 ⟨3, 1, 2, 0, 0⟩) endOfStore = (0x02, 8192) := by decide

/-- The bytes 0x80 to 0x87 at 0xFFFF8. -/
def filled : PhysCore := regs.writeScratch 0xFFFF8 [0x80, 0x81, 0x82, 0x83, 0x84, 0x85, 0x86, 0x87]
theorem test_loads_zero_extend : sOf (.ldU8 k0 ⟨3, 1, 0, 0⟩) filled 3 = 0x80 ∧ sOf (.ldU16 k0 ⟨3, 1, 0, 2⟩) filled 3 = 0x8382 ∧
    sOf (.ldU32 k0 ⟨3, 1, 0, 4⟩) filled 3 = 0x87868584 ∧ sOf (.ld64 k0 ⟨3, 1, 0, 0⟩) filled 3 = 0x8786858483828180 := by decide
theorem test_loads_sign_extend : sOf (.ldS8 k0 ⟨3, 1, 0, 0⟩) filled 3 = 0xFFFFFFFFFFFFFF80 ∧
    sOf (.ldS16 k0 ⟨3, 1, 0, 0⟩) filled 3 = 0xFFFFFFFFFFFF8180 ∧ sOf (.ldS32 k0 ⟨3, 1, 0, 0⟩) filled 3 = 0xFFFFFFFF83828180 := by decide
theorem test_load_address : ((after (.ldA k0 ⟨3, 1, 0, 0⟩) (core filled)).phys k0).areg 3 = 0x858483828180 := by decide
def storedBy (i : Instr) : List Byte := Memory.readBytes ((after i (core filled)).phys k0).scratch 0xFFFF8 8
theorem test_stores : storedBy (.st8 k0 ⟨2, 1, 0, 1⟩) = [0x80, 2, 0x82, 0x83, 0x84, 0x85, 0x86, 0x87] ∧
    storedBy (.st16 k0 ⟨2, 1, 0, 0⟩) = [2, 0, 0x82, 0x83, 0x84, 0x85, 0x86, 0x87] ∧
    storedBy (.st32 k0 ⟨1, 1, 0, 4⟩) = [0x80, 0x81, 0x82, 0x83, 0xFF, 0xFF, 0xFF, 0xFF] := by decide
theorem test_store_words : storedBy (.st64 k0 ⟨2, 1, 0, 0⟩) = [2, 0, 0, 0, 0, 0, 0, 0] ∧
    storedBy (.stA k0 ⟨1, 1, 0, 0⟩) = [0xF8, 0xFF, 0x0F, 0, 0, 0, 0, 0] := by decide
theorem test_scratch_faults : faultOf (.ld64 k0 ⟨3, 1, 0, 8⟩) regs = (0x03, 0x100000) ∧ faultOf (.st16 k0 ⟨2, 1, 0, 1⟩) regs = (0x03, 0xFFFF9) ∧
    faultOf (.ldU8 k0 ⟨3, 16, 0, 0⟩) regs = (0x01, 0) := by decide
/-- The byte 0x80 with a parity bit of an even number of ones: the re-read fails too (R468, R470). -/
def unlike : PhysCore := { filled with parity := [] }
theorem test_parity_error : filled.parityAgrees 0xFFFF8 8 = true ∧ unlike.parityAgrees 0xFFFF8 1 = false ∧
    ((after (.ldU8 k0 ⟨3, 1, 0, 0⟩) (core unlike)).phys k0) = unlike ∧
    ((after (.ldU8 k0 ⟨3, 1, 0, 0⟩) (core unlike)).logi k0).mode = .halted ∧
    ((after (.ldU8 k0 ⟨3, 1, 0, 0⟩) (core unlike)).logi k0).retireDue = some ⟨0x0E, 0, false, 0, 0⟩ ∧
    ((after (.st8 k0 ⟨2, 1, 0, 0⟩) (core unlike)).phys k0).parityAgrees 0xFFFF8 1 = true := by decide +kernel
theorem test_loads_and_stores_met : (core regs).issues k0 ∧ (regs.areg 1 + (0 : W32).signExtend 48).toNat = 0xFFFF8 ∧
    regs.seqNext < 8192 := by unfold State.issues; decide

def pcOf (i : Instr) (p : PhysCore) : BitVec 13 := ((after i (core p)).phys k0).pc
theorem test_branches : pcOf (.beq k0 ⟨1, 1, 0, 9⟩) regs = 9 ∧ pcOf (.bne k0 ⟨1, 1, 0, 9⟩) regs = 1 ∧ pcOf (.blt k0 ⟨1, 2, 0, 9⟩) regs = 9 ∧
    pcOf (.bge k0 ⟨1, 2, 0, 9⟩) regs = 1 ∧ pcOf (.bltu k0 ⟨1, 2, 0, 9⟩) regs = 1 ∧ pcOf (.bgeu k0 ⟨1, 2, 0, 9⟩) regs = 9 := by decide
theorem test_jumps : pcOf (.jmp k0 ⟨0, 0, 0, 8191⟩) regs = 8191 ∧ pcOf (.jal k0 ⟨3, 0, 0, 9⟩) regs = 9 ∧ sOf (.jal k0 ⟨3, 0, 0, 9⟩) regs 3 = 1 ∧
    pcOf (.jr k0 ⟨2, 0, 0, 0⟩) regs = 2 := by decide
theorem test_bdnz : pcOf (.bdnz k0 ⟨2, 0, 0, 9⟩) regs = 9 ∧ sOf (.bdnz k0 ⟨2, 0, 0, 9⟩) regs 2 = 1 ∧
    pcOf (.bdnz k0 ⟨2, 0, 0, 9⟩) (regs.setS 2 1) = 1 := by decide
theorem test_branch_faults : faultOf (.jr k0 ⟨1, 0, 0, 0⟩) regs = (0x02, 0xFFFFFFFF) ∧ faultOf (.beq k0 ⟨1, 1, 0, 8192⟩) regs = (0x02, 8192) ∧
    faultOf (.bne k0 ⟨1, 1, 0, 8192⟩) regs = (0, 0) ∧ faultOf (.jmp k0 ⟨1, 0, 0, 0⟩) regs = (0x01, 0) := by decide

def tileReg : PhysCore := (regs.setT 2 0x33334444555566667777888899990000).setS 4 0xABCD
def tOf (i : Instr) (p : PhysCore) : W128 := ((after i (core p)).phys k0).treg 2
theorem test_descriptors : tOf (.tset k0 ⟨2, 2, 1, 0⟩) tileReg = 0xFFFFFFFFFFFFFFFF0000000000000002 ∧
    tOf (.tbase k0 ⟨2, 1, 0, 0⟩) tileReg = 0x333344445555666677778888999FFFF8 ∧
    tOf (.trows k0 ⟨2, 4, 0, 0⟩) tileReg = 0x33334444555566667777ABCD99990000 := by decide
theorem test_descriptor_halves : sOf (.tgetLo k0 ⟨2, 3, 0, 0⟩) tileReg 3 = 0x7777888899990000 ∧
    sOf (.tgetHi k0 ⟨2, 3, 0, 0⟩) tileReg 3 = 0x3333444455556666 := by decide
theorem test_descriptor_faults : faultOf (.trows k0 ⟨2, 4, 0, 0⟩) (tileReg.setS 4 65536) = (0x06, 65536) ∧
    faultOf (.tbase k0 ⟨2, 1, 0, 0⟩) (tileReg.setA 1 0x100000) = (0x03, 0x100000) ∧ faultOf (.tset k0 ⟨16, 0, 0, 0⟩) tileReg = (0x01, 0) := by
  decide

/-! ### Tally words (R131, R334 to R339) -/

/-- Word 5 with CAPACITY 2 and COUNT 1; word 6 with COUNT 2. -/
def tallies : PhysCore := (regs.setTally 5 0x0002000100000007).setTally 6 0x0002000200000007
def wordOf (i : Instr) (n : Nat) : W64 := ((after i (core tallies)).phys k0).tallyWord n
theorem test_tally_words : wordOf (.tlySignal k0 ⟨5, 0, 0, 0⟩) 5 = 0x0002000200000007 ∧ wordOf (.tlyTake k0 ⟨5, 0, 0, 0⟩) 5 = 0x0002000000000007 ∧
    wordOf (.tlyWait k0 ⟨6, 0, 0, 0⟩) 6 = 0x0002000100000007 ∧ wordOf (.tlyInit k0 ⟨6, 2, 0, 3⟩) 6 = 0x0003000000000002 := by decide
theorem test_tally_read : sOf (.tlyRead k0 ⟨6, 3, 0, 0⟩) tallies 3 = 0x0002000200000007 := by decide
theorem test_tally_faults : faultOf (.tlySignal k0 ⟨6, 0, 0, 0⟩) tallies = (0x08, 6) ∧ faultOf (.tlyTake k0 ⟨7, 0, 0, 0⟩) tallies = (0x09, 7) ∧
    faultOf (.tlyTake k0 ⟨48, 0, 0, 0⟩) tallies = (0x07, 48) ∧ faultOf (.tlyTake k0 ⟨63, 0, 0, 0⟩) tallies = (0x01, 0) := by decide
theorem test_wait_blocks : ((after (.tlyWait k0 ⟨7, 0, 0, 0⟩) (core tallies)).logi k0).waiting = some (.tally 7) ∧
    pcOf (.tlyWait k0 ⟨7, 0, 0, 0⟩) tallies = 0 := by decide
theorem test_tally_instructions_met : tallyTarget (core tallies |>.crucible 0).tally ((core tallies).logi k0) 5 = some 5 ∧
    tallyCount (tallies.tallyWord 5) < tallyCap (tallies.tallyWord 5) ∧ tallyCount (tallies.tallyWord 5) ≠ 0 ∧
    tallyTarget (core tallies |>.crucible 0).tally ((core tallies).logi k0) 47 = some 47 ∧ tallyCount (tallies.tallyWord 47) = 0 := by decide
def waiting (w : Waiting) : LogCore := { running with waiting := some w }
theorem test_wait_takes_signal : ((after (.waitTakesSignal k0) (onCore tallies (waiting (.tally 5)))).phys k0).tallyWord 5 =
    0x0002000000000007 ∧ ((after (.waitTakesSignal k0) (onCore tallies (waiting (.tally 5)))).logi k0).waiting = none := by decide
theorem test_tally_fields : tallyCount (0x8102FFFF00000007 : W64) = 65535 ∧ tallyCap (0x8102FFFF00000007 : W64) = 2 ∧
    tallyFull (0x8102FFFF00000007 : W64) = true := by decide

/-! ### Fence, step and system instructions -/

def stepCore : PhysCore := { regs with step := 7, seq := 3, cyc := 9 }
theorem test_step_loads_and_zeroes : ((after (.stepStart ⟨k0, false⟩ ⟨2, 0, 0⟩) (core stepCore)).phys k0).step = 2 ∧
    ((after (.stepStart ⟨k0, false⟩ ⟨2, 0, 0⟩) (core stepCore)).phys k0).seq = 0 := by decide
/-- R471: the step instruction that is repeated leaves the count of mismatches at 0. -/
theorem test_step_start_mismatch : ((after (.stepStart ⟨k0, true⟩ ⟨2, 0, 0⟩) (core stepCore)).logi k0).mismatches = 0 ∧
    ((after (.stepStart ⟨k0, true⟩ ⟨2, 0, 0⟩) (core stepCore)).phys k0).step = 2 ∧
    ((after (.stepStart ⟨k0, true⟩ ⟨2, 0, 0⟩) (core stepCore)).crucible 0).res.records.map (fun r => (r.type, r.unit)) = [(1, 6)] := by
  decide +kernel
theorem test_reads_of_the_core : sOf (.rdStep k0 ⟨3, 0, 0⟩) stepCore 3 = 7 ∧ sOf (.rdSeq k0 ⟨3, 0, 0⟩) stepCore 3 = 3 ∧
    sOf (.rdId k0 ⟨3, 0, 0⟩) stepCore 3 = 0 := by decide
theorem test_rd_id_places : ((after (.rdId ⟨2, 5⟩ ⟨3, 0, 0⟩) (moduleUp.putCrucible 2 (crucibleUp.putLog 5 running))).phys ⟨2, 5⟩).sreg 3 =
    0x20005 := by decide
def busy : PhysCore := { regs with vq := [⟨0xA8, 0, 0, 0, none, 3, 1, 2, 0, false, 0, 0, .queued⟩] }
theorem test_fence_and_system_met : stepCore.queuesDone = true ∧ ((core stepCore).crucible 0).packetsResolved 0 = true ∧
    busy.queuesDone = false ∧ ¬(busy.tq = [] ∧ busy.vq = [] ∧ busy.xq = []) ∧ stepCore.seq < 2 ^ 32 := by decide
theorem test_fence_waits : ((after (.fence k0 ⟨0, 0, 0, 0⟩) (core busy)).logi k0).waiting = some .fence ∧
    ((after (.stepStart ⟨k0, false⟩ ⟨2, 0, 0⟩) (core busy)).logi k0).waiting = some (.stepStart 2) := by decide
theorem test_releases : ((after (.fenceRelease k0) (onCore regs (waiting .fence))).phys k0).pc = 1 ∧
    ((after (.stepStartProceeds ⟨k0, false⟩) (onCore stepCore (waiting (.stepStart 8)))).phys k0).step = 8 := by decide
theorem test_halt_keeps_pc : ((after (.haltCore k0 ⟨0, 0, 0⟩) (core { regs with pc := 9 })).phys k0).pc = 9 ∧
    ((after (.haltCore k0 ⟨0, 0, 0⟩) (core regs)).logi k0).mode = .halted ∧
    ((after (.haltCore k0 ⟨0, 0, 0⟩) (core busy)).logi k0).mode = .halting := by decide
theorem test_trap_and_illegal : faultOf (.trap k0 ⟨0, 0, 0xBEEF⟩) regs = (0x0F, 0xBEEF) ∧
    faultOf (.illegalInstruction k0 0xFF00000012345678) regs = (0x01, 0x12345678) := by decide
theorem test_halt_trap_illegal_met : illegalWord 0xFF00000012345678 = true ∧ illegalWord 0 = illegalWord 0 := by decide

/-! ### The queues of a core -/

/-- A descriptor of a tile: BASE, FORMAT, ROWS, COLS, STRIDE (R77). -/
def tile (base fmt rows cols stride : Nat) : W128 :=
  BitVec.ofNat 128 (base + fmt * 2 ^ 20 + rows * 2 ^ 32 + cols * 2 ^ 48 + stride * 2 ^ 64)

/-- INT8 weights of 2 rows and 2 columns at 0, an INT8 operand row at 16, a destination at 64; a set of that shape was loaded last. -/
def matCore : PhysCore :=
  { ((((regs.writeScratch 0 [1, 2, 3, 0xFF]).writeScratch 16 [5, 6]).setT 0 (tile 0 0 2 2 2)).setT 1 (tile 16 0 1 2 2)).setT 2 (tile 64 7 1 2 8) with
    lastLoad := ⟨1, 2, 2, 0, 0⟩ }
def qt (ta : BitVec 5) (flags : Byte) : FmtQT := ⟨63, ta, 0, 0, flags, 0, 0⟩
def floats (n : Nat) : PhysCore :=
  { matCore with t := [(1, tile 16 n 1 2 (2 * (formatBits (BitVec.ofNat 4 n) / 8)))], lastLoad := ⟨1, 2, 2, BitVec.ofNat 4 n, 0⟩ }
def tqOf (i : Instr) (p : PhysCore) : List (TensorOp × Nat) := ((after i (core p)).phys k0).tq.map (fun e => (e.op, e.loadId))
theorem test_tensor_queue : tqOf (.tldW k0 (qt 0 0)) matCore = [(.load, 2)] ∧ tqOf (.tmacI8 k0 (qt 1 0x80)) matCore = [(.mac .i8, 1)] ∧
    tqOf (.tdrain k0 (qt 2 0)) matCore = [(.drain, 1)] := by decide
theorem test_tensor_formats : tqOf (.tmacF8 k0 (qt 1 0)) (floats 1) = [(.mac .f8, 1)] ∧ tqOf (.tmacBf16 k0 (qt 1 0)) (floats 5) = [(.mac .bf16, 1)] ∧
    tqOf (.tmacF16 k0 (qt 1 0)) (floats 6) = [(.mac .f16, 1)] ∧ tqOf (.tmacF32 k0 (qt 1 0)) (floats 7) = [(.mac .f32, 1)] := by decide
theorem test_tensor_instructions_met : badDesc (tile 0 0 2 2 2) = false ∧ badDesc (tile 64 7 1 2 8) = false ∧ descEmpty (tile 0 0 2 2 2) = false ∧
    badAux (tile 0 0 2 2 2) = false ∧ descAuxBase (tile 0 0 2 2 2) + auxBytes (tile 0 0 2 2 2) ≤ 0x100000 ∧ logicalCols (tile 16 0 1 2 2) = matCore.lastLoad.k ∧
    macX .i8 0 = true ∧ macW .i8 0 0 = true ∧ drainIllegal (qt 2 0) (tile 64 7 1 2 8) = false ∧
    tallyFieldFault ((core matCore).crucible 0).tally ((core matCore).logi k0) 63 = none := by decide
def tensor (op : TensorOp) (ta : BitVec 5) (phase : Phase) (flags : Byte) : TensorEntry :=
  ⟨op, 0, 0, 0, none, matCore.treg ta, 0, flags, 0, 1, phase, 0, [], []⟩
def fullTensor : PhysCore := { matCore with tq := List.replicate 16 (tensor .drain 2 .queued 0) }
theorem test_full_queue_waits : ((after (.tdrain k0 (qt 2 0)) (core fullTensor)).logi k0).waiting.isSome = true ∧
    ((after (.tdrain k0 (qt 2 0)) (core fullTensor)).phys k0).tq.length = 16 := by decide
theorem test_fault_order : faultOf (.tmacI8 k0 ⟨50, 1, 0, 0, 0, 1, 0⟩) matCore = (0x01, 0x20000) ∧
    faultOf (.tmacI8 k0 ⟨50, 1, 0, 0, 0, 0, 0⟩) { matCore with pc := 8191 } = (0x07, 50) ∧
    faultOf (.tmacI8 k0 ⟨63, 3, 0, 0, 0, 0, 0⟩) { matCore with pc := 8191 } = (0x02, 8192) ∧
    faultOf (.tmacI8 k0 ⟨63, 1, 1, 0, 0, 0, 0⟩) matCore = (0x04, 0xFFFFFFFF) ∧
    faultOf (.tmacI8 k0 ⟨63, 1, 0, 0, 0, 0, 0⟩) { matCore with seq := 2 ^ 32 } = (0x06, 0) := by decide
theorem test_bad_descriptor_fault : faultOf (.tmacI8 k0 ⟨63, 5, 0, 0, 0, 0, 0⟩) (matCore.setT 5 (tile 0 10 1 1 1)) = (0x05, 5) ∧
    badDesc (tile 0 10 1 1 1) = true := by decide

def qv (vd va vb vc : BitVec 5) (imm : BitVec 20) : FmtQV := ⟨63, vd, va, vb, vc, 0, 0, imm⟩
def vqOf (i : Instr) (p : PhysCore) : List (Byte × Nat) := ((after i (core p)).phys k0).vq.map (fun e => (e.op, e.at_))
theorem test_vector_queue : vqOf (.vaccRd k0 (qv 3 0 0 0 1023)) regs = [] ∧ vqOf (.vaccRd k0 (qv 3 0 0 0 511)) regs = [(0xA0, 511)] ∧
    vqOf (.vldF32 k0 (qv 3 0 0 0 256)) regs = [(0x90, 256)] ∧ vqOf (.vstI8 k0 (qv 0 0 0 3 64)) regs = [(0x9D, 64)] := by decide
theorem test_vector_alignment : faultOf (.vldF32 k0 (qv 3 0 0 0 128)) regs = (0x03, 128) ∧ faultOf (.vldBf16 k0 (qv 3 0 0 0 128)) regs = (0, 0) := by
  decide
theorem test_vector_instructions_met : (regs.sreg 0 + (511 : BitVec 20).setWidth 64).toNat ≤ 511 ∧
    (regs.areg 0 + (256 : BitVec 20).setWidth 48).toNat % 256 = 0 ∧ regs.seq < 2 ^ 32 := by decide

/-- s5 is the length 4, a2 and a3 are 0x100 and 0x200. -/
def copyCore : PhysCore := (((regs.setS 5 4).setA 2 0x100).setA 3 0x200)
def qx (rlen raux : BitVec 5) : FmtQX := ⟨63, 0, 2, 0, 3, rlen, raux, 1, 1, 0, 0⟩
def xqOf (i : Instr) (p : PhysCore) : List (XferOp × Nat × Phase) :=
  ((after i (core p)).phys k0).xq.map (fun e => (e.op, e.len, e.phase))
theorem test_transfer_queue : xqOf (.xcopy k0 (qx 5 0)) copyCore = [(.copy, 4, .queued)] ∧
    xqOf (.xcopy k0 (qx 0 0)) copyCore = [(.copy, 0, .complete)] ∧ xqOf (.xcopy2d k0 (qx 5 0)) copyCore = [(.copy2d, 4, .complete)] := by decide
theorem test_tally_transfers : xqOf (.xtlySignal k0 ⟨63, 0, 0, 0, 4, 0, 0, 0, 1, 0, 0⟩) (copyCore.setA 4 0x200008) = [(.signal, 0, .queued)] ∧
    faultOf (.xtlySignal k0 ⟨63, 0, 0, 0, 3, 0, 0, 0, 1, 0, 0⟩) copyCore = (0x0A, 0x200) := by decide
theorem test_transfer_instructions_met :
    ((core copyCore).crucible 0).addrFault k0 ⟨.copy, 0, 0, 0, none, .own 0x100, .own 0x200, 1, 4, 0, 0, 0, false, .queued, 0, 0, 0, 0, [], false, false⟩ = none ∧
    copyCore.xq.length < 64 ∧ copyCore.seq < 2 ^ 32 := by decide
theorem test_queue_space_issue :
    ((after (.queueSpaceIssue k0) (onCore matCore (waiting (.tensor (tensor .drain 2 .queued 0))))).phys k0).tq.length = 1 ∧
    ((after (.queueSpaceIssue k0) (onCore matCore (waiting (.tensor (tensor .drain 2 .queued 0))))).phys k0).seq = 1 := by decide

/-! ### The queues at work -/

def loadQueued : PhysCore := { matCore with tq := [tensor .load 0 .queued 0] }
theorem test_weight_load : ((after (.weightLoadStart ⟨k0, none, none⟩) (core loadQueued)).phys k0).standby.cells =
    [(0, 1), (1, 2), (64, 3), (65, 0xFF)] ∧ ((after (.weightLoadStart ⟨k0, none, none⟩) (core loadQueued)).phys k0).standbyFull = true := by decide
/-- R161: a row stored between two accesses of a load is loaded with its new values if its access comes later. R468: a failing access. -/
theorem test_weight_load_in_parts :
    let t := after (.weightLoadStart ⟨k0, some 1, none⟩) (core loadQueued)
    let u := after (.weightLoadStart ⟨k0, none, none⟩) (t.putCrucible 0 ((t.crucible 0).modPhys 0 (fun p => p.writeScratch 0 [9, 9, 9, 9])))
    (t.phys k0).standbyFull = false ∧ (u.phys k0).standby.cells = [(0, 1), (1, 2), (64, 9), (65, 9)] ∧
    ((after (.weightLoadStart ⟨k0, some 0, some 5⟩) (core loadQueued)).logi k0).mismatches = 1 := by decide +kernel
/-- A row in the chain whose accumulator words did not agree with their check bits. -/
def spoiled : TensorEntry := { tensor (.mac .i8) 1 .running 0 with chain := [⟨[(23, 0), (4, 0)], false⟩] }
def weights : WeightSet := ⟨1, 2, 2, 0, 0, [(0, 1), (1, 2), (64, 3), (65, 0xFF)], [(0, 1), (1, 2), (64, 3), (65, 6)]⟩
def macQueued : PhysCore := { matCore with tq := [tensor (.mac .i8) 1 .queued 0x80], standby := weights, standbyFull := true }
theorem test_stream_start : ((after (.tmacStreamStart k0) (core macQueued)).phys k0).active = weights ∧
    ((after (.tmacStreamStart k0) (core macQueued)).phys k0).standbyFull = false := by decide
theorem test_weight_load_and_stream_met :
    findEntry (fun e => e.isLoad && e.open_) [] loadQueued.tq = some ([], tensor .load 0 .queued 0) ∧
    descAuxMode (tensor .load 0 .queued 0).desc = 0 ∧ loadAccesses (tile 0 0 2 2 2) = 2 ∧
    (∀ i, i < 2 → loadQueued.loadAgrees (tile 0 0 2 2 2) (loadAccess (tile 0 0 2 2 2) i) = true) ∧
    findEntry (fun e => e.isMac && e.phase == .queued) [] macQueued.tq = some ([], tensor (.mac .i8) 1 .queued 0x80) ∧
    macQueued.standby.id = (tensor (.mac .i8) 1 .queued 0x80).loadId := by decide
/-- The row (5, 6) times the weights (1, 2), (3, -1), without the accumulator: 5 + 18 and 10 - 6 (R156, R192). -/
def macRunning : PhysCore := { (matCore.setAcc 0 0 [100, 100]) with tq := [tensor (.mac .i8) 1 .running 0x80], active := weights }
theorem test_row_entry : ((after (.rowEntry k0 .whole) (core macRunning)).phys k0).accWord 0 0 = 23 ∧
    ((after (.rowEntry k0 .whole) (core macRunning)).phys k0).accWord 0 1 = 4 := by decide
theorem test_row_entry_accumulates :
    ((after (.rowEntry k0 .whole) (core { macRunning with tq := [tensor (.mac .i8) 1 .running 0] })).phys k0).accWord 0 0 = 123 := by decide
theorem test_first_mismatch : ((after (.rowEntry k0 (.fail 2)) (core macRunning)).logi k0).mismatches = 1 ∧
    ((after (.rowEntry k0 (.fail 2)) (core macRunning)).phys k0).accWord 0 0 = 100 := by decide
theorem test_row_entry_met : findEntry (fun e => e.isMac && e.phase == .running) [] macRunning.tq =
    some ([], tensor (.mac .i8) 1 .running 0x80) ∧ rowHeld [] 0 = false ∧ 0 < logicalRows (tile 16 0 1 2 2) ∧
    macRunning.operandAgrees (tile 16 0 1 2 2) 0 = true ∧ macRunning.rowAgrees (.i8) (tensor (.mac .i8) 1 .running 0) (operandRow macRunning.scratch (tile 16 0 1 2 2) 0) 0 = true ∧
    { macRunning with active := { macRunning.active with res := [(0, 6)] } }.rowAgrees (.i8) (tensor (.mac .i8) 1 .running 0) (operandRow macRunning.scratch (tile 16 0 1 2 2) 0) 0 = false ∧
    macRunning.accAgrees 0 2 = true ∧ macRunning.active.n = 2 ∧
    { macRunning with parity := [] }.operandAgrees (tile 16 0 1 2 2) 0 = true ∧
    { macRunning with parity := [(16, true)] }.operandAgrees (tile 16 0 1 2 2) 0 = false := by decide +kernel
/-- R164, R171: what enters the chain was read then, and is what is written; a store between the two is lost. A row that fails is not written. -/
def entered : State := after (.rowEntry k0 .enter) (core { macRunning with tq := [tensor (.mac .i8) 1 .running 0] })
theorem test_row_in_the_chain :
    let late := entered.putCrucible 0 ((entered.crucible 0).modPhys 0 (fun p => p.setAcc 0 0 [7, 7]))
    (entered.phys k0).accWord 0 0 = 100 ∧ ((after (.rowEntry k0 .write) late).phys k0).accWord 0 0 = 123 ∧
    (entered.phys k0).tq.map (fun e => e.chain.map ChainRow.agreed) = [[true]] ∧
    ((after (.rowEntry k0 .write) (core { macRunning with tq := [spoiled] })).logi k0).mismatches = 1 ∧
    ((after (.rowEntry k0 .whole) (core { macRunning with parity := [(16, true)] })).logi k0).mismatches = 1 := by decide +kernel
/-- 1.0 and 2.0 drained to FP32 at 64. -/
def drainQueued : PhysCore := { (matCore.setAcc 0 0 [0x3F800000, 0x40000000]) with tq := [tensor .drain 2 .queued 0] }
theorem test_drain : Memory.readBytes ((after (.drainStart k0 none) (core drainQueued)).phys k0).scratch 64 8 = [0, 0, 0x80, 0x3F, 0, 0, 0, 0x40] := by
  decide +kernel
theorem test_drain_met : findEntry (fun e => e.isDrain && e.open_) [] drainQueued.tq = some ([], tensor .drain 2 .queued 0) ∧
    descCols (tile 64 7 1 2 8) * (formatBits 7 / 8) ≤ descStride (tile 64 7 1 2 8) ∧
    drainQueued.drainAgrees (tensor .drain 2 .queued 0) 0 = true := by decide +kernel

def vec (op : Byte) : VectorEntry := ⟨op, 0, 0, 0, none, 3, 1, 2, 0, false, 0, 0x40000000, .queued⟩
/-- Lanes 0 and 1 of v1 are 3.0 and -1.0, those of v2 are 1.0 and 2.0; accumulator row 0 starts with 5. -/
def lanes (op : Byte) : PhysCore :=
  { (((regs.setLanes 1 0 [0x40400000, 0xBF800000]).setLanes 2 0 [0x3F800000, 0x40000000]).setAcc 0 0 [5]) with vq := [vec op] }
def laneOf (op : Byte) (i : Nat) : W32 := ((after (.vectorOpStart k0 none) (core (lanes op))).phys k0).lane 3 i
theorem test_vector_sums : laneOf 0xA8 0 = 0x40800000 ∧ laneOf 0xA9 0 = 0x40000000 ∧ laneOf 0xAA 1 = 0xC0000000 := by decide +kernel
theorem test_vector_choices : laneOf 0xAC 1 = 0x40000000 ∧ laneOf 0xAD 1 = 0xBF800000 ∧ laneOf 0xAE 1 = 0x3F800000 ∧ laneOf 0xAF 1 = 0x3F800000 := by
  decide +kernel
theorem test_vector_rows : laneOf 0xB8 5 = 0x40400000 ∧ laneOf 0xB9 0 = 0x40000000 ∧ laneOf 0xBA 63 = 0x40400000 := by decide +kernel
theorem test_vector_moves : laneOf 0xA0 0 = 5 ∧ laneOf 0xA2 63 = 0x40000000 := by decide +kernel
theorem test_vector_results_met : nextVector 0 (lanes 0xA8).vq = some (0, vec 0xA8) ∧ (lanes 0xA8).vq.length = 1 ∧
    (vec 0xA8).storedFail (lanes 0xA8) = none ∧ (vec 0xA8).storedFail { lanes 0xA8 with vRes := [(64, 5)] } = some 2 ∧
    ((after (.vectorOpStart k0 none) (core { lanes 0xA8 with vRes := [(64, 5)] })).logi k0).mismatches = 1 := by decide +kernel
def storing (op : Byte) : PhysCore := { lanes op with vq := [{ vec op with vc := 1, at_ := 0 }] }
def storedVec (op : Byte) (n : Nat) : List Byte :=
  Memory.readBytes ((after (.vectorOpStart k0 none) (core (storing op))).phys k0).scratch 0 n
theorem test_vector_stores : storedVec 0x98 4 = [0, 0, 0x40, 0x40] ∧ storedVec 0x99 2 = [0x40, 0x40] ∧ storedVec 0x9D 2 = [3, 0xFF] := by
  decide +kernel
theorem test_vector_store_to_accumulator : ((after (.vectorOpStart k0 none) (core (storing 0xA1))).phys k0).accWord 0 0 = 0x40400000 := by
  decide +kernel

def done (phase : Phase) : PhysCore := { tallies with vq := [{ vec 0xA8 with tally := some 5, phase := phase }] }
theorem test_completion_signal : ((after (.completionSignal k0 .vector 0) (core (done .complete))).phys k0).tallyWord 5 = 0x0002000200000007 ∧
    ((after (.completionSignal k0 .vector 0) (core (done .complete))).phys k0).vq = [] ∧
    ((after (.heldSignalApplied k0 .vector 0) (core (done .held))).phys k0).tallyWord 5 = 0x0002000200000007 := by decide
def blocked : PhysCore := { tallies with vq := [{ vec 0xA8 with tally := some 6, phase := .complete }] }
theorem test_signal_at_capacity : ((after (.completionSignal k0 .vector 0) (core blocked)).phys k0).tallyWord 6 = 0x8002000200000007 ∧
    ((after (.completionSignal k0 .vector 0) (core blocked)).phys k0).vq.map VectorEntry.phase = [.held] := by decide
/-- A signal of the tensor queue and one of the vector queue are held at one word: the tensor queue's comes first (R132). -/
def twoHeld : PhysCore := { done .held with tq := [{ tensor .drain 2 .held 0 with tally := some 5 }] }
theorem test_completion_signals_met : (done .complete).vq[0]? = some { vec 0xA8 with tally := some 5, phase := .complete } ∧
    tallyCap (tallies.tallyWord 6) ≤ tallyCount (tallies.tallyWord 6) ∧ (done .complete).firstHeld 5 = none ∧
    (done .held).firstHeld 5 = some (.vector, 0) ∧ twoHeld.firstHeld 5 = some (.tensor, 0) ∧
    (after (.heldSignalApplied k0 .vector 0) (core twoHeld)).phys k0 = twoHeld := by decide +kernel
def localCopy : XferEntry := ⟨.copy, 0, 0, 0, none, .own 0xFFFF8, .own 0, 1, 4, 0, 0, 0, false, .queued, 0, 0, 0, 0, [], false, false⟩
theorem test_local_copy :
    Memory.readBytes ((after (.transferStart k0 none) (core { filled with xq := [localCopy] })).phys k0).scratch 0 5 = [0x80, 0x81, 0x82, 0x83, 0] ∧
    ((after (.transferStart k0 none) (core { filled with xq := [localCopy] })).phys k0).xq.map XferEntry.phase = [.complete] := by decide +kernel
theorem test_local_copy_met : nextXfer [localCopy] = some localCopy ∧ (∀ f ∈ [localCopy], f.seq = localCopy.seq → f = localCopy) := by decide


/-! ### Packets -/

/-- This module is 10, at slot 2 of rack 1; module 7 stands at slot 3. -/
def job : JobSet := ⟨[(7, ⟨true, 1, 3⟩), (10, ⟨true, 1, 2⟩)], 5, 9, true, 1, 2, 10⟩
def portUp (n : Nat) : Port := { Port.reset n with mode := .up, active := 0x00FF }
/-- A crucible of this job with port 0 Up, and what else its transport layer holds. -/
def fabric (p : Port) (f : Xport → Xport) : Crucible :=
  { crucibleUp with ports := [(0, p)], xport := f { Xport.reset with job := Staged.reset job } }
def net (f : Xport → Xport) : State := withCru (fabric (portUp 0) f)
/-- A packet of crucible 0 of module 7 for this crucible. -/
def from7 (kind : Byte) (cls : BitVec 2) (psn aux : W32) (addr : W64) (data : List Byte) : Packet :=
  { pkt with kind := kind, cls := cls, epoch := 9, jobTag := 5, dstLoc := 0x42, srcLoc := 0x43, src := 7, psn := psn, aux := aux,
             addr := addr, payload := data, len := BitVec.ofNat 13 data.length }
def core0 (off : Nat) : W64 := BitVec.ofNat 64 (2 ^ 48 + off)

def stray : Packet := { from7 0x01 1 0 0 (core0 0) [1] with jobTag := 6 }
theorem test_discard : (net id).reaches 0 0 (packetTarget stray 0) = true ∧ ((net id).crucible 0).xport.job.live.check stray = .discard 3 ∧
    Store.get zero32 ((after (.packetWrite 0 0 ⟨stray, false⟩) (net id)).crucible 0).xport.count 3 = 1 ∧
    Store.get zero32 (((after (.packetWrite 0 0 ⟨stray, false⟩) (net id)).crucible 0).port 0).count 6 = 1 := by decide

def wrote : State := after (.packetWrite 0 0 ⟨from7 0x01 1 0 0 (core0 0) [9, 8], false⟩) (net id)
theorem test_write_applies_once : Passes (net id) 0 0 (from7 0x01 1 0 0 (core0 0) [9, 8]) ∧
    ((net id).crucible 0).refuses 0 = false ∧ (((net id).crucible 0).xport.conn 28).found 0 = none ∧
    Memory.readBytes (wrote.phys k0).scratch 0 3 = [9, 8, 0] ∧
    ((wrote.crucible 0).xport.conn 28).found 0 = some ⟨0, 0, 0⟩ ∧
    Memory.readBytes ((after (.packetWrite 0 0 ⟨from7 0x01 1 0 0 (core0 0) [7, 7], false⟩) wrote).phys k0).scratch 0 2 = [9, 8] := by
  unfold Passes PassesAt; decide +kernel
def full : State := { net id with cru := (net id).cru.set 0 (((net id).crucible 0).modPhys 0 (fun q => q.setTally 0 0x0001000100000000)) }
theorem test_signal_at_a_full_word :
    ((after (.tallySignal 0 0 (from7 0x03 1 0 0 (core0 0x200000) [])) full).phys k0).tallyWord 0 = 0x8001000100000000 ∧
    ((after (.tallyTake 0 0 (from7 0x04 1 0 0 (core0 0x200000) [])) full).phys k0).tallyWord 0 = 0x0001000000000000 := by decide +kernel
theorem test_read_is_answered : ((after (.packetRead 0 0 ⟨from7 0x02 1 0 2 (core0 0) [], false⟩) (net id)).crucible 0).xport.conns.length = 1 := by
  decide +kernel

/-- A packet of core 0's transfer, sent and not answered. -/
def open_ (kind : Byte) (landing : Landing) : Pkt :=
  ⟨3, some ⟨0, 0, 0⟩, kind, false, 7, 0, 1, 3, 0, core0 0x200000, none, none, [7], landing, [], true, 0, false, 0, 0, 6, 0, [], false,
    false, false, 4, false, false, false, 0, 0⟩
def moving (src dst : Side) : XferEntry := ⟨.copy, 0, 0, 4, none, src, dst, 1, 2, 0, 0, 0, false, .running, 0, 1, 1, 0, [], false, false⟩
def sender (q : Pkt) (p : Port) : State :=
  withCru (((fabric p (fun t => { t with pkts := [q] })).putPhys 0
    { regs with xq := [moving (.global (core0 0)) (.own 0x10)] }).putLog 0 running)
def answer (kind : Byte) (status : W32) (data : List Byte) : Packet := from7 kind 2 0 status 0 data
theorem test_responses_met : Passes (sender (open_ 0x01 .none) (portUp 0)) 0 0 (answer 0x10 0 []) ∧
    ((sender (open_ 0x01 .none) (portUp 0)).crucible 0).answeredBy (answer 0x10 0 []) = some (open_ 0x01 .none) ∧
    ((sender (open_ 0x02 (.piece (.own 0x10))) (portUp 0)).crucible 0).answeredBy (answer 0x11 0 [5, 6]) =
      some (open_ 0x02 (.piece (.own 0x10))) ∧
    ((sender (open_ 0x01 .none) (portUp 0)).crucible 0).findXfer ⟨0, 0, 0⟩ = some (moving (.global (core0 0)) (.own 0x10)) := by
  unfold Passes PassesAt; decide
theorem test_response_resolves :
    ((after (.response 0 0 (answer 0x10 0 []) 0) (sender (open_ 0x01 .none) (portUp 0))).crucible 0).findPkt 3 = none := by decide
/-- The same response arrives at crucible 1 and crosses the bridge to its requester. -/
def apart : State :=
  let s := sender (open_ 0x01 .none) (portUp 0)
  { s with cru := s.cru.set 1 { crucibleUp with ports := [(0, portUp 0), (15, portUp 15)] } }
theorem test_response_crosses_a_bridge : PassesAt apart 1 0 0 (answer 0x10 0 []) ∧
    ((after (.response 1 0 (answer 0x10 0 []) 0) apart).crucible 0).findPkt 3 = none ∧
    ((after (.response 1 0 (answer 0x10 0 []) 1) apart).crucible 0).findPkt 3 ≠ none := by unfold PassesAt; decide
theorem test_refused_signal_faults :
    ((after (.response 0 0 (answer 0x10 1 []) 0) (sender (open_ 0x03 .none) (portUp 0))).logi k0).fault = ⟨0x0D, srcRemote, false, 4, 0⟩ := by
  decide
theorem test_read_data_lands : Memory.readBytes ((after (.readData 0 0 (answer 0x11 0 [5, 6]) 0)
    (sender (open_ 0x02 (.piece (.own 0x10))) (portUp 0))).phys k0).scratch 0x10 2 = [5, 6] := by decide +kernel

def waitingPkt : Pkt := { open_ 0x01 .none with sent := false, addr := 0x0071000000000000, payload := [1, 2] }
def ready_ : Port := { portUp 0 with credit := [(1, 9)] }
theorem test_inject : ((sender waitingPkt ready_).crucible 0).choosePort 0 [7] 0 1 none = some 0 ∧
    ((sender waitingPkt ready_).crucible 0).xport.fits waitingPkt = true ∧
    (((sender waitingPkt ready_).crucible 0).stamp waitingPkt 0).1.xport.tokens
      ((((sender waitingPkt ready_).crucible 0).stamp waitingPkt 0).1.requestPacket 0
        (((sender waitingPkt ready_).crucible 0).stamp waitingPkt 0).2) = true ∧
    (after (.packetInject 0 3 0) (sender waitingPkt ready_)).out.length = 1 ∧
    (((after (.packetInject 0 3 0) (sender waitingPkt ready_)).crucible 0).xport.conn 28).nextPsn = 1 := by decide +kernel
def lost (n : Nat) : Pkt := { open_ 0x01 .none with expiries := n }
theorem test_seventh_expiry_faults :
    ((after (.resendTimeout 0 3 0) (sender (lost 6) ready_)).logi k0).fault = ⟨0x0C, srcXfer, false, 4, 7⟩ ∧
    ((sender (lost 6) ready_).logi k0).mode = .running := by decide
theorem test_expiry_without_a_port : ((sender (lost 5) (Port.reset 0)).crucible 0).resendPort 0 (lost 5) 7 = none ∧
    ((after (.resendTimeout 0 3 0) (sender (lost 5) (Port.reset 0))).crucible 0).findPkt 3 = some { lost 6 with due := [7] } := by decide
def stuck : Port := { portUp 0 with waits := [⟨1, from7 0x01 1 0 0 0 [], false⟩] }
/-- R412: the same packet, with its PSN, leaves again, and the expiry is counted. -/
theorem test_resend : ((sender (lost 0) ready_).crucible 0).resendPort 0 (lost 0) 7 = some 0 ∧
    ((sender (lost 0) ready_).crucible 0).xport.tokens (((sender (lost 0) ready_).crucible 0).resendPacket 0 (lost 0) 7) = true ∧
    ((after (.resendTimeout 0 3 0) (sender (lost 0) ready_)).crucible 0).findPkt 3 = some { lost 1 with resent := true } ∧
    (after (.resendTimeout 0 3 0) (sender (lost 0) ready_)).out.length = 1 := by decide +kernel
theorem test_quiet_and_escape :
    ((after (.resendQuietEnd 0 3) (sender { lost 1 with resent := true, answered := true } ready_)).crucible 0).findPkt 3 = none ∧
    ((sender (lost 0) stuck).crucible 0).port 0 = stuck ∧ stuck.stuck = some ⟨1, from7 0x01 1 0 0 0 [], false⟩ ∧
    (((after (.escapeTimeout 0 0) (sender (lost 0) stuck)).crucible 0).port 0).waits =
      [⟨2, { from7 0x01 1 0 0 0 [] with escape := true }, false⟩] := by decide +kernel

def urgentMsg (type psn : W32) (data : List Byte) : Packet := from7 0x20 0 psn type 0 data
def held8 (n : Nat) : Urgent := ⟨5, 7, 0, 0x43, 1, [], 2, true, n⟩
def urgents (n : Nat) : State := net (fun t => { t with urgents := [held8 n] })
theorem test_urgent_ack : Passes (urgents 0) 0 0 (from7 0x21 0 2 1 0 []) ∧
    ((after (.urgentAck 0 0 (from7 0x21 0 2 1 0 [])) (urgents 0)).crucible 0).xport.urgents = [] := by unfold Passes PassesAt; decide +kernel
theorem test_urgent_resend : ((after (.urgentResend 0 5) (urgents 7)).crucible 0).xport.urgents = [held8 8] ∧
    ((after (.urgentResend 0 5) (urgents 8)).crucible 0).xport.urgents = [] := by decide +kernel
/-- PORT_DOWN and PORT_UP of plane 2 of module 7. -/
def downMsg : State := after (.portLossNotice 0 0 (urgentMsg 1 1 [7, 0, 2])) (net id)
theorem test_plane_bits : News (net id) 1 0 0 (urgentMsg 1 1 [7, 0, 2]) ∧
    Store.get planeDefault (downMsg.crucible 0).xport.plane 7 = 0xFFFFFFFFFFFFB ∧
    News (net id) 2 0 0 (urgentMsg 2 1 [7, 0, 2]) ∧
    Store.get planeDefault ((after (.portUpNotice 0 0 (urgentMsg 2 1 [7, 0, 2])) downMsg).crucible 0).xport.plane 7 = 0xFFFFFFFFFFFFF ∧
    (downMsg.crucible 0).xport.isNews (urgentMsg 1 1 [7, 0, 2]) = false := by unfold News Passes PassesAt; decide +kernel

/-! ### Steps -/

def stepping (f : Steps → Steps) : State := { net id with steps := f { Steps.reset with mode := .running, queue := [⟨0, 4, 0⟩], queuedEnd := 4 } }
def stepData (step result hold gen : Byte) : List Byte := [step, 0, 0, 0, 0, 0, result, hold, 1, 0, 0, 0, gen, 0]
def stepMsg (type : W32) (data : List Byte) : Packet := urgentMsg type 1 data
def drainedBarrier : Barrier := ⟨0, 1, false, false, true, false⟩
theorem test_step_messages_met : News (stepping id) 0x08 0 0 (stepMsg 8 (stepData 0 0 0 0)) ∧
    (stepping id).steps.isOld 0 0 = false ∧ (stepping (fun t => { t with oldest := 1 })).steps.isOld 0 0 = true ∧
    News (stepping id) 0x09 0 0 (stepMsg 9 (stepData 0 0 0 0)) ∧ News (stepping id) 0x0A 0 0 (stepMsg 10 (stepData 0 0 0 1)) ∧
    News (stepping id) 0x0B 0 0 (stepMsg 11 (stepData 0 0 0 0)) ∧ News (stepping id) 0x0C 0 0 (stepMsg 12 (stepData 0 0 0 1)) ∧
    News (stepping id) 3 0 0 (stepMsg 3 [10, 0]) ∧ olderEpoch 10 9 = true ∧ olderEpoch 9 10 = false ∧ olderEpoch 8 9 = false := by
  unfold News Passes PassesAt; decide
theorem test_clean_report_is_kept :
    (after (.stepReport 0 0 (stepMsg 8 (stepData 0 0 0 0))) (stepping id)).steps.children = [⟨7, 0, 0, 1⟩] := by decide +kernel
theorem test_checked_step : (after (.stepChecked 0 0 (stepMsg 9 (stepData 0 0 0 0))) (stepping id)).steps.oldest = 1 ∧
    (after (.stepChecked 0 0 (stepMsg 9 (stepData 0 0 0 0))) (stepping id)).steps.checkedValid = true := by decide +kernel
theorem test_replay_opens_a_barrier : (after (.replayStep 0 0 (stepMsg 10 (stepData 0 0 0 1))) (stepping id)).steps.mode = .replaying ∧
    ((after (.replayStep 0 0 (stepMsg 10 (stepData 0 0 0 1))) (stepping id)).steps.barrier.map Barrier.drained) = some false := by
  decide +kernel
theorem test_drained_and_resume :
    (after (.drainedReport 0 0 (stepMsg 11 (stepData 0 0 0 0))) (stepping id)).steps.drained.length = 1 ∧
    (after (.resumeStep 0 0 (stepMsg 12 (stepData 0 0 0 1))) (stepping (fun t => { t with mode := .replaying, gen := 1, barrier := some drainedBarrier }))).steps.barrier =
      none := by decide +kernel
theorem test_epoch_stale : olderEpoch (BitVec.ofNat 16 (leField [10, 0] 0 2)) 9 = true ∧
    (after (.epochStale 0 0 (stepMsg 3 [10, 0])) (stepping id)).steps.mode = .fenced ∧
    ((after (.epochStale 0 0 (stepMsg 3 [8, 0])) (stepping id)).crucible 0).xport.status.getLsbD 7 = true := by decide +kernel
def holding : State := stepping (fun t => { t with mode := .replaying, barrier := some ⟨0, 1, true, false, false, false⟩ })
theorem test_held_barrier_met : holding.drainedNow = true := by decide +kernel
theorem test_held_barrier :
    (after .drainQuietEnd { holding with cru := Quad.all { crucibleUp with service := .outOfService } }).steps.mode = .held := by decide +kernel

def place (body : List Byte) : Placement := ⟨[], body, 0, 1, 1, 1, 0, true, [1, 0, 0, 0], [0, 0, 0, 0], [7, 10], 1, [], [0], false, 0, [], [], [], [], 0, [], 0, []⟩
def phased (p : StepPhase) : State :=
  { stepping (fun t => { t with phase := p, next := if p = .waiting then 0 else 1 }) with
    tundish := { Tundish.reset with placement := some (place (List.replicate 40 0 ++ [0, 0, 0x66, 0x3F])) } }
def armed (s : State) : State := { s with cru := ⟨(s.crucible 0).armRiser 0, (s.crucible 1).armRiser 0, (s.crucible 2).armRiser 0,
  (s.crucible 3).armRiser 0⟩ }
theorem test_phases : (stepping id).mayCompute = true ∧ (after .computePhaseStart (stepping id)).steps.phase = .compute ∧
    (after .computePhaseStart (stepping id)).steps.next = 1 ∧ (phased .reported).mayCompute = true ∧
    (after .computePhaseStart (phased .reported)).steps.phaseNext = .compute ∧ (phased .compute).mayCompute = false := by decide
/-- One operator, LINEAR, of a trainable BF16 weight of 64 × 128: two tiles. -/
def oneOp : List Byte :=
  List.replicate 16 0 ++ leBytes 4 1 ++ leBytes 4 1 ++ List.replicate 136 0 ++
    [5, 1, 2, 0] ++ leBytes 4 64 ++ leBytes 4 128 ++ List.replicate 20 0 ++
    leBytes 2 1 ++ [1, 1] ++ List.replicate 60 0
def weighted (f : Steps → Steps) : State :=
  { phased .compute with steps := f (phased .compute).steps, tundish := { Tundish.reset with placement := some (place oneOp) } }
def nextOf (t : Steps) : Steps := { t with phase := .update, phaseNext := .compute }
theorem test_final_tiles : (weighted id).tileTensor (place oneOp) 1 = some 0 ∧ (weighted id).tileTensor (place oneOp) 2 = none ∧
    (after (.gradientFinal 1) (weighted id)).steps.finalTiles = [1] ∧ (after (.gradientFinal 2) (weighted id)).steps.finalTiles = [] ∧
    (after (.gradientFinal 1) (weighted nextOf)).steps.finalNext = [1] ∧ (weighted id).steps.back = none ∧ (weighted id).steps.passes = [] := by
  decide +kernel
/-- BETA1 0.8984375 (R271): 1 − BETA1 is 0.1015625. -/
theorem test_update_phase : (armed (phased .compute)).risersArmed = true ∧ (phased .compute).risersArmed = false ∧
    (after .updatePhaseStart (armed (phased .compute))).steps.phase = .update ∧
    (after .updatePhaseStart (armed (phased .compute))).steps.factors.getD 3 0 = 0x3DD00000 := by decide +kernel
/-- The hypotheses on the geometry, on a step without micro-batches, and on passes. -/
def idlePlace (n : Nat) : State :=
  let s := armed (phased .compute)
  { s with cru := ⟨{ s.crucible 0 with riser := { (s.crucible 0).riser with own := 1 } }, s.crucible 1, s.crucible 2, s.crucible 3⟩,
           tundish := { s.tundish with placement := some { place (List.replicate 40 0) with microBatches := n } } }
theorem test_update_met : (idlePlace 0).risersArmed = true ∧ (idlePlace 0).steps.passes = [] ∧ (idlePlace 0).steps.phase = .compute ∧
    cruList.all (fun c => (place []).ownGroups.getD c.val 0 == ((idlePlace 1).crucible c).riser.own &&
      (place []).twinGroups.getD c.val 0 == ((idlePlace 1).crucible c).riser.twin) = true ∧
    (∀ c : Cru, (place oneOp).regionAt c.val 7 + 4096 ≤ 2 ^ 36) ∧ (idlePlace 0).steps.back = none ∧
    (idlePlace 0).hasBatches = false ∧ (idlePlace 1).hasBatches = true := by decide +kernel
theorem test_no_batches : (after (.gradientFinal 6) (idlePlace 0)).steps.finalTiles = [] ∧
    ((after .updatePhaseStart (idlePlace 0)).crucible 0).hbm.mem = [] := by decide +kernel
/-- The worked schedule (spec/07): stage 2 of 4 with 8 micro-batches, in side-by-side mode, has three warm-up forwards. -/
theorem test_pass_order : (passOrder true true 4 8 2).take 6 =
    [⟨false, 0⟩, ⟨false, 1⟩, ⟨false, 2⟩, ⟨false, 3⟩, ⟨true, 0⟩, ⟨false, 4⟩] ∧ (passOrder true true 4 8 2).length = 16 ∧
    warmups true 4 8 0 = 7 ∧ warmups false 4 8 0 = 3 ∧ peakHeld true 4 8 0 = 8 ∧ peakHeld false 4 8 3 = 1 ∧
    (passOrder false false 4 3 1) = [⟨false, 0⟩, ⟨false, 1⟩, ⟨false, 2⟩] := by decide
theorem test_compute_passes : ((stepping id).mayCompute && (armed (phased .waiting)).mayCompute) = true ∧
    (after .computePhaseStart (armed (phased .waiting))).steps.passes = [⟨false, 0⟩, ⟨true, 0⟩] := by decide +kernel
def updated : State := { phased .update with steps := { (phased .update).steps with oldest := 1 } }
theorem test_check_phase : updated.sillageDue = false ∧ updated.isLeader = false ∧
    (after .checkPhaseEnd updated).steps.phase = .reported ∧ (after .checkPhaseEnd updated).steps.ownClean = true := by
  decide +kernel

/-! ### HBM and the riser -/

/-- One own group: the unit at region 2 is copied to the page after it. -/
def riserOn : State := withCru { crucibleUp with riser := { Riser.reset with own := 1, armed := true },
                                                 hbm := { Hbm.reset with mem := [(0x40000000, 5)] } }
theorem test_riser : ((riserOn.crucible 0).riser.place 0) = some ⟨0x40000000, 0x40010000, 65536⟩ ∧
    (riserOn.crucible 0).riser.unitAt 0x40000000 = some 0 ∧ (riserOn.crucible 0).riser.touchesRiser 0x40000000 1 = false ∧
    (List.range (riserOn.crucible 0).riser.unitTotal).find? (fun v => (riserOn.crucible 0).riser.unitState v == .uncopied) = some 0 := by
  decide +kernel
/-- A ceiling of 0 holds the riser's copies (R324). -/
def heldRiser : State := riserOn.putCrucible 0 { riserOn.crucible 0 with hbm := { Hbm.reset with reg := Staged.reset ⟨[], [(3, 0)]⟩ } }
theorem test_riser_waits : (heldRiser.crucible 0).hbm.isHeldAs .mgmt (some 3) 0x40000000 = true ∧
    (riserOn.crucible 0).hbm.isHeldAs .mgmt (some 3) 0x40000000 = false ∧
    ((after (.riserCopyUnit 0 0) heldRiser).crucible 0).riser.units = [] ∧
    ((after (.riserCopyUnit 0 0) riserOn).crucible 0).riser.units = [(0, .copied)] := by decide +kernel
theorem test_scale_unit : ((riserOn.crucible 0).riser.place 1) = some ⟨0x40020000, 0x40020400, 1024⟩ := by decide +kernel
def scaleWrite (i : Instr) : State := after i (withCru { crucibleUp with
  riser := { Riser.reset with own := 1, armed := true, units := [(0, .copied)] }, hbm := { Hbm.reset with mem := [(0x40020010, 5)] } })
theorem test_riser_write : let t := scaleWrite (.riserWriteStall 0 0x40020010 ⟨.mgmt, [7]⟩)
    Memory.read (t.crucible 0).hbm.mem 0x40020010 = 7 ∧ Memory.read (t.crucible 0).hbm.mem 0x40020410 = 5 ∧
    (t.crucible 0).riser.unitState 1 = .written ∧ (t.crucible 0).riser.stalls = 1 := by decide +kernel

def hbmOf (f : Hbm → Hbm) : State := withCru { crucibleUp with hbm := f Hbm.reset }
def pmapOver : Staged PmapRegs := ⟨⟨[], 500⟩, ⟨[], 501⟩, true⟩
theorem test_hbm_commands_met : (hbmOf id).power.mode = .on ∧ (Hbm.reset).scrubInterval ≠ 0 ∧ (hbmOf id |>.crucible 0).live = true ∧
    ((hbmOf id).crucible 0).hbm.isHeld .mgmt 0 = false ∧
    ((hbmOf (fun h => { h with reg := Staged.reset ⟨[], [(0, 0)]⟩, used := [(0, 1)] })).crucible 0).hbm.isHeld .mgmt 0 = true := by
  decide +kernel
theorem test_hbm_write : Memory.readBytes ((after (.hbmWrite 0 .mgmt 0xFFFFFFFFE [1, 2] []) (hbmOf id)).crucible 0).hbm.mem 0xFFFFFFFFE 2 =
    [1, 2] ∧ ((after (.hbmWrite 0 .mgmt 0 (List.replicate 32 1) []) (hbmOf (fun h => { h with poison := [(0, true)] }))).crucible
      0).hbm.poisoned 0 = false := by decide +kernel
theorem test_hbm_read : ((after (.hbmRead 0 .mgmt 0 [0, 1]) (hbmOf id)).crucible 0).hbm.poisoned 0 = true ∧
    ((after (.hbmRead 0 .mgmt 0 []) (hbmOf (fun h => { h with poison := [(0, true)] }))).crucible 0).hbm.ue0 = 1 := by decide +kernel
/-- An access of a held partition waits, and the window after its ceiling is raised grants it (R322, R324). -/
def ceiling0 : Hbm := { Hbm.reset with reg := ⟨⟨[], [(0, 0)]⟩, ⟨[], []⟩, true⟩ }
theorem test_held_access :
    let t := after (.hbmRead 0 .mgmt 32 []) (hbmOf (fun _ => ceiling0))
    let u := after (.accountingWindow 0) t
    t.out = [] ∧ (t.crucible 0).hbm.waiting = [⟨.mgmt, 32, .read []⟩] ∧ (u.crucible 0).hbm.waiting = [] ∧
    u.out = [.hbmData 0 .mgmt 32 (List.replicate 32 0) false] ∧ (t.crucible 0).xport.held = [] ∧
    (t.crucible 0).hbm.turnWindow.regPoint.pmapPoint.isHeld .mgmt 32 = false := by decide +kernel
/-- One symbol is corrected, two are not; with a lane erased, one more is (R317). -/
theorem test_decoder : Hbm.reset.decode 0 1 [5] = .corrected ∧ Hbm.reset.decode 0 1 [] = .clean ∧
    writeParts .mgmt 32 (List.replicate 32 1) [] = [⟨.mgmt, 32, .write 32 (List.replicate 32 1) []⟩] ∧
    partUnits 32 32 = [] ∧ Store.get zeroNat Hbm.reset.used 0 + 1 ≤ Hbm.reset.reg.live.ceilOf 0 * Hbm.reset.unit := by decide +kernel
theorem test_scrub : Store.get zeroNat ((after (.patrolScrub 0 3 [] []) (hbmOf id)).crucible 0).hbm.scrubAt 3 = 64 := by
  decide +kernel
theorem test_window : Store.get zero17 ((after (.accountingWindow 0) (hbmOf (fun h => { h with used := [(2, 9)] }))).crucible 0).hbm.usedLast 2 = 9 ∧
    ((after (.accountingWindow 0) (hbmOf (fun h => { h with pmap := pmapOver }))).crucible 0).hbm.status.getLsbD 3 = true := by decide +kernel

/-! ### Ports -/

def linkOf (p : Port) : State := withCru { crucibleUp with ports := [(0, p)] }
def portAfter (i : Instr) (p : Port) : Port := ((after i (linkOf p)).crucible 0).port 0
def word (seq : BitVec 4) (ok : Bool) : Codeword := ⟨3, false, ok, false, 0, seq, false, [], ⟨0, 0, 0⟩, []⟩
def again (seq : BitVec 4) (ok : Bool) : Codeword := { word seq ok with resent := true }
def sent1 : Port := { portUp 0 with replay := [⟨5, 2, 0, 0, none, []⟩], txNext := 6 }
/-- 15 bad codewords on lane 3 in the last millisecond. -/
def worn : Port := { portUp 0 with badTimes := List.replicate 15 (3, 0) }
def missing (k : Nat) : Port := { portUp 0 with rxNext := 1, bad := [⟨0, k, 3⟩], active := 0xFF }
theorem test_codewords : (portAfter (.codewordReceived 0 0 (word 0 true)) (portUp 0)).received = 1 ∧
    (portAfter (.codewordReceived 0 0 (word 0 false)) (portUp 0)).bad = [⟨0, 1, 3⟩] ∧
    (portAfter (.codewordReceived 0 0 (word 3 true)) (portUp 0)).received = 0 ∧ (word 0 true).seqLow = BitVec.ofNat 4 (portUp 0).rxNext := by
  decide +kernel
theorem test_codeword_held : (portAfter (.codewordReceived 0 0 (word 1 true)) (missing 1)).rxHeld = [(1, word 1 true)] ∧
    (portAfter (.codewordReceived 0 0 (again 0 true)) { missing 1 with rxNext := 2, rxHeld := [(1, word 1 true)] }).received = 2 ∧
    (portAfter (.codewordReceived 0 0 (again 7 true)) (missing 1)).bad = [⟨0, 1, 3⟩] ∧
    (portAfter (.codewordReceived 0 0 (again 0 false)) (missing 2)).bad = [⟨0, 3, 3⟩] ∧
    (portAfter (.codewordReceived 0 0 (again 0 false)) (missing 3)).changes = [⟨64, 3, false, none⟩] ∧
    ((portAfter (.codewordReceived 0 0 (again 0 false)) (missing 3)).activeAt 64).getLsbD 3 = false := by decide +kernel
theorem test_codewords_met : (portUp 0).bad = [] ∧ (portUp 0).rxHeld = [] ∧ (portUp 0).waits = [] ∧ (portUp 0).txFlits = [] ∧
    (missing 1).waits = [] ∧ (missing 1).txFlits = [] ∧ (missing 1).rxHeld = [] ∧ (missing 3).dropping 3 = false ∧
    (portUp 0).badOn 3 < 16 ∧ 16 ≤ (worn.noteBad 3 0 true).badOn 3 ∧ worn.active.getLsbD 3 = true ∧ worn.dropping 3 = false ∧
    ((portUp 0).noteBad 3 0 true).badOn 3 < 16 ∧ (missing 1).bad = ⟨0, 1, 3⟩ :: [] ∧ (missing 3).active.getLsbD 3 = true ∧
    (missing 3).inUse.minLanes.toNat ≤ laneCount ((missing 3).active &&& ~~~laneBit 3) ∧
    (∀ e ∈ (missing 1).bad, BitVec.ofNat 4 e.number ≠ (again 7 true).seqLow) := by decide +kernel
theorem test_retry_requests : (after (.retryRequest 0 0 5) (linkOf sent1)).out = [.resentCodeword 0 0 6 ⟨5, 6, 0, 0, none, []⟩] ∧
    sent1.replay.find? (fun r => BitVec.ofNat 12 r.number == (6 : BitVec 12)) = none ∧
    (after (.retryRequestTimeout 0 0) (linkOf { portUp 0 with bad := [⟨4, 1, 4⟩] })).out = [.retryRequest 0 0 4 4] := by decide +kernel

def eight : Port := { portUp 0 with active := 0xFF }
def spared : Port := { eight with swap := some ⟨8, some 2, true⟩ }
/-- Seven of eight lanes are active; lane 8 is a spare that is ready. -/
def seven : Port := { portUp 0 with active := 0x7F, width := 8, spare := 8 }
/-- The switch point is 64 codewords ahead when this end announces it; the partner's may be 5 ahead, or have passed (R382). -/
theorem test_lanes : (portAfter (.laneLockLoss 0 0 2) eight).changes = [⟨64, 2, false, none⟩] ∧
    (portAfter (.laneLockLoss 0 0 2) eight).active = 0xFF ∧ (portAfter (.laneLockLoss 0 0 8) seven).spare = 0x1F ∧
    (portAfter (.laneDrop 0 0 2 5) eight).changes = [⟨5, 2, false, none⟩] ∧ (portAfter (.laneDrop 0 0 2 0) eight).active = 0xFB := by
  decide +kernel
theorem test_lane_swaps : (portAfter (.laneMarginal 0 0 2) eight).active = 0xFF ∧ (portAfter (.laneSwap 0 0 8 5) seven).activeAt 5 = 0x17F ∧
    (portAfter (.laneSwap 0 0 8 0) seven).active = 0x17F ∧ (portAfter (.laneAck 0 0 8 5) spared).changes = [⟨5, 8, true, some 2⟩] ∧
    (portAfter (.laneAck 0 0 8 0) spared).active = 0x1FB := by decide +kernel
theorem test_lanes_wait_for_a_codeword : (portAfter (.laneDrop 0 0 2 0) (missing 1)).active = 0xFF ∧ (missing 1).bad ≠ [] := by decide +kernel
theorem test_lanes_met : eight.active.getLsbD 2 = true ∧ eight.inUse.minLanes.toNat ≤ laneCount (eight.active &&& ~~~laneBit 2) ∧
    eight.dropping 2 = false ∧ eight.changes = [] ∧ eight.closing = false ∧ numberAt eight.txNext 5 = 5 ∧ numberAt eight.txNext 0 = 0 ∧
    eight.txNext = 0 ∧ seven.spare.toNat = 8 ∧ laneCount seven.active < seven.width.toNat ∧
    eight.active.getLsbD 8 = false ∧ ((linkOf eight).crucible 0).linkOn = true ∧
    (after (.spareAdapted 0 0) (linkOf { eight with swap := some ⟨8, none, false⟩ })).out = [.linkMsg 0 0 2 8 64] := by decide +kernel

/-- A switch's page: feature bits, FEC, widths 1 to 8, three rates, INDEX 0, VERSION 1, KIND 3 (R371). -/
def switchPage (offered version : Nat) : W64 := BitVec.ofNat 64 (offered * 2 ^ 48 + 2 ^ 46 + 0xF * 2 ^ 41 + 7 * 2 ^ 38 + version * 256 + 3)
def at_ (m : PortMode) : Port := { Port.reset 0 with mode := m, signal := 0xFF, width := 8, rate := 0, active := if m = .check then 0xFF else 0 }
def modeAfter (i : Instr) (m : PortMode) : PortMode × BitVec 4 := ((portAfter i (at_ m)).mode, (portAfter i (at_ m)).cause)
theorem test_losing_a_port : modeAfter (.portDown 0 0) .up = (.down, 8) ∧ modeAfter (.lockLoss 0 0) .up = (.down, 10) ∧
    modeAfter (.portRetrain .mgmt 0 0) .up = (.down, 9) ∧ modeAfter (.portEnable .mgmt 0 0 false) .up = (.disabled, 11) := by decide +kernel
theorem test_negotiation : (modeAfter (.detectSignal 0 0 0xFF) .detect).1 = .exchange ∧ modeAfter (.detectTimeout 0 0) .detect = (.down, 1) ∧
    (modeAfter (.exchangePage 0 0 (switchPage 0x1F 1)) .exchange).1 = .train ∧
    modeAfter (.exchangePage 0 0 (switchPage 0x1F 2)) .exchange = (.down, 2) ∧
    modeAfter (.exchangePage 0 0 (switchPage 0x0F 1)) .exchange = (.down, 3) ∧
    modeAfter (.exchangePage 0 0 (switchPage 0x1F 1 &&& 0xFFFF3FFFFFFFFFFF)) .exchange = (.down, 4) := by decide +kernel
theorem test_training : (modeAfter (.trainDone 0 0 0xFF) .train).1 = .check ∧ (modeAfter (.checkDone 0 0 0) .check).1 = .up ∧
    modeAfter (.trainDone 0 0 1) .train ≠ (.check, 0) ∧ (modeAfter (.backoffExpiry 0 0) .down).1 = .detect ∧
    (portAfter (.trainDone 0 0 1) { at_ .train with rate := 2 }).cause = 5 := by decide +kernel
theorem test_port_states_met : ((at_ .exchange).page 0 0 &&& switchPage 0x1F 1).extractLsb' 46 2 ≠ 0 ∧
    bestMode (((at_ .exchange).page 0 0 &&& switchPage 0x1F 1).extractLsb' 38 3) (((at_ .exchange).page 0 0 &&& switchPage 0x1F 1).extractLsb' 41 5) =
      some (0, 3) ∧ { at_ .train with rate := 2 }.lowerRate = none ∧ (at_ .check).active &&& 0 = 0 := by decide +kernel
def powered (m : PowerMode) (s : State) : State := { s with power := { s.power with mode := m } }
/-- A port that closes for Banked and has sent its KEEP_ALIVE (R386). -/
def closing : Port := { portUp 0 with closing := true, keepSent := some 0 }
theorem test_keep_alive : (portAfter (.keepAlive 0 0 0) closing).mode = .keepAlive ∧ (portAfter (.keepAlive 0 0 5) closing).mode = .up ∧
    (portAfter (.keepAlive 0 0 5) closing).keepHeard = some 5 ∧ (portAfter (.keepAlive 0 0 0) (portUp 0)).mode = .up ∧
    (((after (.resumeOrderedSet 0 0) (powered .waking (linkOf { portUp 0 with mode := .keepAlive }))).crucible 0).port 0).mode = .up ∧
    (((after (.resumeTimeout 0 0) (powered .waking (linkOf { portUp 0 with mode := .keepAlive }))).crucible 0).port 0).cause = 10 ∧
    (portAfter (.backoffReset 0 0) { portUp 0 with backoff := 8 }).backoff = 1 := by decide +kernel
theorem test_enable : (portAfter (.portEnable .mgmt 0 0 true) { Port.reset 0 with enable := false }).mode = .detect ∧
    (modeAfter (.portRetrain .mgmt 0 0) .down).1 = .detect ∧ (linkOf eight).reach .mgmt 0 = true := by decide +kernel

/-! ### Control of the cores -/

def logic (g : LogCore) : State := onCore regs g
def faulted : LogCore := { LogCore.reset with mode := .faulted, fault := ⟨0x0F, 0, false, 9, 1⟩, faultFlag := true }
theorem test_run_and_halt : ((after (.runCore .mgmt k0 77) (logic LogCore.reset)).phys k0).pc = 77 ∧
    ((after (.runCore .mgmt k0 77) (logic LogCore.reset)).logi k0).mode = .running ∧
    ((after (.runCore .mgmt k0 77) (logic running)).phys k0).pc = 0 ∧ ((after (.haltRequest .mgmt k0) (core busy)).logi k0).mode = .halting := by
  decide
theorem test_clear_fault : ((after (.clearFault .mgmt k0) (logic faulted)).logi k0) = { faulted with mode := .halted, fault := FaultRecord.none } := by
  decide
def loadingState : State := withCru (((crucibleUp.putPhys 0 regs).putLog 0 LogCore.reset) |> fun x =>
  { x with core := { x.core with copying := some (IstoreRegs.reset, [0]) } })
theorem test_run_waits_for_the_copy : (loadingState.crucible 0).loading 0 = true ∧
    ((after (.runCore .mgmt k0 5) loadingState).logi k0).runWaiting = some 5 ∧ (logic faulted).reach .mgmt 0 = true ∧
    State.reset.reach .mgmt 0 = false := by decide
theorem test_clearing : ((after (.clearingDone k0) (logic { LogCore.reset with mode := .clearing })).phys k0) = PhysCore.reset ∧
    ((after (.clearingDone k0) (logic { LogCore.reset with mode := .clearing })).logi k0).mode = .halted := by decide
theorem test_held_signal_drop : blocked.anyHeld = false ∧ (done .held).anyHeld = true ∧
    ((after (.heldSignalDrop k0) (onCore (done .held) { running with mode := .halting, mgmtHalt := true })).logi k0).dropped = true := by decide

def coreArray (f : CoreArray → CoreArray) : State := withCru { crucibleUp with core := f CoreArray.reset }
def swapped : Staged (Store (BitVec 10)) := ⟨[], [(0, 500)], true⟩
theorem test_remap_changes : (((coreArray (fun a => { a with remap := swapped })).crucible 0).core.remapChanged) = [0] ∧
    ((coreArray (fun a => { a with remap := ⟨[], [(0, 528)], true⟩ })).crucible 0).core.remapOk = false := by decide +kernel
theorem test_remap_ok : ((coreArray (fun a => { a with remap := ⟨[], [], true⟩ })).crucible 0).core.remapOk = true := by
  have h : (List.range 500).map (remapOf []) = List.range 500 := by decide +kernel
  have h1 : (List.range 500).all (fun p => decide (p < 528)) = true := by decide +kernel
  have h2 : ((coreArray (fun a => { a with remap := ⟨[], [], true⟩ })).crucible 0).core.remapChanged = [] := by decide +kernel
  have h3 : ((coreArray (fun a => { a with remap := ⟨[], [], true⟩ })).crucible 0).core.remap.shadow = [] := rfl
  simp only [CoreArray.remapOk, h3, h, h1, h2, decide_eq_true List.nodup_range, List.all_nil, Bool.and_self]
theorem test_remap_refused :
    ((after (.remapCommitPoint 0) (coreArray (fun a => { a with remap := ⟨[], [(0, 528)], true⟩ }))).crucible 0).core.status.getLsbD
    0 = true := by decide +kernel
def loadSet : IstoreRegs := ⟨0, 0, 8, 16, 1⟩
def stores (f : CoreArray → CoreArray) : State :=
  withCru { crucibleUp with core := f CoreArray.reset, hbm := { Hbm.reset with mem := Memory.writeBytes [] 0 [1, 2, 3, 4, 5, 6, 7, 8] } }
theorem test_istore_copy : loadSet.ok = true ∧ IstoreRegs.ok ⟨0, 0, 9, 16, 1⟩ = false ∧
    Store.get zero64 ((after (.istoreCopy 0) (stores (fun a => { a with istore := ⟨loadSet, loadSet, true⟩ }))).phys ⟨0, 15⟩).istore 2 =
      0x0807060504030201 := by decide +kernel
theorem test_istore_done : ((after (.istoreCopyDone 0) (loadingState.putCrucible 0 ((loadingState.crucible 0).putLog 0
    { LogCore.reset with runWaiting := some 5, startPc := 9 }))).phys k0).pc = 5 := by decide

/-! ### Registers -/

def tallyOf (f : TallyBlock → TallyBlock) : State := withCru { crucibleUp with tally := f TallyBlock.reset }
def force : ForceRegs := { TallyBlock.reset.force.shadow with core := 3, tally := 4, full := true, count := 7 }
theorem test_commits : ((after (.numCommit .mgmt 0) (withCru { crucibleUp with num := { NumBlock.reset with
      regs := ⟨NumRegs.reset, ⟨5, 6, 3⟩, false⟩ } })).crucible 0).num.regs.live = ⟨5, 6, 3⟩ ∧
    ((after (.tallyForceCommit .mgmt 0) (tallyOf (fun b => { b with force := ⟨force, force, false⟩ }))).phys ⟨0, 3⟩).tallyWord 4 =
      0x8000000700000000 ∧
    ((after (.hangWinCommit .mgmt 0) (withCru { crucibleUp with hang := { HangBlock.reset with booting := true } })).crucible 0).hang.booting =
      false := by decide +kernel
theorem test_port_commit : PortSet.ok { PortSet.reset 0 with minLanes := 1 } 0 = true ∧ PortSet.ok { PortSet.reset 0 with minLanes := 0 } 0 = false ∧
    (portAfter (.fabCommit .mgmt 0 0) { portUp 0 with set := ⟨PortSet.reset 0, { PortSet.reset 0 with minLanes := 0 }, false⟩ }).event.getLsbD 1 =
      true := by decide +kernel
theorem test_xlat_point : xlatOk [] = true ∧ xlatOk [(0, ⟨true, 48⟩)] = false ∧ (crucibleUp.ctxBusy 0) = false ∧
    ((crucibleUp.putLog 2 { running with ctxSel := 8 }).ctxBusy 0) = true := by decide +kernel

def staged (live shadow : JobSet) : State := net (fun t => { t with job := ⟨live, shadow, true⟩, conns := [(28, ⟨3, 4, []⟩)] })
theorem test_job_point : (job.ok 2 = true ∧ job.ok 3 = false) ∧
    ((after (.jobSetCommitPoint 0) (staged { job with epoch := 8 } { job with slot := 5 })).crucible 0).xport.status.getLsbD 2 = true ∧
    ((after (.jobSetCommitPoint 0) ((staged { job with epoch := 8 } job).putCrucible 1 crucibleUp |> fun s =>
      { s with power := { s.power with slotId := 2 } })).crucible 0).xport.conns = [] := by decide +kernel

theorem test_shadow_write : ((after (.shadowWrite .mgmt (.crucible 0) 0xD000 9) moduleUp).crucible 0).num.regs.shadow.sat = 9 ∧
    ((after (.shadowWrite .mgmt (.crucible 0) 0xD000 9) moduleUp).crucible 0).num.regs.live.sat = 0x400 ∧
    ((after (.forceHang .mgmt 0) moduleUp).crucible 0).frozen = true ∧ ((after (.mcKick .mgmt 0) moduleUp).crucible 0).hang.progMc = 1 := by
  decide +kernel
theorem test_core_registers : ((after (.tallyCtxSel .mgmt k0 9) (logic LogCore.reset)).logi k0).ctxSel = 9 ∧
    ((after (.tallyCtxSel .mgmt k0 9) (logic running)).crucible 0).tally.status.getLsbD 5 = true ∧
    ((after (.eventSummaryClear .mgmt k0) (logic { running with numFlag := true })).logi k0).numFlag = false := by decide +kernel
def rec : FaultRec := ⟨4, 7, 15, 0, 0, 10⟩
theorem test_records : ((after (.popRecord .half0 0) (withCru { crucibleUp with res := { ResBlock.reset with records := [rec] } })).crucible 0).res.records =
    [] ∧ ((after (.tallyLogClear .half0 0) moduleUp).crucible 0).tally.log = [] ∧
    ((after (.uePendingClear .mgmt 0) (hbmOf (fun h => { h with status := 0x3F }))).crucible 0).hbm.status.getLsbD 5 = false := by decide +kernel

/-- The management core's clear of a log needs its record; while the port die is away the record waits (R38). -/
def logged (f : State → State) : State :=
  f (moduleUp.putCrucible 0 { crucibleUp with tally := { TallyBlock.reset with log := [⟨0, 1, 2, 3, 0, false, true, 4⟩] } })
def failedStore (s : State) : State := { s with store := { s.store with failed := true } }
def away (s : State) : State := { s with alwaysOn := false }
theorem test_log_clear : ((after (.tallyLogClear .mgmt 0) (logged id)).crucible 0).tally.log = [] ∧
    ((after (.tallyLogClear .mgmt 0) (logged failedStore)).crucible 0).tally.log.length = 1 ∧
    ((after (.tallyLogClear .mgmt 0) (logged away)).crucible 0).tally.log = [] ∧
    ((after (.tallyLogClear .mgmt 0) (logged away)).crucible 0).recQueue.length = 1 ∧
    (logged id).recordsAway = false ∧ (logged away).recordsAway = true ∧ (logged failedStore).store.accepts = false ∧
    (logged id).store.accepts = true ∧ ((logged id).crucible 0).recQueue = [] := by decide +kernel
theorem test_values_out_of_range : ((after (.fabE2eWrite .mgmt 0 0x06101014) moduleUp).crucible 0).xport.status.getLsbD 6 = true ∧
    ((after (.fabE2eWrite .mgmt 0 0x05100014) moduleUp).crucible 0).xport.e2e = ⟨5, 256, 20⟩ ∧
    ((after (.intervalWrite .mgmt 0 true 1024) moduleUp).crucible 0).res.sillageInterval = 1024 ∧
    ((after (.intervalWrite .mgmt 0 false 1025) moduleUp).crucible 0).res.status.getLsbD 4 = true ∧
    ((after (.intervalWrite .mgmt 0 false 0x801) moduleUp).crucible 0).res.noseInterval = 1 ∧
    ((after (.intervalWrite .mgmt 0 false 0x801) moduleUp).crucible 0).res.status = 0 := by decide +kernel
theorem test_port_die_values : (after (.ethVlanWrite .mgmt 0 0x80000FFF) moduleUp).half.h0.ethFlags = 2 ∧
    (after (.ethVlanWrite .mgmt 0 0x80000FFE) moduleUp).half.h0.vid = 0xFFE ∧ (after (.pwrLimitWrite .mgmt 2201) moduleUp).power.limit = 2200 ∧
    (after (.pwrLimitWrite .mgmt 1000) moduleUp).power.limit = 1000 ∧ moduleUp.speaks .half0 = true ∧ (moduleUp.halfAt 0).alive = true := by
  decide +kernel
theorem test_register_reads : (after (.tallyWordRead .mgmt k0 6) (core tallies)).lastRead = 7 ∧
    captured ((after (.tallyWordRead .mgmt k0 6) (core tallies)).crucible 0).tally.captures .mgmt 6 0 = 0x00020002 ∧
    (after (.resSigRead .mgmt k0) (logic { running with sig := 0x500000006 })).lastRead = 6 ∧
    moduleUp.cruRead 0 0xFFFFFC = none ∧ (after (.unassignedAccess .mgmt (.crucible 0) 0xFFFFFC 4) { moduleUp with lastRead := 5 }).lastRead = 0 := by
  decide +kernel
/-- Words with several readings. -/
theorem test_power_count : (after (.pwrAonRead .mgmt 0) moduleUp).lastRead =
    ((after (.pwrAonRead .mgmt 0) moduleUp).crucible 0).pwr.aon.extractLsb' 0 32 := by rfl

/-! ### Silent errors and hangs -/

def requested : State := withCru { crucibleUp with res := { ResBlock.reset with noseRequested := true } }
theorem test_nose : requested.noseIdle = true ∧ ((requested.crucible 0).noseDue none) = some 0 ∧ ((requested.crucible 1).noseDue none) = none ∧
    (requested.crucible 0).allHalted = true ∧ ((core regs).crucible 0).allHalted = false ∧
    (withCru { crucibleUp with res := { ResBlock.reset with nose := .again 1 [] } }).noseRunners = [] := by decide +kernel
def comparing (f : Steps → Steps) : State := { phased .check with steps := f { (phased .check).steps with sillage := .comparing } }
/-- Modules 7 and 10 are members 0 and 1 of one stage, and each other's twins. -/
def twins (bs : List Byte) : State :=
  { comparing id with cru := (comparing id).cru.set 0 { (comparing id).crucible 0 with hbm := { Hbm.reset with mem := Memory.writeBytes [] mailbox bs } }
                      tundish := { Tundish.reset with health := some ⟨0, [⟨7, 1, 10⟩, ⟨10, 1, 7⟩]⟩ } }
def pairPlace : Placement := { place [] with group := 2 }
def mail (a b : Byte) : List Byte :=
  List.replicate 64 0 ++ digestRecord 0 ⟨0, 0, 1⟩ 7 (List.replicate 32 a) ++ digestRecord 0 ⟨0, 0, 0⟩ 7 (List.replicate 32 b)
theorem test_sillage : (twins (mail 0 0)).compareShards pairPlace = (none, none) ∧ (twins (mail 0 1)).compareShards pairPlace = (some 7, none) ∧
    ((twins []).compareShards pairPlace).2 = some 7 := by decide +kernel
/-- The record of the shard of 7, stored at 7, and that of the shard of 10: slots 1 and 2 of 7's mailbox. -/
theorem test_sillage_slots : slotAt pairPlace ⟨0, 0, 0⟩ 7 1 = 1 ∧ slotAt pairPlace ⟨0, 0, 1⟩ 7 0 = 2 := by decide
theorem test_sillage_due : { phased .update with steps := { (phased .update).steps with oldest := 64 } }.sillageDue = true ∧
    (phased .update).shardPoisoned = false := by decide +kernel
theorem test_spare : (List.range 528).find? (Crucible.spareFree { crucibleUp with
    core := { crucibleUp.core with retired := [(0, true)], remap := ⟨[(1, 500)], [(1, 500)], false⟩ } }) = some 1 := by decide +kernel
/-- A core that awaits its retirement, with a store that takes records and with one that does not. -/
def retiring (f : State → State) : State :=
  f (moduleUp.putCrucible 0 (crucibleUp.putLog 0 { LogCore.reset with retireDue := some ⟨0x0E, 0, false, 0, 0⟩ }))
theorem test_retirement :
    let t := after (.coreRetirement k0) (retiring id)
    let u := after (.coreRetirement k0) (retiring failedStore)
    (t.crucible 0).physIx 0 = 500 ∧ (t.logi k0).mode = .clearing ∧ (t.logi k0).reload = true ∧
    (u.crucible 0).service = .outOfService ∧ (u.crucible 0).physIx 0 = 0 ∧ (u.logi k0).mode = .halted ∧
    (retiring id).store.accepts = true ∧ (retiring id).recordsAway = false ∧ (retiring id).steps.mode = .idle := by decide +kernel
theorem test_hang : ([StallUnit.mc].all ((core regs).crucible 0).monitored) = true ∧ ([StallUnit.core 0].all ((core regs).crucible 0).monitored) = true ∧
    ([StallUnit.core 1].all ((core regs).crucible 0).monitored) = false ∧
    ((after (.progressStall 0 [.mc]) (core regs)).crucible 0).hang.lastCause = 1 ∧
    ((after (.bootTimeout 0) (withCru { Crucible.reset with hang := { HangBlock.reset with booting := true } })).crucible 0).hang.lastCause = 3 := by
  decide +kernel
/-- A crucible that hangs after an activation has restarted it ends the activation (R639). -/
theorem test_hang_in_an_activation : Activation.restarted ⟨4, 3, []⟩ 0 = true ∧
    (after (.progressStall 0 [.mc]) { core regs with boot := { (core regs).boot with activation := some ⟨4, 3, []⟩ } }).boot.activation = none := by
  decide +kernel
def hung (n : Nat) : State := withCru { crucibleUp with frozen := true, hang := { HangBlock.reset with run := some ⟨1, 0, [], n⟩ } }
theorem test_hang_reset : (((hung 3).countedReset 0 3 []).crucible 0).service = .outOfService ∧
    (((hung 2).countedReset 0 2 []).crucible 0).service = .resetting ∧ ((hung 2).crucible 0).hang.run = some ⟨1, 0, [], 2⟩ := by decide +kernel
theorem test_return : Crucible.returning { Crucible.reset with fw := some ⟨0, 1, 0, 1, [], 0, []⟩ } = true ∧ Crucible.returning Crucible.reset = false := by
  decide

/-! ### The persistent store -/

def storeOf (f : StoreBlock → StoreBlock) : State := { moduleUp with store := f { StoreBlock.reset with ready := true } }
def w8 : RecWrite := ⟨0x08, 1, 1, [5, 6], .nothing⟩
theorem test_store_open : (after .storeOpen { moduleUp with store := StoreBlock.reset }).store.wear.cycles = 1 ∧
    (storeOf id).store.accepts = true ∧ (storeOf id).store.journal.free 128 ≥ 9 := by decide +kernel
theorem test_records_are_numbered : (after (.persistentRecord ⟨0, 0x08, 1, 1, [5, 6]⟩) (storeOf id)).store.writing = some (w8, 1, 0) ∧
    (after (.recordDurable true) (storeOf (fun t => { t with writing := some (w8, 1, 0) }))).store.records.map Rec.payload = [[5, 6]] ∧
    (after (.recordDurable false) (storeOf (fun t => { t with writing := some (w8, 1, 2) }))).store.failed = true ∧
    (after .wearRecord (storeOf id)).store.wear.seconds = 600 := by decide +kernel
def asked (op : BitVec 4) (kind : Byte) (key : W16) (len : BitVec 13) : State :=
  storeOf (fun t => { t with records := [⟨0x08, 1, 9, 1, [5, 6], 0⟩], regs := Staged.reset ⟨op, kind, key, 0, len⟩ })
theorem test_store_operations : (after (.storeReadRecord .mgmt) (asked 1 0x08 1 0)).store.result.found = true ∧
    Memory.read (after (.storeReadRecord .mgmt) (asked 1 0x08 1 0)).store.buf 1 = 6 ∧
    (after (.storeReadHistory .mgmt) (asked 2 0 0 0)).store.result.found = false ∧ (asked 2 0 0 0).store.history 0 = [] ∧
    (after (.storeAppendConfig .mgmt) (asked 3 0x07 1 4)).store.flags.getLsbD 2 = true ∧
    (after (.storeAppendConfig .mgmt) (asked 3 0x08 1 4)).store.writing.isSome = true := by decide +kernel
theorem test_daily_check : (after (.storeDailyCheck [0]) (asked 0 0 0 0)).store.flags.getLsbD 5 = true := by decide +kernel

/-! ### Host commands -/

def cmdQp : Qp := ⟨7, .command, false, 400000, none, none, 0, 0, 7, 6, 4096⟩
def halfUp : Half := { Half.reset with linkUp := true, qps := [cmdQp] }
/-- HBM bytes 0x20000000 to 0x2000FFFF of crucible 0, remote read and write. -/
def hostWindow : Window := ⟨1, 0x77, 0, 3, 0x20000000, 65536, none⟩
/-- Queue pair 7 of half 0 takes commands; window 1 holds `bs`; this module is 10 of an active job. -/
def hostUp (bs : List Byte) : State :=
  { net id with
    half := ⟨halfUp, Half.reset⟩
    host := { HostShare.reset with windows := [hostWindow] }
    cru := (net id).cru.set 0 { (net id).crucible 0 with hbm := { Hbm.reset with mem := Memory.writeBytes [] 0x20000000 bs } } }
/-- Half 0 sends and takes tagged frames. -/
def tagged (v : BitVec 12) : State := { hostUp [] with half := ⟨{ halfUp with tagged := true, vid := v }, Half.reset⟩ }
/-- `Sound` as a value. -/
def soundly (s : State) (m : CmdMsg) (op : W16) (fs : Fields) (r : AwayRule) : Bool :=
  s.hears m.half && s.engineUp m.half &&
    (match (s.halfAt m.half).qp m.qp with
     | some q => q.kind == .command && !q.error
     | none => false) &&
    (s.outstanding m.half m.qp == 0 && !s.holds r && !m.ce && s.runHeld.isNone && decide (m.vid = (s.halfAt m.half).vlan) && malformed m fs == none &&
      (!(s.boot.mode == .recovery) || servedInRecovery op) && !s.epochMismatch m)
theorem soundly_met (s : State) (m : CmdMsg) (op : W16) (fs : Fields) (r : AwayRule) (h : soundly s m op fs r = true) : Sound s m op fs r := by
  unfold soundly at h
  cases hq : (s.halfAt m.half).qp m.qp with
  | none => simp [hq] at h
  | some q =>
    simp only [hq, Bool.and_eq_true, Bool.or_eq_true, beq_iff_eq, Bool.not_eq_eq_eq_not, Bool.not_true] at h
    obtain ⟨⟨⟨h1, h2⟩, h3, h4⟩, ⟨⟨⟨⟨⟨⟨h5, h6⟩, h7⟩, h11⟩, h12⟩, h8⟩, h9⟩, h10⟩ := h
    refine ⟨⟨⟨h1, of_decide_eq_true h12⟩, h2, ⟨q, hq, h3, h4⟩, h5, h6, h7, Option.isNone_iff_eq_none.1 h11⟩, h8, fun hr => ?_, h10⟩
    rcases h9 with h9 | h9
    · simp [hr] at h9
    · exact h9

/-- What the halves have sent, whatever its tag, priority and marks. -/
def ethOut (s : State) : List (HalfIx × EthMsg) :=
  s.out.filterMap (fun o => match o with
    | .eth h _ m => some (h, m)
    | _ => none)
def le (n v : Nat) : List Byte := leBytes n v
def rangeBody (n : Nat) : List Byte := le 4 1 ++ le 4 0 ++ le 8 0 ++ le 4 n
/-- STATUS and DETAIL of the first response of a state. -/
def answered (s : State) : Option (W16 × W32) :=
  s.out.findSome? (fun o => match o with
    | .eth _ _ (.response _ _ st _ d _ _) => some (st, d)
    | _ => none)

theorem test_arrival_met : hostMsg (.identify (msg [])) = some (msg []) ∧ (hostUp []).hears 0 = true ∧ (hostUp []).engineUp 0 = true ∧
    (hostUp []).outstanding 0 7 = 0 ∧ (powered .banked (hostUp [])).holds (awayRule (.stopCommand (msg []))) = true ∧
    (after (.stopCommand (msg [])) (powered .banked (hostUp []))).power.mode = .waking ∧
    ethOut (after (.identify (msg [])) { hostUp [] with boot := { (hostUp []).boot with image := none } }) = [(0, .rdmaReply 7 .rnrNak)] := by decide +kernel
theorem test_one_behind_another :
    (after (.stopCommand (msg [])) { powered .waking (hostUp []) with held := [.stopCommand (msg [])] }).held.length = 2 ∧
    ({ powered .waking (hostUp []) with held := [.stopCommand (msg [])] } : State).runHeld = none ∧ (hostUp []).runHeld = none ∧
    (after (.stopCommand (msg [])) { hostUp [] with held := [.identify (msg [])] }).held = [] ∧
    (after (.stopCommand (msg [])) { hostUp [] with held := [.identify (msg [])] }).out.length = 2 := by decide +kernel
/-- A half with the VLAN tag on takes frames of that VLAN only (R436). -/
theorem test_vlan : (after (.identify (msg [])) (tagged 5)).out = [] ∧
    ethOut (after (.identify { msg [] with vid := some 5 }) (tagged 5)) ≠ [] ∧ (tagged 5).half.h0.vlan = some 5 ∧
    (hostUp []).half.h0.vlan = none := by decide +kernel

theorem test_module_commands_met : soundly (hostUp []) (msg []) 0x0001 [] .answered = true ∧
    soundly (hostUp []) (msg (le 8 1)) 0x0002 [(0, 8)] .answered = true ∧ soundly (hostUp []) (msg (le 32 0)) 0x0072 [(0, 32)] .held = true ∧
    soundly (hostUp []) (msg []) 0x0080 [] .bank = true ∧ soundly (hostUp []) (msg []) 0x0081 [] .answered = true ∧
    malformed { msg [] with flags := 2 } [] = some 2 ∧ malformed { msg [] with resv := 1 } [] = some 17 ∧ (0x7777 : W16).toNat ∉ knownOpcodes ∧
    (hostUp []).epochMismatch { msg [] with flags := 1, epoch := 3 } = true := by decide +kernel
theorem test_identify : (after (.identify (msg [])) (hostUp [])).out.length = 1 ∧ answered (after (.identify (msg [])) (hostUp [])) = some (0, 0) := by
  decide +kernel
theorem test_unknown_and_malformed : answered (after (.unknownOpcode (msg []) 0x7777) (hostUp [])) = some (2, 0) ∧
    answered (after (.stopCommand { msg [] with flags := 0x100 }) (hostUp [])) = some (1, 3) := by decide +kernel
theorem test_attest_without_a_store : answered (after (.attest (msg (le 32 0))) { hostUp [] with store := StoreBlock.reset }) = some (9, 0x100) := by
  decide +kernel
/-- No job may be active. -/
def quiet : State := { hostUp [] with cru := moduleUp.cru }
theorem test_bank_ports_met : ∀ (c : Cru) (n : PortIx),
    ((quiet.crucible c).port n).changes = [] ∧ ((quiet.crucible c).port n).keepSent = none := by decide +kernel
theorem test_bank : quiet.bankable = true ∧ (hostUp []).bankable = false := by decide +kernel
theorem test_bank_and_wake : (after (.bankCommand (msg [])) quiet).power.mode = .enteringBanked ∧
    answered (after (.bankCommand (msg [])) (hostUp [])) = some (5, 0) ∧
    (after (.wakeCommand (msg [])) (powered .banked quiet)).power.mode = .waking := by decide +kernel

def jobBody (self : Nat) : List Byte := le 2 5 ++ le 2 9 ++ le 2 self ++ le 2 1 ++ [2, 1, 0, 0] ++ le 4 1 ++ le 8 0 ++ le 2 0
def crucible0 (b : List Byte) : CmdMsg := { msg b with crucibles := 1 }
theorem test_job_commands_met :
    soundly (hostUp []) (crucible0 (jobBody 10)) 0x0010 [(0, 2), (2, 2), (4, 2), (6, 2), (8, 1), (9, 1), (12, 4), (16, 8), (24, 2)] .held = true ∧
    (0 : Cru) ∈ selected (crucible0 (jobBody 10)) ∧ soundly (hostUp []) (crucible0 (le 2 9)) 0x0011 [(0, 2)] .held = true ∧
    soundly (hostUp []) (crucible0 (le 2 1 ++ le 2 5)) 0x0013 [(0, 2), (2, 2)] .held = true ∧
    soundly (hostUp []) (msg (rangeBody 24)) 0x0012 [(0, 4), (8, 8), (16, 4)] .held = true ∧
    (State.reset.allAway (crucible0 (jobBody 10))) = true := by decide +kernel
theorem test_job_set : (after (.jobSet (crucible0 (jobBody 10))) (hostUp [])).host.running.length = 1 ∧
    ((after (.jobSet (crucible0 (jobBody 10))) (hostUp [])).crucible 0).xport.job.commit = true ∧
    answered (after (.jobSet (crucible0 (jobBody 4096))) (hostUp [])) = some (4, 4) ∧
    ((after (.setXrack (crucible0 (le 2 1 ++ le 2 5))) (hostUp [])).crucible 0).xport.xrack.live = ⟨1, 5⟩ := by decide +kernel
/-- A map of GEN 1 with the one module 10, a spare. -/
def mapBytes : List Byte := le 4 1 ++ le 2 1 ++ le 10 0 ++ le 2 10 ++ [2, 0] ++ le 2 0xFFFF ++ le 2 0
theorem test_health_map : mapFault mapBytes none = none ∧ mapFault mapBytes (some ⟨1, []⟩) = some 0 ∧
    (after (.setHealthMap (msg (rangeBody 24))) (hostUp mapBytes)).tundish.health = some ⟨1, [⟨10, 2, 0xFFFF⟩]⟩ ∧
    answered (after (.setHealthMap (msg (rangeBody 24))) { hostUp mapBytes with tundish := { Tundish.reset with health := some ⟨1, []⟩ } }) =
      some (4, 0x80000000) := by decide +kernel
theorem range_met (bs : List Byte) : InWindow (hostUp bs) 1 0 65536 := ⟨hostWindow, by rfl, by decide, by rfl⟩
def losing : State := { hostUp [] with tundish := { Tundish.reset with health := some ⟨0, [⟨10, 1, 7⟩] ⟩ } }
/-- The one hypothesis is about a free value: that the twin answers that it is Held. -/
theorem test_take_over (h : Config.freeBool 0 = true) : losing.job.active = true ∧ losing.job.self.toNat = cmdField (msg (le 2 10 ++ le 2 7)) 0 2 ∧
    losing.twinNamed 10 7 = true ∧ Config.freeBool losing.freeCtr = true ∧ losing.steps.takeover = none :=
  ⟨by decide +kernel, by decide +kernel, by decide +kernel, h, by decide +kernel⟩
def takingOver : State := { phased .waiting with steps := { (phased .waiting).steps with takeover := some ⟨7, 10⟩ } }
theorem test_take_over_ends : (after (.takeoverCopyDone false) takingOver).steps.takeover = none ∧ takingOver.tundish.placement.isSome = true ∧
    (after (.takeoverCopyDone false) takingOver).steps.mode = .running := by decide +kernel

def windowBody (access off len : Nat) : List Byte := [0, BitVec.ofNat 8 access] ++ le 6 0 ++ le 8 off ++ le 8 len
def ringBody (dir slots : Nat) : List Byte := [4, BitVec.ofNat 8 dir, 0, 0] ++ le 4 slots ++ le 4 64 ++ le 4 1 ++ le 4 7 ++ le 4 0 ++ le 8 0x1000 ++ le 4 5
def outRing : Ring := ⟨4, true, 0, 4, 64, 1, 7, 0x1000, 5, 0, 0, 1, [3], some 0x30000000⟩
def ringUp (r : Ring) : State := { hostUp [] with host := { (hostUp []).host with rings := [r] } }
def inRing : State :=
  { ringUp { outRing with output := false, freed := 0, seqs := [] } with
    host := { (hostUp []).host with rings := [{ outRing with output := false, freed := 0, seqs := [], stepsRun := 0 }],
                                    windows := [⟨2, 0x99, 0, 2, 0, 256, some 4⟩] } }
theorem test_window_commands_met : soundly (hostUp []) (msg (windowBody 1 0x3FFF0000 65536)) 0x0020 [(0, 1), (1, 1), (8, 8), (16, 8)] .held = true ∧
    soundly (hostUp []) (msg (le 4 1)) 0x0021 [(0, 4)] .held = true ∧ (hostUp []).window 1 = some hostWindow ∧ (hostUp []).window 2 = none ∧
    soundly (hostUp []) (msg (ringBody 0 2)) 0x0022 [(0, 1), (1, 1), (4, 4), (8, 4), (12, 4), (16, 4), (24, 8), (32, 4)] .held = true ∧
    soundly (ringUp outRing) (msg ([4, 0, 0, 0] ++ le 4 2)) 0x0023 [(0, 1), (4, 4)] .held = true ∧ (ringUp outRing).ring 4 = some outRing ∧
    soundly (hostUp []) (msg ([2, 0] ++ le 2 1 ++ le 4 0xD000)) 0x0060 [(0, 1), (1, 1), (2, 2), (4, 4)] .held = true ∧
    soundly (hostUp []) (msg ([2, 0] ++ le 2 1 ++ le 4 0xD000 ++ le 4 9)) 0x0061 [(0, 1), (1, 1), (2, 2), (4, 4), (8, 4)] .held = true := by
  decide +kernel
theorem test_windows : (after (.defineWindow (msg (windowBody 1 0x3FFF0000 65536))) (hostUp [])).host.windows.length = 2 ∧
    answered (after (.defineWindow (msg (windowBody 2 0x3FFF0000 65536))) (hostUp [])) = some (4, 8) ∧
    (after (.deleteWindow (msg (le 4 1))) (hostUp [])).host.windows = [] ∧ answered (after (.deleteWindow (msg (le 4 2))) (hostUp [])) = some (4, 0) := by
  decide +kernel
theorem test_rings : (after (.defineRing (msg (ringBody 0 2))) (hostUp [])).host.rings.map Ring.slots = [2] ∧
    ((after (.ringCredit (msg ([4, 0, 0, 0] ++ le 4 3))) (ringUp outRing)).ring 4).map Ring.freed = some 3 ∧
    answered (after (.ringCredit (msg ([4, 0, 0, 0] ++ le 4 0))) (ringUp outRing)) = some (4, 4) := by decide +kernel
theorem test_control_access : (after (.ctrlRead (msg ([2, 0] ++ le 2 1 ++ le 4 0x5000))) (hostUp []) |> ethOut).getLast? =
      some (0, .response 7 0x8060 0 1 0 0 (le 4 0x400)) ∧
    ((after (.ctrlWrite (msg ([2, 0] ++ le 2 1 ++ le 4 0xD000 ++ le 4 9))) (hostUp [])).crucible 0).num.regs.shadow.sat = 9 := by decide +kernel

def kernelBody : List Byte := le 2 0x8001 ++ le 2 0 ++ le 4 1 ++ le 8 0 ++ le 4 65536
def graphBody : List Byte := rangeBody 65536 ++ le 4 1 ++ le 8 0
def stepBody (first count eta : Nat) : List Byte := le 8 first ++ le 4 count ++ le 4 eta
def placed (f : Steps → Steps) : State :=
  { hostUp [] with steps := f Steps.reset, tundish := { Tundish.reset with placement := some (place []), health := some ⟨0, []⟩ } }
theorem test_graph_commands_met : soundly (hostUp []) (msg kernelBody) 0x0030 [(0, 2), (4, 4), (8, 8), (16, 4)] .held = true ∧
    soundly (hostUp []) (msg graphBody) 0x0031 [(0, 4), (8, 8), (16, 4), (20, 4), (24, 8)] .held = true ∧
    (hostUp []).kernelUsed 0x8001 = false ∧ (hostUp []).activating = false ∧ predicted 0x0D = true ∧ predicted 0x03 = false ∧
    reportBytes [] false = 128 := by decide +kernel
/-- A graph of a job of one module, and one submitted under another map. -/
def graphRun (act : List (Nat × Nat)) : GraphRun := ⟨0, 7, 1, [], 0, 0, act, 0, 0⟩
def graphUp : State :=
  { hostUp [] with tundish := { Tundish.reset with health := some ⟨1, [⟨(hostUp []).job.self.toNat, 1, 9⟩]⟩,
                                                   run := some (graphRun [((hostUp []).job.self.toNat, 9)]) } }
theorem test_placement_met : (graphUp.outcome (graphRun [((hostUp []).job.self.toNat, 9)]) .ok).1 = 0 ∧
    (graphUp.placementOf []).isSome = true ∧ graphUp.activePairs = [((hostUp []).job.self.toNat, 9)] ∧
    (graphUp.outcome (graphRun [(5, 6)]) .ok).1 = 8 ∧ (graphUp.outcome { graphRun [] with status := 3 } .ok).1 = 3 ∧
    (graphUp.outcome (graphRun [((hostUp []).job.self.toNat, 9)]) (.failed 0x0D 4)) = (0x0D, 4) ∧ graphUp.qpWorks 0 7 = true ∧
    resultGood .ok = true ∧ resultGood (.failed 2 0) = false := by decide +kernel
/-- A placement that is done while a step runs waits for that step (log 160). -/
theorem test_placement_at_a_boundary :
    let t := graphUp.take (some (place []))
    let u := { graphUp with steps := { Steps.reset with mode := .running, next := 1 } }.take (some (place []))
    t.tundish.placement.isSome = true ∧ t.tundish.next = none ∧ u.tundish.placement = none ∧ u.tundish.next.isSome = true := by decide +kernel
/-- Two bytes of a body are too few: the first cause is FORMAT, status 1. -/
theorem test_submit_graph : ((after (.submitGraph (msg graphBody)) (hostUp [])).tundish.run.map GraphRun.status) = some 1 ∧
    answered (after (.submitGraph (msg graphBody)) (after (.submitGraph (msg graphBody)) { hostUp [] with half := ⟨halfUp, Half.reset⟩ })) = none := by
  decide +kernel
theorem test_steps_met : soundly (placed id) (msg (stepBody 3 2 0)) 0x0040 [(0, 8), (8, 4), (12, 4)] .held = true ∧ (placed id).placed = true ∧
    (placed id).steps.firstOk 3 = true ∧ (placed (fun t => { t with firstOpen := false, queuedEnd := 4 })).steps.firstOk 3 = false ∧
    nonFinite 0x7F800000 = true ∧ nonFinite 0x3F800000 = false ∧ (placed (fun t => { t with mode := .held })).steps.firstOk 1 = true := by decide +kernel
theorem test_step_command : (after (.stepCommand (msg (stepBody 3 2 0))) (placed id)).steps.queue = [⟨3, 2, 0⟩] ∧
    answered (after (.stepCommand (msg (stepBody 3 2 0x7F800000))) (placed id)) = some (4, 12) ∧
    answered (after (.stepCommand (msg (stepBody 3 2 0))) (placed (fun t => { t with firstOpen := false, queuedEnd := 4 }))) = some (4, 0) ∧
    (after (.stopCommand (msg [])) (placed (fun t => { t with queue := [⟨3, 2, 0⟩], next := 4, queuedEnd := 5 }))).steps.queuedEnd = 4 := by
  decide +kernel

/-! ### Storage -/

def targetBody : List Byte := [5, 4] ++ le 2 4420 ++ le 16 0x0A000001 ++ le 4 1 ++ le 2 3 ++ le 6 0 ++ [0x6E, 0x71, 0x6E]
def storeTarget : Target := ⟨5, 4, 4420, 0x0A000001, 1, [0x6E, 0x71, 0x6E], 1000⟩
def listBody (step : Nat) : List Byte := le 8 step ++ le 4 1 ++ le 4 0 ++ le 8 0 ++ le 4 80
/-- One lease of 100 blocks of target 5, for an ingot with a manifest slot of 2 blocks, or for a restore. -/
def leaseList (format : Nat) : List Byte :=
  le 2 format ++ le 2 0 ++ le 4 1 ++ le 8 1 ++ (if format = 1 then [5] else [0]) ++ le 7 0 ++ le 8 0 ++ le 4 (if format = 1 then 2 else 0) ++
    le 28 0 ++ [5, 0, 0, 0] ++ le 4 100 ++ le 8 64
/-- Modules 7 and 10 hold an empty shard each; step 0 of this module, 10, is the oldest. -/
def storageQp (q : Nat) : Qp := { cmdQp with num := 16 + q, kind := .storage 5 q }
def storeUp (format : Nat) : State :=
  let s := hostUp (leaseList format)
  { s with half := ⟨{ halfUp with qps := [cmdQp, storageQp 0, storageQp 1] }, Half.reset⟩,
           steps := { (stepping id).steps with next := 1 }, host := { s.host with targets := [storeTarget] }
           tundish := { Tundish.reset with placement := some { place (List.replicate 160 0) with group := 2 } } }
def wholePart : ShardPart := ⟨0, 1, 0, 0⟩
theorem test_storage_met :
    soundly (hostUp []) (msg targetBody) 0x0050 [(0, 1), (1, 1), (2, 2), (4, 16), (20, 4), (24, 2), (32, 3)] .held = true ∧
    soundly (storeUp 1) (msg (listBody 0)) 0x0051 [(0, 8), (8, 4), (16, 8), (24, 4)] .held = true ∧ (storeUp 1).ingotStepOk 0 = true ∧
    (storeUp 1).ingotStepOk 1 = false ∧
    (storeUp 1).writes { place (List.replicate 160 0) with group := 2 } 0 = some wholePart ∧
    headBad (leaseList 1) 1 3 [(8, 8), (16, 1), (24, 8), (32, 4)] = none ∧ (storeUp 1).leaseBad (leaseList 1) 1 = none ∧
    layIngot wholePart (leasesOf (leaseList 1) 1) 0 2 = some [] ∧ headBad (leaseList 2) 2 2 [(8, 8)] = none := by decide +kernel
theorem test_storage_target : ((after (.storageTarget (msg targetBody) true 1000 true 0) (hostUp [])).target 5) = some storeTarget ∧
    answered (after (.storageTarget (msg targetBody) true 1000 false 0) (hostUp [])) = some (4, 20) := by decide +kernel
theorem test_ingot_and_restore : ((after (.ingot (msg (listBody 0))) (storeUp 1)).ingot.map IngotRun.stage) = some .waiting ∧
    answered (after (.ingot (msg (listBody 1))) (storeUp 1)) = some (4, 0) ∧
    ((after (.restore (msg (listBody 0))) (storeUp 2)).restore.map (fun r => r.cmds.map (fun c => (c.num, c.half, c.target, c.use)))) =
      some [(1, 0, 5, .readManifest 0)] := by decide +kernel

/-- One frozen extent of 4,096 bytes on crucible 0, written by half 0's command 1. -/
def extent : Extent := ⟨5, 0, 2, 1, 64, 0, 4096, 4096, none, true, false, 0⟩
def ingotRun (stage : IngotStage) (cmds : List NvmeCmd) : IngotRun :=
  ⟨0, { place (List.replicate 160 0) with group := 2 }, 0, 1, 5, 0, 2, [extent], stage, cmds, none⟩
def writing (g : IngotRun) (f : Steps → Steps) : State := { storeUp 1 with ingot := some g, steps := f (storeUp 1).steps }
def checked1 (t : Steps) : Steps := { t with oldest := 1, everChecked := true }
theorem test_ingot_start_met : (writing (ingotRun .waiting []) checked1).ingotDue (ingotRun .waiting []) = true ∧
    (writing (ingotRun .waiting []) id).ingotDue (ingotRun .waiting []) = false ∧
    (writing (ingotRun .waiting []) checked1).ingotPart (ingotRun .waiting []) = some wholePart ∧
    ((writing (ingotRun .waiting []) checked1).crucible 0).extentReady (ingotRun .waiting []) ⟨0, 1, 4, 0⟩ { extent with kind := 0, count := 1 } =
      false := by decide +kernel
def unissued : IngotRun := { ingotRun .waiting [] with extents := [{ extent with issued := false }] }
theorem test_ingot_start : ((writing unissued checked1).crucible 0).extentReady unissued wholePart { extent with issued := false } = true ∧
    (writing unissued checked1).engineUp ((writing unissued checked1).halfFor 0) = true ∧
    ((after .ingotStart (writing unissued checked1)).ingot.map (fun r => r.cmds.map (fun c => (c.num, c.half, c.target, c.use)))) =
      some [(1, (writing unissued checked1).halfFor 0, 5, .extent 0)] ∧
    (writing unissued checked1).openQueues ((writing unissued checked1).halfFor 0) [] 5 = [1] ∧
    (writing unissued checked1).storageDown ((writing unissued checked1).halfFor 0) 5 = false ∧ (hostUp []).storageDown 0 5 = true := by decide +kernel
theorem test_read_by_the_target :
    (ingotRun .extents [⟨1, 0, 5, 0, .extent 0⟩]).cmds.any (fun c => c.half == 0 && c.use == .extent 0) = true ∧
    ((after (.targetRdmaRead fr 0) (writing (ingotRun .extents [⟨1, 0, 5, 0, .extent 0⟩]) checked1)).ingot.map (fun g => g.extents.map Extent.done)) =
      some [true] := by decide +kernel
theorem test_last_flush : (after (.nvmeCompletion fr 5 1 0 []) (writing (ingotRun .manifestFlush [⟨1, 0, 5, 0, .manifestFlush⟩]) checked1)).ingot = none ∧
    (after (.nvmeCompletion fr 5 1 0x0281 []) (writing (ingotRun .extents [⟨1, 0, 5, 0, .extent 0⟩]) checked1)).ingot = none := by decide +kernel
def restoring : State :=
  { storeUp 2 with restore := some ⟨0, false, 0, [], [⟨5, 100, 64⟩], [], [], [], [⟨1, 0, 5, 0, .readManifest 0⟩], none⟩ }
theorem test_failed_restore : (after (.nvmeCompletion fr 5 1 0x0281 []) restoring).restore = none ∧
    (after (.nvmeCompletion fr 5 1 0x0281 []) restoring).tundish.shardsBad = true := by decide +kernel

/-! ### Firmware -/

def updateBody (len : Nat) : List Byte := rangeBody len ++ le 4 65536
theorem test_update_write : soundly (hostUp []) (msg (updateBody 65536)) 0x0070 [(0, 4), (8, 8), (16, 4), (20, 4)] .held = true ∧
    answered (after (.updateWrite (msg (updateBody 0))) (hostUp [])) = some (0, 0) ∧
    answered (after (.updateWrite (msg (updateBody 32768))) (hostUp [])) = some (4, 16) := by decide +kernel
def retrying : State := { hostUp [] with boot := { (hostUp []).boot with update := some ⟨0, 7, 1, 0, 1, 0, [], true⟩ } }
theorem test_failed_sector : answered (after (.flashSectorDone false) retrying) = some (9, 9) ∧ (after (.flashSectorDone false) retrying).boot.update = none ∧
    retrying.qpWorks 0 7 = true := by decide +kernel
def act (when_ : Byte) : List Byte := le 8 3 ++ [when_]
theorem test_activate : soundly (hostUp []) (msg (act 1)) 0x0071 [(0, 8), (8, 1)] .held = true ∧
    ((after (.activate (msg (act 1))) (hostUp [])).boot.activation.map Activation.stage) = some 1 ∧
    ((after (.activate (msg (act 0))) quiet).boot.activation.map Activation.stage) = some 2 := by decide +kernel
def acting (stage : Nat) : State := { quiet with boot := { quiet.boot with activation := some ⟨stage, 3, []⟩ } }
def returningUp : State :=
  { acting 3 with cru := (acting 3).cru.set 0 { Crucible.reset with fw := some ⟨0, 1, 0, 1, [], 0, []⟩ }, steps := { Steps.reset with everChecked := true, checked := 3 } }
theorem test_activation_start : ((after .activationStart { acting 1 with steps := { Steps.reset with everChecked := true, checked := 3 } }).boot.activation.map
    Activation.stage) = some 2 ∧ (acting 1).anyActive = false ∧ (hostUp []).anyActive = true := by decide +kernel
theorem test_activation_parts : (returningUp.crucible 0).returning = true ∧ ((after (.crucibleRestartDone 0) returningUp).crucible 0).service = .inService ∧
    (after (.activationPauseTimeout .portDie) (acting 2)).boot.activation = none ∧
    (after .trialTimeout { quiet with boot := { quiet.boot with trial := some 1 } }).boot.image = none := by decide +kernel

/-! ### The host ports -/

def req (rkey : W32) (off : Nat) (data : List Byte) : RdmaReq := ⟨7, rkey, off, data⟩
def reply1 (i : Instr) (s : State) : List (HalfIx × EthMsg) := ethOut (after i s)
theorem test_rdma_met : Works (hostUp []) 0 7 cmdQp ∧ Usable (hostUp []) 0 0x77 65534 2 1 hostWindow ∧ Usable (hostUp []) 0 0x77 0 2 0 hostWindow ∧
    (hostUp []).host.windows.find? (fun w => w.rkey == 0x78) = none := by unfold Works Usable; decide +kernel
theorem test_rdma : Memory.readBytes ((after (.rdmaWrite fr (req 0x77 65534 [3, 4])) (hostUp [])).crucible 0).hbm.mem 0x2000FFFE 2 = [3, 4] ∧
    reply1 (.rdmaWrite fr (req 0x77 65535 [3, 4])) (hostUp []) = [(0, .rdmaReply 7 .remoteAccessNak)] ∧
    reply1 (.rdmaRead fr (req 0x77 0 []) 2) (hostUp [9, 8]) = [(0, .rdmaReply 7 (.data [9, 8]))] ∧
    reply1 (.rdmaWrite { fr with ce := true } (req 0x78 0 [])) (hostUp []) = [(0, .cnp 7), (0, .rdmaReply 7 .remoteAccessNak)] := by decide +kernel
def reading (w : List Outgoing) : State := { hostUp [] with half := ⟨{ halfUp with waits := w }, Half.reset⟩ }
def heldReply : Outgoing := ⟨⟨none, some 3, some 24, true⟩, 1, .rdmaReply 7 (.data [])⟩
def errorAfter (i : Instr) (s : State) : List Bool := (after i s).half.h0.qps.map Qp.error
theorem test_rdma_limits : errorAfter (.rdmaRead fr (req 0x77 0 []) (2 ^ 31 + 1)) (hostUp []) = [true] ∧
    errorAfter (.rdmaRead fr (req 0x77 0 []) 2) (reading (List.replicate 16 heldReply)) = [true] ∧
    errorAfter (.rdmaRead fr (req 0x77 0 []) 2) (reading (List.replicate 15 heldReply)) = [false] ∧
    (reading (List.replicate 16 heldReply)).half.h0.readsWaiting 7 = 16 ∧
    reply1 (.sendWithoutReceiveBuffer fr 7) { powered .waking (hostUp []) with held := List.replicate 16 (.stopCommand (msg [])) } =
      [(0, .rdmaReply 7 .rnrNak)] := by decide +kernel
def laidRing : State :=
  let s := inRing
  { s with host := { s.host with rings := s.host.rings.map (fun r => { r with base := some 0x30000000 }) } }
theorem test_announcement : laidRing.rdmaGate 0 0x99 0 2 1 = .inr (⟨2, 0x99, 0, 2, 0, 256, some 4⟩, 0x30000000) ∧
    ((after (.rdmaWriteWithImmediate fr (req 0x99 0 [1, 2]) 0x04000003) laidRing).ring 4).map Ring.seqs = some [3] ∧
    ((after (.rdmaWriteWithImmediate fr (req 0x99 0 [1, 2]) 0x04000004) laidRing).ring 4).map Ring.seqs = some [] := by decide +kernel
def dataUp : State := { hostUp [] with half := ⟨{ halfUp with qps := [{ cmdQp with kind := .data }] }, Half.reset⟩ }
theorem test_data_qp_send : reply1 (.dataQpSend fr 7) dataUp = [(0, .rdmaReply 7 .invalidRequestNak)] ∧
    ((after (.dataQpSend fr 7) dataUp).half.h0.qps.map Qp.error) = [true] := by decide +kernel
theorem test_output_ring : (after (.outputEntrySend 4) (ringUp outRing)).out.length = 1 ∧
    ((after (.outputEntrySend 4) (ringUp outRing)).ring 4).map Ring.seqs = some [] ∧
    (after (.outputEntrySend 4) (ringUp { outRing with seqs := [5] })).out = [] := by decide +kernel

def qpAfter (i : Instr) (q : Qp) : Option Qp := ((after i { hostUp [] with half := ⟨{ halfUp with qps := [q] }, Half.reset⟩ }).half.h0.qps)[0]?
theorem test_rates : (qpAfter (.cnp fr 7) cmdQp).map Qp.rate = some 200000 ∧ (qpAfter (.cnp fr 7) { cmdQp with rate := 1500 }).map Qp.rate = some 1000 ∧
    (qpAfter (.cnpRateIncrease 0 7) { cmdQp with rate := 398000 }).map Qp.rate = some 400000 ∧
    (qpAfter (.cnp fr 7) { cmdQp with cutAt := some 0 }).map Qp.rate = some 400000 := by decide +kernel
theorem test_retries : (qpAfter (.roceAckTimeout 0 7) cmdQp).map Qp.retries = some 1 ∧
    (qpAfter (.roceAckTimeout 0 7) { cmdQp with retries := 7 }).map Qp.error = some true ∧
    (qpAfter (.roceAck fr 7 .rnrNak) { cmdQp with rnrRetries := 6 }).map Qp.error = some true ∧
    (qpAfter (.roceAck fr 7 .rnrNak) { cmdQp with rnrLimit := 7, rnrRetries := 9 }).map Qp.error = some false ∧
    (qpAfter (.roceAck fr 7 .nak) cmdQp).map Qp.error = some true := by decide +kernel
theorem test_connections : (after (.cmReq fr ⟨2, 4, 0, 1024, 5, 6⟩) (hostUp [])).half.h0.qps.length = 2 ∧
    (after (.cmReq fr ⟨1, 4, 0, 1024, 5, 6⟩) (hostUp [])).half.h0.qps.length = 2 ∧ (after (.cmReq fr ⟨3, 4, 0, 1024, 5, 6⟩) (hostUp []) |> ethOut) = [(0, .cmRej)] ∧
    reply1 (.cmReq fr ⟨2, 4, 0, 3, 5, 6⟩) (hostUp []) = [(0, .cmRej)] ∧
    ((after (.cmReq fr ⟨2, 4, 0, 2048, 5, 6⟩) (hostUp [])).half.h0.qps.map Qp.mtu) = [4096, 2048] ∧
    (hostUp []).answers 0 = true ∧ (hostUp []).answers 1 = false := by decide +kernel
def eventUp : State :=
  { hostUp [] with half := ⟨{ halfUp with eventQp := some 7, eventBlocked := true, eventQueue := [⟨1, 0, 0, 0, []⟩, ⟨2, 1, 0, 0, []⟩] }, Half.reset⟩ }
theorem test_events_leave : (after (.eventQueueSpace 0 1) eventUp |> ethOut) = [(0, .event 7 ⟨1, 0, 0, 0, []⟩)] ∧
    (after (.eventQueueSpace 0 1) eventUp).half.h0.eventBlocked = true ∧ (after (.eventQueueSpace 0 2) eventUp).half.h0.eventBlocked = true ∧
    (after (.eventQueueSpace 0 3) eventUp).half.h0.eventBlocked = false := by decide +kernel
def addressed : State := { hostUp [] with half := ⟨{ halfUp with net := ⟨some 0x0A000002, some 5, []⟩ }, Half.reset⟩ }
theorem test_frames : reply1 (.arp fr 0x0A000002) addressed = [(0, .arpReply 0x0A000002)] ∧ reply1 (.arp fr 0x0A000003) addressed = [] ∧
    reply1 (.neighbourDiscovery fr 5) addressed = [(0, .neighbourAdvert 5)] ∧ reply1 (.icmpEcho fr 4 0x0A000002 [1]) addressed = [(0, .echoReply [1])] ∧
    (after (.pfcPause 0 2 true) addressed).half.h0.paused = 4 ∧ (after (.pfcPause 0 1 true) addressed).half.h0.paused = 0 ∧
    addressed.ownV6 0 5 = true := by decide +kernel
/-- What waits for a paused priority leaves when the pause ends (R438). -/
def pausing : State := { hostUp [] with half := ⟨{ halfUp with paused := 8, pfcEnable := 8, waits := [heldReply] }, Half.reset⟩ }
theorem test_pause : (after (.pfcPause 0 3 false) pausing).half.h0.waits = [] ∧ ethOut (after (.pfcPause 0 3 false) pausing) = [(0, .rdmaReply 7 (.data []))] ∧
    (after (.pfcPause 0 2 false) pausing).half.h0.waits = [heldReply] := by decide +kernel
theorem test_failures : (after (.portDieHalfFailure 0) (hostUp [])).half.h0.qps = [] ∧ (after .alwaysOnDomainFailure (hostUp [])).portDieUp = false ∧
    (after (.ethLinkDown 0) (hostUp [])).half.h0.linkUp = false ∧ (after (.ethLinkUp 1) (hostUp [])).half.h1.linkUp = true := by decide +kernel

/-! ### Power and boot -/

def off (p : Power) : State := { State.reset with power := p }
theorem test_power_up : (after (.standbyEntry 5) State.reset).power.mode = .standby ∧ (after (.standbyEntry 5) State.reset).power.slotId = 5 ∧
    (after .pwrEnHigh (off { Power.reset with off := false })).power.mode = .poweringUp ∧
    (after .powerUpComplete (off { Power.reset with off := false, mode := .poweringUp })).power.mode = .on ∧
    (after .thermTripRelease (off { Power.reset with tripped := true })).power.tripped = false := by decide +kernel
theorem test_power_down : (after .railFault (hostUp [])).power.mode = .poweringDown ∧ (after (.inputLost 43999) (hostUp [])).power.mode = .poweringDown ∧
    (after (.inputOverVoltage 60000) (hostUp [])).power.mode = .on ∧
    (after .powerDownComplete (off { Power.reset with mode := .poweringDown, off := false })).power.off = true ∧
    (after (.sysRstN 9) (hostUp [])).power.slotId = 9 ∧ ((after (.sysRstN 9) (hostUp [])).crucible 0).service = .resetting := by decide +kernel
/-- BANK of queue pair 7 waits until no port is Up. -/
def entering (m : PortMode) : State :=
  let s := hostUp []
  { s with power := { s.power with mode := .enteringBanked, bankCmd := some (0, 7, 9) }
           cru := s.cru.set 0 ((s.crucible 0).putPort 0 { portUp 0 with mode := m }) }
theorem test_banked : (after .bankedEntered (entering .keepAlive)).power.mode = .banked ∧ (after .bankedEntered (entering .up)).power.mode = .enteringBanked ∧
    (entering .keepAlive).portsClosed = true ∧ (entering .up).portsClosed = false ∧ (entering .keepAlive).qpWorks 0 7 = true ∧
    (after (.wakeEnd 0) { hostUp [] with power := { (hostUp []).power with mode := .waking, wakeCmds := [(0, 7, 9)] } }).power.mode = .on := by
  decide +kernel
def cool : TempReading := ⟨[100, 100, 100, 100], List.replicate 8 100, 100⟩
theorem test_sensors : (after (.temperatureSample cool) moduleUp).power.mode = .on ∧ tripOf cool = none ∧
    (after (.temperatureSample { cool with portDie := 460 }) moduleUp).power.tripped = true ∧ (tripOf { cool with portDie := 459 }).isSome = false ∧
    (after (.powerSample 54000 48149) moduleUp).power.level = 4 ∧ (after (.vinWarn 46000) moduleUp).power.event.getLsbD 5 = true ∧
    (after (.vinWarn 46001) moduleUp).power.event.getLsbD 5 = false := by decide +kernel
theorem test_pmbus : (after .pmbusRevision moduleUp).out = [.pmbus [0x33]] ∧ (after (.unsupportedPmbusCommand 0x77) moduleUp).power.cml = true ∧
    linearNear (linearFit 54000 1000) 54000 1000 = true ∧ linearNear (linearFit 0 1) 0 1 = true ∧
    (after .clearFaults { moduleUp with power := { moduleUp.power with event := 0x3F } }).power.event = 0 ∧
    (after .readVin State.reset).out = [] := by decide +kernel

/-- A slot that was never written holds no header: the first reason of R625. -/
def unbooted (policy : Bool) : State :=
  { moduleUp with boot := { Boot.reset with otp := [], slotA := [], slotB := [], loaded := true, policy := policy } }
theorem test_boot_fails : verifyComponent [] [] 0 = 1 ∧ (unbooted true).openStore.boot.policy = true ∧
    (unbooted true).openStore.slotState.trial = false ∧ (unbooted true).portDieUp = true := by decide +kernel
/-- The hypothesis is an image in slot A that verifies; the rest of what a stable boot asks for is met. -/
theorem test_boot_met (slot : List Byte) (h : verifyComponent [] slot 0 = 0) :
    let s := { unbooted true with boot := { (unbooted true).boot with slotA := slot } }
    s.portDieUp = true ∧ s.boot.image = none ∧ s.boot.romUp = false ∧ s.openStore.slotState.active = 0 ∧ s.openStore.slotState.trial = false ∧
    verifyComponent s.openStore.boot.otp (s.openStore.boot.slot s.openStore.slotState.active) 0 = 0 := by
  refine ⟨rfl, rfl, rfl, ?_, ?_, ?_⟩ <;> first | rfl | exact h
/-- The same with a SLOT_STATE record that names slot A confirmed. -/
theorem test_boot_confirmed_met (slot : List Byte) (h : verifyComponent [] slot 0 = 0) :
    let s := { unbooted true with boot := { (unbooted true).boot with slotA := slot },
                                  store := { (unbooted true).store with records := [⟨0x02, 0, 1, 1, List.replicate 16 0, 0⟩] } }
    s.openStore.slotState.active = 0 ∧ s.openStore.slotState.trial = false ∧ s.openStore.slotState.confirmed = 0 ∧
    verifyComponent s.openStore.boot.otp (s.openStore.boot.slot s.openStore.slotState.active) 0 = 0 := by
  refine ⟨rfl, rfl, rfl, ?_⟩; exact h
def romState : State := moduleUp.putCrucible 0 Crucible.reset
theorem test_crucible_boot_met : romState.portDieUp = true ∧ romState.boot.image.isSome = true ∧ (romState.crucible 0).service = .resetting ∧
    (romState.crucible 0).frozen = false ∧ (romState.crucible 0).fw = none ∧ romState.boot.activation = none := by decide +kernel

/-- R478's check value, and R626's example. -/
theorem test_crc64 : crc64 [0x31, 0x32, 0x33, 0x34, 0x35, 0x36, 0x37, 0x38, 0x39] = 0x6C40DF5F0B497347 := by decide +kernel
theorem test_fused_version : fusedVersion (0x1F :: List.replicate 31 0) = 5 ∧ fusedVersion (List.replicate 31 0 ++ [0x80]) = 256 ∧ fusedVersion [] = 0 := by
  decide +kernel

/-! ### Placement, kernels and the optimizer -/

/-- Tilings by R173's table and R174; C(o) shares by R290. -/
theorem test_tilings : Tiling.forward.cycles 512 4096 64 2 = 131072 ∧ Tiling.dw.cycles 512 4096 64 2 = 131072 ∧ dxTiling 64 96 = .dxB ∧
    dxTiling 65 96 = .dxA ∧ dxTiling 65 128 = .dxA ∧ stageEnd [3, 1, 1, 1] 2 0 = 1 ∧ stageEnd [1, 1, 1, 1] 2 0 = 2 ∧ stageEnd [9, 1, 1] 3 1 = 0 ∧
    emptyStage [0, 2, 2] 4 = some 1 ∧ blockDrains 1048576 = 0 ∧ blockDrains 3145728 = 48 := by decide
/-- The example under R294: 120,000 groups of each shard in a crucible. -/
theorem test_layout : (Riser.mk 120000 120000 false 0 [] false 0 0).region3 = 0x793000000 ∧
    (Riser.mk 120000 120000 false 0 [] false 0 0).region4 = 0x7B04C0000 ∧
    regionStart [0x40000000, 480000 * 65536, 480000 * 1024, 0, 120000 * 65536] 5 = 0x9850C0000 ∧
    tileHome false 0 false 512 512 3 = (1, 1) ∧ tileHome true 160 true 512 512 3 = (1, 161) ∧ coreGroups 120000 7 = 240 := by decide +kernel
/-- The example under R423. -/
theorem test_cast_masks : castMasks [16, 17, 36, 37, 56, 57] = [(0, 0x0300003000030000)] ∧ gradChunk 2 = 1056 ∧ gradChunk 0 = 4096 := by
  decide +kernel
/-- The example under R252, by head; spans by R237; masks by R236. -/
def attn64 : Attn := ⟨10485760, 0, 1, 0, 32, 128, 5, 5, 0, false, 64⟩
def attnFold : Attn := ⟨32768, 7, 100, 0, 1, 64, 5, 5, 2, true, 2⟩
theorem test_attention : (attn64.amounts 163840).home = 8 * 128 * 163840 ∧ (attn64.amounts 163840).slots = 4 * 2 * 128 * 163840 ∧
    (attn64.amounts 163840).running = 772 * 163840 ∧ (attn64.amounts 163840).sent = 63 * 512 * 163840 ∧
    (attn64.amounts 163840).sentKey = 63 * 524 * 163840 ∧ attn64.spanTokens 1 = 163840 ∧
    attnFold.span 0 = [0, 1, 6, 7] ∧ attnFold.span 1 = [2, 3, 4, 5] ∧ attnFold.sees 500 401 = true ∧ attnFold.sees 500 400 = false ∧
    attnFold.sees 500 501 = false ∧ attnFold.spanAt false 0 1 = 1 ∧ attnFold.next true 0 = 1 ∧ headCrucible 30 = 2 ∧
    layoutChoice 1 0xFF = true ∧ layoutChoice 0 0xFF = false := by decide +kernel
/-- The free signals that a rank takes for a slot are the one held at the start and those its successor sends; a tile's chunks come in its
visit order (R239, R245, R246). -/
def ringAttn : Attn := ⟨12289, 0, 0, 0, 1, 64, 5, 5, 0, false, 4⟩
theorem test_ring : (∀ s ∈ slotsFree, (ringAttn.ringProgram false 2 0).count (.takeFree s) =
    slotsFree.count s + (ringAttn.ringProgram false 3 0).count (.signalFree s 2)) ∧
    ringChunks (ringAttn.ringProgram false 3 0) 192 = ringAttn.visits 192 := by decide +kernel
/-- A channel and its local address give the offset back; the place of a local address (R310). -/
theorem test_interleave : hbmOffset (hbmChannel 0xABCDE1234) (hbmLocal 0xABCDE1234) = 0xABCDE1234 ∧
    hbmPlace 0x20008401 = ⟨0x4001, 0, 0, 1, 1⟩ := by decide
/-- 65 ones: lane 0 takes two. Spare lanes hold −∞ for a maximum (R224, R225). -/
theorem test_rows : rowSum (List.replicate 65 one32) = 0x42820000 ∧ rowMax (List.replicate 65 0xBF800000) = 0xBF800000 ∧
    rowDot [0x40000000, 0x40400000] [one32, one32] = 0x40A00000 ∧ statBytes 1 2 = [1, 0, 0, 0, 2, 0, 0, 0] := by decide +kernel
/-- (3 − 1)² times 1/1, and its gradient (3 − 1) × 2. -/
theorem test_mse : mseLoss 1 [mseRows [[0x40400000]] [[one32]]] = 0x40800000 ∧ mseGrad 1 [[0x40400000]] [[one32]] = [[0x40800000]] := by
  decide +kernel
/-- t = 1, η = 1, β1 = 0.5, β2 = 0.75, λ = 0: a and c are 2 (R271). -/
theorem test_factors : stepFactors one32 0x3F000000 0x3F400000 0 1 = [0x40000000, 0x40000000, one32, 0x3F000000, 0x3E800000] := by
  decide +kernel
/-- A block ends at term 65,536: 5 + 1 × 1 is the first block's sum, 1 × 1 starts the second (R257). -/
theorem test_blocks : Chain.run true false 65535 ⟨0x40A00000, 0⟩ [(one32, one32), (one32, one32)] = ⟨one32, 0x40C00000⟩ ∧
    Chain.total true 70000 ⟨one32, 0x40C00000⟩ = 0x40E00000 ∧
    Chain.run false false 65535 ⟨0x40A00000, 0⟩ [(one32, one32), (one32, one32)] = ⟨0x40E00000, 0⟩ := by decide +kernel
/-- Operators 0 to 2 are recomputed before the backward pass of 3, which is kept (R266's example, one block). -/
theorem test_segments : segmentsOf (fun j => j % 4 == 3) [] [0, 1, 2, 3, 4, 5] = [[0, 1, 2, 3], [4, 5]] := by decide
/-- A core pads up to U and no further (R275). -/
theorem test_pads : ((((withCru { crucibleUp with core := { crucibleUp.core with logi := [(3, { LogCore.reset with mode := .running })] } }).crucible 0).padTo 9 [3, 4]).phys 3).seq = 9 := by decide +kernel
/-- The example under R584: lane 5 of port 4 of crucible 2. -/
theorem test_pairs : fabricPair 2 4 5 false = (5, 82) ∧ fabricPair 2 4 5 true = (5, 83) ∧ fabricPair 3 12 8 true = (8, 107) ∧
    hostPair 1 3 true = 15 := by decide
/-- CRC-32C of "123456789"; both copies of a record are valid, a torn one is not (R597, R600). -/
def recOne : Rec := ⟨0x08, 2, 7, 1, [1], 0⟩
theorem test_record_copy : crc32c ((List.range 9).map (fun i => BitVec.ofNat 8 (0x31 + i))) = 0xE3069283 ∧
    (recOne.copyBytes 1).length = 64 ∧ copyValid (recOne.copyBytes 0) 64 = true ∧ copyValid (recOne.copyBytes 1) 64 = true ∧
    (recOne.copyBytes 1).getD 18 0 = 1 ∧ copyValid ((recOne.copyBytes 0).set 32 2) 64 = false := by decide +kernel
/-- The hour in which five entries did not fit the archive is over: a TYPE 7 entry counts them (R606). -/
theorem test_archive_hour :
    let t := { StoreBlock.reset with ready := true, archCount := 1000, archOver := 5 }
    ((t.closeHour 90000000000).writing.map (fun w => (w.1.kind, w.1.key, (w.1.payload.getD 0 0), w.1.payload.getD 16 0))) =
      some (kHistory, 4, 7, 5) ∧ (t.closeHour 89999999999) = t := by decide +kernel
end Sys2Proof.Machine.Tests
end

section
/-!
SUPPORT. R62: the read-back and frame rules of the scalar, address and vector registers of a core, and the obligation they settle.
-/
namespace Sys2Proof.Machine

/-! ### Scalar registers -/

@[simp] theorem PhysCore.sreg_zero (p : PhysCore) : p.sreg 0 = 0 := if_pos rfl

@[simp] theorem PhysCore.setS_zero (p : PhysCore) (v : W64) : p.setS 0 v = p := if_pos rfl

theorem PhysCore.sreg_of_ne_zero (p : PhysCore) {i : BitVec 5} (hi : i ≠ 0) : p.sreg i = Store.get zero64 p.s i.toNat := if_neg hi

theorem PhysCore.setS_s_of_ne_zero (p : PhysCore) {i : BitVec 5} (hi : i ≠ 0) (v : W64) :
    (p.setS i v).s = Store.set zero64 p.s i.toNat v := by rw [PhysCore.setS, if_neg hi]

theorem PhysCore.sreg_setS_same (p : PhysCore) {i : BitVec 5} (hi : i ≠ 0) (v : W64) : (p.setS i v).sreg i = v := by
  rw [PhysCore.sreg_of_ne_zero _ hi, PhysCore.setS_s_of_ne_zero p hi, Store.get_set_same]

/-- Either register may be s0: a write to s0 changes nothing, and s0 reads 0 whatever is written. -/
theorem PhysCore.sreg_setS_of_ne (p : PhysCore) {i j : BitVec 5} (hji : j ≠ i) (v : W64) : (p.setS i v).sreg j = p.sreg j := by
  by_cases hi : i = 0
  · rw [hi, PhysCore.setS_zero]
  · by_cases hj : j = 0
    · rw [hj, PhysCore.sreg_zero, PhysCore.sreg_zero]
    · rw [PhysCore.sreg_of_ne_zero _ hj, PhysCore.sreg_of_ne_zero _ hj, PhysCore.setS_s_of_ne_zero p hi,
        Store.get_set_other _ _ (BitVec.toNat_ne_iff_ne.mpr hji.symm)]

/-! ### Address registers -/

@[simp] theorem PhysCore.areg_setA_same (p : PhysCore) (i : BitVec 5) (w : W48) : (p.setA i w).areg i = w :=
  Store.get_set_same p.a i.toNat w

theorem PhysCore.areg_setA_of_ne (p : PhysCore) {i j : BitVec 5} (hji : j ≠ i) (w : W48) : (p.setA i w).areg j = p.areg j :=
  Store.get_set_other p.a w (BitVec.toNat_ne_iff_ne.mpr hji.symm)

/-! ### Vector registers -/

theorem PhysCore.lane_setLanes_same (p : PhysCore) (i : BitVec 5) (ws : List W32) {l : Nat} (hl : l < ws.length) :
    (p.setLanes i 0 ws).lane i l = ws.getD l 0 := by
  rw [PhysCore.lane, PhysCore.setLanes_get, if_pos (by omega), Nat.add_zero, Nat.add_sub_cancel_left]

/-- Vector registers lie 64 lanes apart in the lane table, so a write within one register's 64 lanes reaches no other. -/
theorem PhysCore.lane_setLanes_of_ne (p : PhysCore) {i j : BitVec 5} (hji : j ≠ i) (ws : List W32) (hws : ws.length ≤ 64) {l : Nat}
    (hl : l < 64) : (p.setLanes i 0 ws).lane j l = p.lane j l := by
  have hne : j.toNat ≠ i.toNat := BitVec.toNat_ne_iff_ne.mpr hji
  rw [PhysCore.lane, PhysCore.setLanes_get, if_neg (by omega), PhysCore.lane]

/-- Settles O2, from the read-back and frame rule of each kind of register. -/
theorem registerFile : Obligations.RegisterFile := by
  unfold Obligations.RegisterFile
  intro p i j v w ws l
  exact ⟨p.sreg_zero, p.setS_zero v,
    fun hi => p.sreg_setS_same hi v, fun hji => p.sreg_setS_of_ne hji v,
    p.areg_setA_same i w, fun hji => p.areg_setA_of_ne hji w,
    fun hlen hl => ⟨p.lane_setLanes_same i ws (by omega), fun hji => p.lane_setLanes_of_ne hji ws hlen.le hl⟩⟩

end Sys2Proof.Machine
end

section
/-!
SUPPORT. The ends of an instruction that issues with an illegal-field check, a next index and one later condition (R124), a scalar
unit's halt for its retirement (R470), and the scratchpad bytes a store writes with their parity (R128, R468).
-/
namespace Sys2Proof.Machine

/-! ### Field checks (R121) -/

@[simp] theorem badReg16_eq_false (i : BitVec 5) : badReg16 i = false ↔ i.toNat < 16 := by simp [badReg16]

/-! ### The ends of an instruction at issue (R124) -/

/-- What an instruction with word `word` does on core `k`: ILLEGAL unless its fields are good, PC_RANGE for a next index of 8192 or above,
then the fault `bad` where there is one, and `done` with none of them. -/
structure IssueEnds (i : Instr) (k : CoreId) (s : State) (word : W64) (fields : Prop) (next : Nat) (bad : Option (Byte × W32))
    (done : Prop) : Prop where
  illegal : ¬fields → Faults i k s 0x01 (word.setWidth 32)
  range : fields → 8192 ≤ next → Faults i k s 0x02 (BitVec.ofNat 32 next)
  faults : fields → next < 8192 → ∀ c v, bad = some (c, v) → Faults i k s c v
  completes : fields → next < 8192 → bad = none → done

/-- An instruction that has no tally field and whose faults at issue are those of `State.issue` meets these ends. -/
theorem issueEnds_of_issue {s : State} {k : CoreId} {i : Instr} {op : Byte} {bits : BitVec 56} {f : LogCore → PhysCore → Issue}
    {illegal : Bool} {fields : Prop} {next : Nat} {later : List (Option (Byte × W32))} {bad : Option (Byte × W32)} {effect : Effect}
    {done : Prop} (hi : s.issues k) (hq : f (s.logi k) (s.phys k) = ⟨illegal, none, next, later, effect⟩)
    (hfields : illegal = false ↔ fields) (hbad : later.findSome? id = bad)
    (hx : ∀ cv, (f (s.logi k) (s.phys k)).fault (instrWord op bits) = some cv → exec i s = .next (s.issue k op bits f))
    (hdone : (f (s.logi k) (s.phys k)).fault (instrWord op bits) = none → done) :
    IssueEnds i k s (instrWord op bits) fields next bad done := by
  have fault_is {c : Byte} {v : W32} (h : (f (s.logi k) (s.phys k)).fault (instrWord op bits) = some (c, v)) : Faults i k s c v :=
    faults_of_issue (hx _ h) hi h
  refine ⟨fun hf => fault_is ?_, fun hf hn => fault_is ?_, fun hf hn c v hb => fault_is ?_, fun hf hn hb => hdone ?_⟩
  · have hill : illegal = true := by rwa [← hfields, Bool.not_eq_false] at hf
    simp [hq, Issue.fault, hill]
  · simp [hq, Issue.fault, hfields.mpr hf, hn, detail32]
  · simp [hq, Issue.fault, hfields.mpr hf, Nat.not_le.mpr hn, hbad, hb]
  · rw [hq]
    exact Issue.fault_none (hfields.mpr hf) rfl hn (hbad.trans hb)

/-- An instruction that executes whenever it has no fault. -/
theorem issueEnds_of_run {s : State} {k : CoreId} {i : Instr} {op : Byte} {bits : BitVec 56} {f : LogCore → PhysCore → Issue}
    {illegal : Bool} {fields : Prop} {next : Nat} {later : List (Option (Byte × W32))} {bad : Option (Byte × W32)} {p' : PhysCore}
    (hx : exec i s = .next (s.issue k op bits f)) (hi : s.issues k)
    (hq : f (s.logi k) (s.phys k) = ⟨illegal, none, next, later, .run (s.logi k) p'⟩) (hfields : illegal = false ↔ fields)
    (hbad : later.findSome? id = bad) :
    IssueEnds i k s (instrWord op bits) fields next bad (Retires i k s (s.logi k) p' next) :=
  issueEnds_of_issue hi hq hfields hbad (fun _ _ => hx) fun hnone => by
    have hr := retires_of_issue hx hi hnone (congrArg Issue.effect hq)
    rwa [hq] at hr

/-- An instruction that executes whenever its fields are good and its next index is in range. -/
theorem issueEnds_of_unconditional {s : State} {k : CoreId} {i : Instr} {op : Byte} {bits : BitVec 56} {f : LogCore → PhysCore → Issue}
    {illegal : Bool} {fields : Prop} {next : Nat} {p' : PhysCore} (hx : exec i s = .next (s.issue k op bits f)) (hi : s.issues k)
    (hq : f (s.logi k) (s.phys k) = ⟨illegal, none, next, [], .run (s.logi k) p'⟩) (hfields : illegal = false ↔ fields) :
    IssueEnds i k s (instrWord op bits) fields next none (Retires i k s (s.logi k) p' next) :=
  issueEnds_of_run hx hi hq hfields rfl

/-! ### The progress counter (R542) -/

/-- A fault, also one that meets another (R106), leaves the progress counter as it is. -/
theorem Crucible.progCore_raise (x : Crucible) (l : Nat) (cause : Byte) (source : BitVec 3) (pc : BitVec 13) (detail : W32) :
    ((x.raise l cause source pc detail).log l).progCore = (x.log l).progCore := by
  unfold Crucible.raise Crucible.raiseBy
  simp only
  split
  · rfl
  · rw [Crucible.log_putLog_same, LogCore.meet]
    split
    · split <;> rfl
    · rfl
  · rw [Crucible.log_putLog_same]

theorem State.progCore_issue_of_fault {s : State} {k : CoreId} {op : Byte} {bits : BitVec 56} {f : LogCore → PhysCore → Issue}
    {cv : Byte × W32} (hi : s.issues k) (hf : (f (s.logi k) (s.phys k)).fault (instrWord op bits) = some cv) :
    (((s.issue k op bits f).crucible k.cru).log k.core.val).progCore = ((s.crucible k.cru).log k.core.val).progCore := by
  rw [State.issue, State.crucible_atCrucible_same, (Crucible.issue_cases hi _ f).1 cv.1 cv.2 hf, Crucible.progCore_raise]

/-- An instruction that retires moves the progress counter. -/
theorem State.progCore_issue_of_run {s : State} {k : CoreId} {op : Byte} {bits : BitVec 56} {f : LogCore → PhysCore → Issue}
    {p' : PhysCore} (hi : s.issues k) (hf : (f (s.logi k) (s.phys k)).fault (instrWord op bits) = none)
    (he : (f (s.logi k) (s.phys k)).effect = .run (s.logi k) p') :
    (((s.issue k op bits f).crucible k.cru).log k.core.val).progCore ≠ ((s.crucible k.cru).log k.core.val).progCore := by
  rw [State.issue, State.crucible_atCrucible_same, ((Crucible.issue_cases hi _ f).2 hf).1 _ _ he, Crucible.retire,
    Crucible.log_putLog_same, State.logi]
  simp

/-! ### The halt of a core that awaits its retirement (R95, R470) -/

@[simp] theorem Crucible.phys_settle (x : Crucible) (l m : Nat) : (x.settle l).phys m = x.phys m := by
  unfold Crucible.settle
  simp only
  split
  · split
    · rfl
    · split <;> rfl
    · rfl
  · rfl

theorem Crucible.log_settle_halting {x : Crucible} {l : Nat} (h : (x.log l).mode = .halting) :
    (x.settle l).log l = if (x.phys l).queuesEmpty then { x.log l with mode := .halted, mgmtHalt := false } else x.log l := by
  unfold Crucible.settle
  simp only [h]
  split
  · exact Crucible.log_putLog_same ..
  · rfl

theorem Crucible.settle_halted {x : Crucible} {l : Nat} (h : (x.log l).mode = .halted) : x.settle l = x := by
  unfold Crucible.settle
  simp only [h, ite_self]

theorem Crucible.settle_busy {x : Crucible} {l : Nat} (h : (x.phys l).queuesEmpty = false) : x.settle l = x := by
  unfold Crucible.settle
  simp only [h, Bool.false_eq_true, if_false]

/-- A second settling finds the core as the first left it. -/
theorem Crucible.mode_settle_settle {x : Crucible} {l : Nat} (h : (x.log l).mode = .halting) :
    (((x.settle l).settle l).log l).mode = if (x.phys l).queuesEmpty then .halted else .halting := by
  cases he : (x.phys l).queuesEmpty with
  | true =>
    have hmode : ((x.settle l).log l).mode = .halted := by simp [Crucible.log_settle_halting h, he]
    rw [Crucible.settle_halted hmode, hmode, if_pos rfl]
  | false =>
    rw [Crucible.settle_busy he, Crucible.settle_busy he, h]
    rfl

theorem Crucible.mgmtHalt_running {x : Crucible} {l : Nat} (h : (x.log l).mode = .running) :
    x.mgmtHalt l = (x.putLog l { x.log l with mode := .halting, waiting := none, mgmtHalt := true }).settle l := by
  unfold Crucible.mgmtHalt
  simp only [h]

theorem Crucible.phys_requestRetire_running {x : Crucible} {l : Nat} (h : (x.log l).mode = .running) (source : BitVec 3) (seq : W32) :
    (x.requestRetire l source seq).phys l = x.phys l := by
  simp [Crucible.requestRetire, Crucible.modLog, Crucible.mgmtHalt_running h]

theorem Crucible.mode_requestRetire_running {x : Crucible} {l : Nat} (h : (x.log l).mode = .running) (source : BitVec 3) (seq : W32) :
    ((x.requestRetire l source seq).log l).mode = if (x.phys l).queuesEmpty then .halted else .halting := by
  rw [Crucible.requestRetire, Crucible.log_markUnclean, Crucible.modLog, Crucible.log_putLog_same, Crucible.mgmtHalt_running h,
    Crucible.mode_settle_settle (by rw [Crucible.log_putLog_same]), Crucible.phys_putLog]

theorem Crucible.retireDue_requestRetire (x : Crucible) (l : Nat) (source : BitVec 3) (seq : W32) :
    ((x.requestRetire l source seq).log l).retireDue = some ⟨0x0E, source, false, (x.phys l).pc, seq⟩ := by
  rw [Crucible.requestRetire, Crucible.log_markUnclean, Crucible.modLog, Crucible.log_putLog_same]

theorem Crucible.log_countMismatch (x : Crucible) (l : Nat) (unit second : BitVec 4) (seq : W32) :
    (x.countMismatch l unit second seq).log l =
      { x.log l with mismatches := if (x.log l).mismatches.toNat < 2 then (x.log l).mismatches + 1 else (x.log l).mismatches } :=
  Crucible.log_putLog_same ..

@[simp] theorem Crucible.mode_countMismatch (x : Crucible) (l : Nat) (unit second : BitVec 4) (seq : W32) :
    ((x.countMismatch l unit second seq).log l).mode = (x.log l).mode := by rw [Crucible.log_countMismatch]

/-- Core `k` has not executed its instruction: its physical core is as before, and it has stopped and awaits its retirement, DETAIL its
sequence number (R470, R472). -/
def AwaitsRetirement (i : Instr) (k : CoreId) (s : State) : Prop :=
  Completes i s fun t =>
    t.phys k = s.phys k ∧ (t.logi k).mode = (if (s.phys k).queuesEmpty then .halted else .halting) ∧
    (t.logi k).retireDue = some ⟨0x0E, srcScalar, false, (s.phys k).pc, BitVec.ofNat 32 (s.phys k).seq⟩ ∧ OnlyCrucible k.cru s t

theorem State.issues.mode {s : State} {k : CoreId} (hi : s.issues k) : ((s.crucible k.cru).log k.core.val).mode = .running := by
  simp only [State.issues, Crucible.canIssue, Bool.and_eq_true, beq_iff_eq] at hi
  exact hi.1.2

/-- However often the mismatch was counted first, the core is as `AwaitsRetirement` says. -/
theorem awaitsRetirement_of_request {s : State} {k : CoreId} {i : Instr} {y : Crucible} (hi : s.issues k)
    (hphys : y.phys k.core.val = s.phys k) (hmode : (y.log k.core.val).mode = ((s.crucible k.cru).log k.core.val).mode)
    (hx : exec i s = .next (s.putCrucible k.cru
      (y.requestRetire k.core.val srcScalar (BitVec.ofNat 32 (s.phys k).seq)))) : AwaitsRetirement i k s := by
  have hrun : (y.log k.core.val).mode = .running := hmode.trans hi.mode
  refine ⟨_, hx, ?_, ?_, ?_, ?_⟩
  · rw [State.phys, State.crucible_putCrucible_same, Crucible.phys_requestRetire_running hrun, hphys]
  · rw [State.logi, State.crucible_putCrucible_same, Crucible.mode_requestRetire_running hrun, hphys]
  · rw [State.logi, State.crucible_putCrucible_same, Crucible.retireDue_requestRetire, hphys]
  · rw [OnlyCrucible, State.crucible_putCrucible_same]

/-- A check that fails again when it is repeated retires the core, in an instruction that would have executed. -/
theorem awaitsRetirement_of_lastingMismatch {s : State} {k : CoreId} {i : Instr} {run : State → State} (hi : s.issues k)
    (hx : exec i s = .next (s.lastingMismatch k run))
    (hprog : (((run s).crucible k.cru).log k.core.val).progCore ≠ ((s.crucible k.cru).log k.core.val).progCore) :
    AwaitsRetirement i k s := by
  rw [State.lastingMismatch, if_neg hprog] at hx
  refine awaitsRetirement_of_request hi ?_ ?_ hx
  · split <;> rfl
  · split <;> simp

/-! ### Scratchpad bytes and their parity (R128, R468) -/

/-- A write leaves a byte in agreement with its parity bit when it writes that byte or finds it in agreement. -/
theorem putParity_agrees (par : Store Bool) (m : Memory) (a b : Nat) (bs : List Byte)
    (h : b < a ∨ a + bs.length ≤ b → Store.get even par b = oddOnes (Memory.read m b)) :
    Store.get even (putParity par a bs) b = oddOnes (Memory.read (Memory.writeBytes m a bs) b) := by
  induction bs generalizing par m a with
  | nil => exact h (by rw [List.length_nil]; omega)
  | cons v bs ih =>
    refine ih _ _ _ fun hout => ?_
    rw [Store.get_set, Memory.read_write]
    by_cases hab : a = b
    · rw [if_pos hab, if_pos hab]
    · rw [if_neg hab, if_neg hab]
      exact h (by rw [List.length_cons]; omega)

theorem PhysCore.parityAgrees_writeScratch (p : PhysCore) (a : Nat) (bs : List Byte) :
    (p.writeScratch a bs).parityAgrees a bs.length = true := by
  simp only [PhysCore.parityAgrees, PhysCore.writeScratch, List.all_eq_true, List.mem_range, beq_iff_eq]
  exact fun j hj => putParity_agrees _ _ _ _ _ (by omega)

theorem Memory.read_writeBytes_leBytes (m : Memory) (a n v j : Nat) (hj : j < n) :
    Memory.read (Memory.writeBytes m a (leBytes n v)) (a + j) = BitVec.ofNat 8 (v / 256 ^ j) := by
  rw [Memory.read_writeBytes, if_pos (by rw [leBytes_length]; omega), Nat.add_sub_cancel_left, leBytes_getD _ _ _ hj]

end Sys2Proof.Machine
end

section
/-!
SUPPORT. R128: the scratchpad loads and stores, and the obligation they settle.
-/
namespace Sys2Proof.Machine

/-! ### Addresses -/

/-- The condition of a scalar access: SCRATCH_ADDRESS with the offset in DETAIL. -/
def scratchFault (a size : Nat) : Option (Byte × W32) := if badScratch a size then some (0x03, BitVec.ofNat 32 a) else none

theorem scalarAccess_findSome? (p : PhysCore) (f : FmtM) (size : Nat) :
    (scalarAccess p f size).findSome? id = scratchFault (scratchAddr p f.rb f.imm) size := by
  simp [scalarAccess, scratchFault, detail32]

theorem scratchFault_eq_none {a size : Nat} (ha : a < 0x100000) (hs : a % size = 0) : scratchFault a size = none := by
  simp [scratchFault, badScratch, hs, Nat.not_le.mpr ha]

theorem scratchFault_eq_some {a size : Nat} (h : 0x100000 ≤ a ∨ a % size ≠ 0) : scratchFault a size = some (0x03, BitVec.ofNat 32 a) := by
  simp [scratchFault, badScratch, h]

/-- What the ends of a scratchpad access come to, by its address. -/
theorem IssueEnds.access {i : Instr} {k : CoreId} {s : State} {word : W64} {fields : Prop} {next a size : Nat} {done : Prop}
    (h : IssueEnds i k s word fields next (scratchFault a size) done) :
    (¬fields → Faults i k s 0x01 (BitVec.setWidth 32 word)) ∧
    (fields → next < 8192 →
      (a < 0x100000 → a % size = 0 → done) ∧ ((0x100000 ≤ a ∨ a % size ≠ 0) → Faults i k s 0x03 (BitVec.ofNat 32 a))) :=
  ⟨h.illegal, fun hf hn => ⟨fun ha hs => h.completes hf hn (scratchFault_eq_none ha hs),
    fun hbad => h.faults hf hn _ _ (scratchFault_eq_some hbad)⟩⟩

/-! ### Loads -/

/-- A load completes unless a byte it reads disagrees with its parity bit. -/
def Loads (i : Instr) (k : CoreId) (s : State) (a size : Nat) (p' : PhysCore) : Prop :=
  ((s.phys k).parityAgrees a size = true → Retires i k s (s.logi k) p' (s.phys k).seqNext) ∧
  ((s.phys k).parityAgrees a size = false → AwaitsRetirement i k s)

theorem State.loadChecked_agrees {s : State} {k : CoreId} {fm : FmtM} {size : Nat}
    (h : (s.phys k).parityAgrees (scratchAddr (s.phys k) fm.rb fm.imm) size = true) (run : State → State) :
    s.loadChecked false k fm size run = run s := if_pos h

theorem State.loadChecked_disagrees {s : State} {k : CoreId} {fm : FmtM} {size : Nat}
    (h : (s.phys k).parityAgrees (scratchAddr (s.phys k) fm.rb fm.imm) size = false) (run : State → State) :
    s.loadChecked false k fm size run = s.lastingMismatch k run := if_neg (Bool.eq_false_iff.mp h)

/-- A load that faults reads nothing, whatever the parity of its bytes. -/
theorem State.loadChecked_of_fault {s : State} {k : CoreId} {fm : FmtM} {size : Nat} {op : Byte} {bits : BitVec 56}
    {f : LogCore → PhysCore → Issue} {cv : Byte × W32} (hi : s.issues k)
    (hf : (f (s.logi k) (s.phys k)).fault (instrWord op bits) = some cv) :
    (s.loadChecked false k fm size fun s => s.issue k op bits f) = s.issue k op bits f := by
  cases hpar : (s.phys k).parityAgrees (scratchAddr (s.phys k) fm.rb fm.imm) size with
  | true => exact State.loadChecked_agrees hpar _
  | false => exact (State.loadChecked_disagrees hpar _).trans (if_pos (State.progCore_issue_of_fault hi hf))

/-- The ends of a load: its faults, its result, and the retirement of its core for a parity error that stays. -/
theorem loadEnds {s : State} {k : CoreId} {i : Instr} {fm : FmtM} {size : Nat} {op : Byte} {f : LogCore → PhysCore → Issue}
    {illegal : Bool} {fields : Prop} {p' : PhysCore} (hi : s.issues k)
    (hx : exec i s = .next (s.loadChecked false k fm size fun s => s.issue k op fm.bits f))
    (hq : f (s.logi k) (s.phys k) = ⟨illegal, none, (s.phys k).seqNext, scalarAccess (s.phys k) fm size, .run (s.logi k) p'⟩)
    (hfields : illegal = false ↔ fields) :
    IssueEnds i k s (instrWord op fm.bits) fields (s.phys k).seqNext (scratchFault (scratchAddr (s.phys k) fm.rb fm.imm) size)
      (Loads i k s (scratchAddr (s.phys k) fm.rb fm.imm) size p') := by
  refine issueEnds_of_issue hi hq hfields (scalarAccess_findSome? ..)
    (fun cv hf => hx.trans (congrArg _ (State.loadChecked_of_fault hi hf))) fun hnone => ?_
  have he := congrArg Issue.effect hq
  refine ⟨fun hpar => ?_, fun hpar => ?_⟩
  · have hr := retires_of_issue (hx.trans (congrArg _ (State.loadChecked_agrees hpar _))) hi hnone he
    rwa [hq] at hr
  · exact awaitsRetirement_of_lastingMismatch hi (hx.trans (congrArg _ (State.loadChecked_disagrees hpar _)))
      (State.progCore_issue_of_run hi hnone he)

/-! ### Stores -/

/-- A store writes the low `n` bytes of `v` at `a` with their parity, lowest address first, and changes nothing else. -/
def Stores (i : Instr) (k : CoreId) (s : State) (a n v : Nat) : Prop :=
  Completes i s fun t =>
    (∀ j, j < n → Memory.read (t.phys k).scratch (a + j) = BitVec.ofNat 8 (v / 256 ^ j)) ∧
    (∀ b, b < a ∨ a + n ≤ b → Memory.read (t.phys k).scratch b = Memory.read (s.phys k).scratch b) ∧
    t.phys k = { s.phys k with pc := BitVec.ofNat 13 (s.phys k).seqNext, scratch := (t.phys k).scratch, parity := (t.phys k).parity } ∧
    (t.phys k).parityAgrees a n = true ∧
    t.logi k = { s.logi k with waiting := none, progCore := (s.logi k).progCore + 1 } ∧ OnlyCore k s t

theorem Retires.stores {i : Instr} {k : CoreId} {s : State} {a n v : Nat}
    (h : Retires i k s (s.logi k) ((s.phys k).writeScratch a (leBytes n v)) (s.phys k).seqNext) : Stores i k s a n v := by
  obtain ⟨t, hx, hphys, hlogi, honly⟩ := h
  refine ⟨t, hx, fun j hj => ?_, fun b hb => ?_, ?_, ?_, hlogi, honly⟩
  · rw [hphys]
    exact Memory.read_writeBytes_leBytes _ _ _ _ _ hj
  · rw [hphys]
    exact Memory.read_writeBytes_outside _ _ _ _ (by rwa [leBytes_length])
  · rw [hphys]
    rfl
  · have hpar := (s.phys k).parityAgrees_writeScratch a (leBytes n v)
    rw [leBytes_length] at hpar
    rw [hphys]
    exact hpar

theorem IssueEnds.mono {i : Instr} {k : CoreId} {s : State} {word : W64} {fields : Prop} {next : Nat} {bad : Option (Byte × W32)}
    {done done' : Prop} (h : IssueEnds i k s word fields next bad done) (hd : done → done') :
    IssueEnds i k s word fields next bad done' :=
  ⟨h.illegal, h.range, h.faults, fun hf hn hb => hd (h.completes hf hn hb)⟩

/-- The ends of a store. -/
theorem storeEnds {s : State} {k : CoreId} {i : Instr} {fm : FmtM} {n : Nat} {op : Byte} {addrReg : Bool} {v : PhysCore → Nat}
    (hi : s.issues k) (hx : exec i s = .next (storeS s k op fm n addrReg v)) :
    IssueEnds i k s (instrWord op fm.bits) (fm.resv = 0 ∧ fm.rb.toNat < 16 ∧ (addrReg = true → fm.rt.toNat < 16)) (s.phys k).seqNext
      (scratchFault (scratchAddr (s.phys k) fm.rb fm.imm) n)
      (Stores i k s (scratchAddr (s.phys k) fm.rb fm.imm) n (v (s.phys k))) := by
  refine (issueEnds_of_run hx hi rfl ?_ (scalarAccess_findSome? ..)).mono Retires.stores
  cases addrReg <;> simp [and_assoc]

/-- Settles O4: each load and each store by the ends of its kind. -/
theorem scratchpadLoadsAndStores : Obligations.ScratchpadLoadsAndStores := by
  unfold Obligations.ScratchpadLoadsAndStores
  intro s k f hi
  have hload : (decide (f.resv ≠ 0) || badReg16 f.rb) = false ↔
      f.resv = 0 ∧ f.rb.toNat < 16 ∧ (false = true → f.rt.toNat < 16) := by simp
  have hloadA : (decide (f.resv ≠ 0) || badReg16 f.rb || badReg16 f.rt) = false ↔
      f.resv = 0 ∧ f.rb.toNat < 16 ∧ (true = true → f.rt.toNat < 16) := by simp [and_assoc]
  have store_s {i : Instr} {op : Byte} {n : Nat} (hx : exec i s = .next (storeS s k op f n false fun p => (p.sreg f.rt).toNat)) :=
    (storeEnds hi hx).access
  have store_a := (storeEnds (i := .stA k f) hi rfl).access
  exact ⟨(loadEnds hi rfl rfl hload).access, (loadEnds hi rfl rfl hload).access, (loadEnds hi rfl rfl hload).access,
    (loadEnds hi rfl rfl hload).access, (loadEnds hi rfl rfl hload).access, (loadEnds hi rfl rfl hload).access,
    (loadEnds hi rfl rfl hload).access, (loadEnds hi rfl rfl hloadA).access,
    store_s rfl, store_s rfl, store_s rfl, store_s rfl, store_a⟩

end Sys2Proof.Machine
end

section
/-!
SUPPORT. R129: the branches, and the obligation they settle.
-/
namespace Sys2Proof.Machine

/-- What the ends of a branch come to. -/
theorem IssueEnds.goes {i : Instr} {k : CoreId} {s : State} {word : W64} {resv fields done : Prop} {next : Nat}
    (h : IssueEnds i k s word (resv ∧ fields) next none done) :
    (¬(resv ∧ fields) → Faults i k s 0x01 (BitVec.setWidth 32 word)) ∧
    (resv → fields → (next < 8192 → done) ∧ (8192 ≤ next → Faults i k s 0x02 (BitVec.ofNat 32 next))) :=
  ⟨h.illegal, fun hr hf => ⟨fun hn => h.completes ⟨hr, hf⟩ hn rfl, h.range ⟨hr, hf⟩⟩⟩

/-- The ends of a compare and branch whose comparison decides `taken`. -/
theorem branchIf_ends {s : State} {k : CoreId} {i : Instr} {op : Byte} {f : FmtB} {r : W64 → W64 → Bool} {taken : Prop}
    [Decidable taken] (hi : s.issues k) (hx : exec i s = .next (branchIf s k op f r))
    (htaken : r ((s.phys k).sreg f.ra) ((s.phys k).sreg f.rb) = true ↔ taken) :
    IssueEnds i k s (instrWord op f.bits) (f.resv = 0 ∧ True) (if taken then f.target.toNat else (s.phys k).seqNext) none
      (Retires i k s (s.logi k) (s.phys k) (if taken then f.target.toNat else (s.phys k).seqNext)) := by
  have hnext : branchNext (s.phys k) (r ((s.phys k).sreg f.ra) ((s.phys k).sreg f.rb)) f.target =
      if taken then f.target.toNat else (s.phys k).seqNext := by simp only [branchNext, htaken]
  rw [← hnext]
  exact issueEnds_of_unconditional hx hi rfl (by simp)

/-- bdnz goes by the decremented count, which it also writes; with s0 the write is discarded and the count is not 0 (log 13). -/
theorem bdnz_ends {s : State} {k : CoreId} {f : FmtB} (hi : s.issues k) :
    let v := (s.phys k).sreg f.ra - 1
    IssueEnds (.bdnz k f) k s (instrWord 0x39 f.bits) (f.resv = 0 ∧ f.rb = 0) (if v ≠ 0 then f.target.toNat else (s.phys k).seqNext) none
      (Retires (.bdnz k f) k s (s.logi k) ((s.phys k).setS f.ra v) (if v ≠ 0 then f.target.toNat else (s.phys k).seqNext)) := by
  intro v
  have hnext : branchNext (s.phys k) (v != 0) f.target = if v ≠ 0 then f.target.toNat else (s.phys k).seqNext := by
    simp only [branchNext, bne_iff_ne]
  rw [← hnext]
  exact issueEnds_of_unconditional rfl hi rfl (by simp)

/-- Settles O5: the compares by `branchIf_ends`, the jumps by the ends of an instruction at issue. -/
theorem branches : Obligations.Branches := by
  unfold Obligations.Branches
  intro s k f hi
  refine ⟨(branchIf_ends hi rfl beq_iff_eq).goes, (branchIf_ends hi rfl bne_iff_ne).goes,
    (branchIf_ends hi rfl BitVec.slt_iff_toInt_lt).goes, (branchIf_ends hi rfl ?bge).goes,
    (branchIf_ends hi rfl BitVec.ult_iff_toNat_lt).goes, (branchIf_ends hi rfl ?bgeu).goes,
    (issueEnds_of_unconditional rfl hi rfl ?jmp).goes, (issueEnds_of_unconditional rfl hi rfl ?jal).goes,
    (issueEnds_of_unconditional rfl hi rfl ?jr).goes, (bdnz_ends hi).goes⟩
  case bge => simp [BitVec.slt]
  case bgeu => simp [BitVec.ult]
  case jmp => simp [and_assoc]
  case jal => simp
  case jr => simp [and_assoc]

end Sys2Proof.Machine
end

section
/-!
SUPPORT. R130: the descriptor instructions, and the obligation they settle.
-/
namespace Sys2Proof.Machine

/-- What the ends of a descriptor instruction come to. -/
theorem IssueEnds.does {i : Instr} {k : CoreId} {s : State} {word : W64} {resv desc fields done : Prop} {next : Nat}
    {bad : Option (Byte × W32)} (h : IssueEnds i k s word (resv ∧ desc ∧ fields) next bad done) :
    (¬(resv ∧ desc ∧ fields) → Faults i k s 0x01 (BitVec.setWidth 32 word)) ∧
    (resv → desc → fields → next < 8192 → (bad = none → done) ∧ (∀ c v, bad = some (c, v) → Faults i k s c v)) :=
  ⟨h.illegal, fun hr hd hf hn => ⟨h.completes ⟨hr, hd, hf⟩ hn, h.faults ⟨hr, hd, hf⟩ hn⟩⟩

/-- The one later condition of a descriptor instruction: a value at or above its limit. -/
theorem findSome?_limit {n limit : Nat} {cv : Byte × W32} :
    [if n ≥ limit then some cv else none].findSome? id = if n < limit then none else some cv := by
  by_cases h : n < limit
  · simp [h, Nat.not_le.mpr h]
  · simp [h, Nat.not_lt.mp h]

/-- Settles O6: each instruction by the ends of an instruction at issue. -/
theorem descriptorInstructions : Obligations.DescriptorInstructions := by
  unfold Obligations.DescriptorInstructions
  intro s k f hi
  have hget : (decide (f.resv ≠ 0) || decide (f.rb ≠ 0) || badReg16 f.td) = false ↔ f.resv = 0 ∧ f.td.toNat < 16 ∧ f.rb = 0 := by
    simp [and_assoc, and_comm, and_left_comm]
  refine ⟨(issueEnds_of_unconditional rfl hi rfl ?tset).does, (issueEnds_of_run rfl hi rfl ?tbase findSome?_limit).does,
    (issueEnds_of_run rfl hi rfl hget findSome?_limit).does, (issueEnds_of_unconditional rfl hi rfl hget).does,
    (issueEnds_of_unconditional rfl hi rfl hget).does⟩
  case tset => simp
  case tbase => simp [and_assoc, and_comm, and_left_comm]

end Sys2Proof.Machine
end

section
/-!
SUPPORT. R432, R462, R485, R592: the registers that refuse a value outside its range, and the obligation they settle.
`test_values_out_of_range` and `test_port_die_values` run the writes on both sides of the ranges.
-/
namespace Sys2Proof.Machine

/-! ### Reset values -/

@[simp] theorem State.crucible_reset (c : Cru) : State.reset.crucible c = Crucible.reset := Quad.get_all Crucible.reset c

@[simp] theorem State.halfAt_reset (h : HalfIx) : State.reset.halfAt h = Half.reset := by
  match h with
  | 0 | 1 => rfl

/-! ### A write that reaches its register -/

theorem State.onReach_of_reach {s : State} {a : Accessor} {c : Cru} (hr : s.reach a c = true) (f : State → State) :
    s.onReach a c f = .next (f s) := by
  rw [State.onReach, if_pos hr]

/-- A command that applies `f` to crucible `c` completes, leaves `f`'s result there, and changes nothing else. -/
theorem completes_of_atCrucible {i : Instr} {s : State} {c : Cru} {f : Crucible → Crucible} {y : Crucible}
    (hi : exec i s = .next (s.atCrucible c f)) (hy : f (s.crucible c) = y) :
    Completes i s fun t => t.crucible c = y ∧ OnlyCrucible c s t := by
  refine ⟨_, hi, ?_, ?_⟩
  · rw [State.crucible_atCrucible_same, hy]
  · rw [OnlyCrucible, State.crucible_atCrucible_same, State.atCrucible]

theorem exec_fabE2eWrite {s : State} {a : Accessor} {c : Cru} (hr : s.reach a c = true) (v : W32) :
    exec (.fabE2eWrite a c v) s = .next (s.atCrucible c fun x => x.writeE2e v) :=
  State.onReach_of_reach hr fun s => s.atCrucible c fun x => x.writeE2e v

theorem exec_intervalWrite {s : State} {a : Accessor} {c : Cru} (hr : s.reach a c = true) (sillage : Bool) (v : W32) :
    exec (.intervalWrite a c sillage v) s = .next (s.atCrucible c fun x => x.writeInterval sillage v) :=
  State.onReach_of_reach hr fun s => s.atCrucible c fun x => x.writeInterval sillage v

theorem exec_ethVlanWrite {s : State} {a : Accessor} {h : HalfIx} (hup : s.portDieUp = true) (ha : s.speaks a = true)
    (hh : (s.halfAt h).alive = true) (v : W32) :
    exec (.ethVlanWrite a h v) s = .next (s.putHalf h ((s.halfAt h).writeVlan v)) := by
  change execEthVlanWrite a h v s = _
  rw [execEthVlanWrite, hup, ha, hh]
  rfl

theorem exec_pwrLimitWrite {s : State} {a : Accessor} (hup : s.portDieUp = true) (ha : s.speaks a = true) (v : W32) :
    exec (.pwrLimitWrite a v) s = .next { s with power := s.power.writeLimit v } := by
  change execPwrLimitWrite a v s = _
  rw [execPwrLimitWrite, hup, ha]
  rfl

/-! ### FAB_E2E (R432) -/

/-- The values of FAB_E2E that R432 discards. -/
abbrev badE2e (v : W32) : Prop := v.extractLsb' 12 9 = 0 ∨ 256 < (v.extractLsb' 12 9).toNat ∨ v.extractLsb' 0 8 = 0

theorem Crucible.writeE2e_of_bad (x : Crucible) {v : W32} (hv : badE2e v) :
    x.writeE2e v = { x with xport := { x.xport with status := setFlag x.xport.status 6 } } := by
  rw [Crucible.writeE2e, Crucible.onXport, if_pos hv]

theorem Crucible.writeE2e_of_good (x : Crucible) {v : W32} (hv : ¬badE2e v) :
    x.writeE2e v =
      { x with xport := { x.xport with e2e := ⟨v.extractLsb' 24 8, v.extractLsb' 12 9, v.extractLsb' 0 8⟩ } } := by
  rw [Crucible.writeE2e, Crucible.onXport, if_neg hv]

/-! ### RES_NOSE_INTERVAL and RES_SILLAGE_INTERVAL (R485) -/

theorem Crucible.writeInterval_above (x : Crucible) (sillage : Bool) {v : W32} (hv : 1024 < (v.extractLsb' 0 11).toNat) :
    x.writeInterval sillage v = { x with res := { x.res with status := setFlag x.res.status 4 } } := by
  rw [Crucible.writeInterval, if_pos hv]

theorem Crucible.writeInterval_sillage (x : Crucible) {v : W32} (hv : (v.extractLsb' 0 11).toNat ≤ 1024) :
    x.writeInterval true v = { x with res := { x.res with sillageInterval := v.setWidth 11 } } := by
  rw [Crucible.writeInterval, if_neg (Nat.not_lt.mpr hv), if_pos rfl]

theorem Crucible.writeInterval_nose (x : Crucible) {v : W32} (hv : (v.extractLsb' 0 11).toNat ≤ 1024) :
    x.writeInterval false v = { x with res := { x.res with noseInterval := v.setWidth 11 } } := by
  rw [Crucible.writeInterval, if_neg (Nat.not_lt.mpr hv), if_neg Bool.false_ne_true]

/-! ### ETH_VLAN (R462) -/

/-- The values of ETH_VLAN that R462 discards. -/
abbrev badVlan (v : W32) : Prop := v.getLsbD 31 = true ∧ (v.extractLsb' 0 12 = 0 ∨ v.extractLsb' 0 12 = 4095)

theorem Half.writeVlan_of_bad (x : Half) {v : W32} (hv : badVlan v) :
    x.writeVlan v = { x with ethFlags := setFlag x.ethFlags 1 } := by
  rw [Half.writeVlan, if_pos hv]

theorem Half.writeVlan_of_good (x : Half) {v : W32} (hv : ¬badVlan v) :
    x.writeVlan v = { x with tagged := v.getLsbD 31, vid := v.extractLsb' 0 12 } := by
  rw [Half.writeVlan, if_neg hv]

/-! ### PWR_LIMIT (R592) -/

/-- The values of PWR_LIMIT that R592 discards. -/
abbrev badLimit (v : W32) : Prop := (v.extractLsb' 0 12).toNat < 1000 ∨ 2200 < (v.extractLsb' 0 12).toNat

theorem Power.writeLimit_of_bad (p : Power) {v : W32} (hv : badLimit v) :
    p.writeLimit v = { p with flags := setFlag p.flags 1 } := by
  rw [Power.writeLimit, if_pos hv]

theorem Power.writeLimit_of_good (p : Power) {v : W32} (hv : ¬badLimit v) :
    p.writeLimit v = { p with limit := v.extractLsb' 0 12 } := by
  rw [Power.writeLimit, if_neg hv]

/-! ### The obligation -/

/-- Settles O40: what each write comes to where it reaches its register, on either side of the register's range. -/
theorem valuesOutOfRange : Obligations.ValuesOutOfRange := by
  unfold Obligations.ValuesOutOfRange
  intro s a c h v
  have hreset := State.crucible_reset c
  have hhalf := State.halfAt_reset h
  refine ⟨?e2e, ?nose, ?sillage, ?tagged, ?vid, ?pfc, ?pcps, rfl, fun hr => ⟨?e2eBad, ?e2eGood, ?above, ?within⟩,
    fun hup ha => ⟨fun hh => ⟨?vlanBad, ?vlanGood⟩, ?limitBad, ?limitGood⟩⟩
  case e2e | nose | sillage => rw [hreset]; rfl
  case tagged | vid | pfc | pcps => rw [hhalf]; rfl
  case e2eBad => exact fun hv => completes_of_atCrucible (exec_fabE2eWrite hr v) (Crucible.writeE2e_of_bad _ hv)
  case e2eGood => exact fun hv => completes_of_atCrucible (exec_fabE2eWrite hr v) (Crucible.writeE2e_of_good _ hv)
  case above =>
    exact fun hv =>
      ⟨completes_of_atCrucible (exec_intervalWrite hr true v) (Crucible.writeInterval_above _ true hv),
        completes_of_atCrucible (exec_intervalWrite hr false v) (Crucible.writeInterval_above _ false hv)⟩
  case within =>
    exact fun hv =>
      ⟨completes_of_atCrucible (exec_intervalWrite hr true v) (Crucible.writeInterval_sillage _ hv),
        completes_of_atCrucible (exec_intervalWrite hr false v) (Crucible.writeInterval_nose _ hv)⟩
  case vlanBad => exact fun hv => by rw [exec_ethVlanWrite hup ha hh, Half.writeVlan_of_bad _ hv]
  case vlanGood => exact fun hv => by rw [exec_ethVlanWrite hup ha hh, Half.writeVlan_of_good _ hv]
  case limitBad => exact fun hv => by rw [exec_pwrLimitWrite hup ha, Power.writeLimit_of_bad _ hv]
  case limitGood => exact fun hv => by rw [exec_pwrLimitWrite hup ha, Power.writeLimit_of_good _ hv]

end Sys2Proof.Machine
end

section
/-!
SUPPORT. `State.kept`, the commands that wait and the OTP, and the rules for what leaves it as it was.
-/
namespace Sys2Proof.Machine

/-- What no operation changes but a raise of the fuses: the commands that wait, and the OTP. -/
def State.kept (s : State) : List Instr × List Byte := (s.pending, s.boot.otp)

@[simp] theorem State.kept_mk (u : State) (c h a ho t st i r p sb hd o f l) :
    State.kept ⟨c, h, a, ho, t, st, i, r, p, sb, u.boot, hd, o, f, l, u.pending⟩ = u.kept := rfl

@[simp] theorem State.kept_mk_boot (u : State) (c h a ho t st i r p sb hd o f l b1 b2 b3 b4 b5 b6 b7 b8 b9 b10 b11 b12 b13 b14 b15 b16) :
    State.kept ⟨c, h, a, ho, t, st, i, r, p, sb,
      ⟨u.boot.otp, b1, b2, b3, b4, b5, b6, b7, b8, b9, b10, b11, b12, b13, b14, b15, b16⟩, hd, o, f, l, u.pending⟩ = u.kept := rfl

@[simp] theorem State.ite_kept (c : Prop) [Decidable c] (s t : State) : (if c then s else t).kept = if c then s.kept else t.kept := by
  split <;> rfl

@[simp] theorem foldl_kept {α : Type} {f : State → α → State} (h : ∀ s a, (f s a).kept = s.kept) (l : List α) (s : State) :
    (l.foldl f s).kept = s.kept := by
  induction l generalizing s with
  | nil => rfl
  | cons a l ih => exact (ih _).trans (h s a)

theorem kept_if {c : Prop} [Decidable c] {s t u : State} (h : s.kept = u.kept) (k : t.kept = u.kept) :
    (if c then s else t).kept = u.kept := by
  split
  · exact h
  · exact k

theorem kept_of_fst {β : Type} {q : State × β} {s t : State} {b : β} (e : q = (t, b)) (h : q.1.kept = s.kept) : t.kept = s.kept := by
  rwa [e] at h

theorem kept_of_snd {β : Type} {q : β × State} {s t : State} {b : β} (e : q = (b, t)) (h : q.2.kept = s.kept) : t.kept = s.kept := by
  rwa [e] at h

theorem foldl_fst_kept {α β : Type} {f : State × β → α → State × β} (h : ∀ a x, (f a x).1.kept = a.1.kept) (l : List α) (a : State × β) :
    (l.foldl f a).1.kept = a.1.kept := by
  induction l generalizing a with
  | nil => rfl
  | cons x l ih => exact (ih _).trans (h a x)

theorem foldlM_kept {α : Type} {f : State → α → Option State} (h : ∀ s a, ∀ t ∈ f s a, t.kept = s.kept) (l : List α) (s : State) :
    ∀ t ∈ l.foldlM f s, t.kept = s.kept := by
  induction l generalizing s with
  | nil =>
    intro t ht
    cases ht
    rfl
  | cons a l ih =>
    intro t ht
    obtain ⟨u, hu, hl⟩ := Option.bind_eq_some_iff.mp ht
    exact (ih u t hl).trans (h s a u hu)

theorem Backward.foldl_kept {α : Type} {f : Backward → α → Backward} (h : ∀ w a, (f w a).s.kept = w.s.kept) (l : List α) (w : Backward) :
    (l.foldl f w).s.kept = w.s.kept := by
  induction l generalizing w with
  | nil => rfl
  | cons a l ih => exact (ih _).trans (h w a)

theorem Follows.of_kept {s t : State} (h : t.kept = s.kept) : Follows s t := .of_eq (congrArg Prod.fst h) (congrArg Prod.snd h)

theorem Follows.ite {c : Prop} [Decidable c] {s t u : State} (h : Follows s t) (k : Follows s u) : Follows s (if c then t else u) := by
  split
  · exact h
  · exact k

section
variable {α β : Type} {P : α → Prop}

theorem forall_mem_orElse {o o' : Option α} (h : ∀ a ∈ o, P a) (h' : ∀ a ∈ o', P a) : ∀ a ∈ (o <|> o'), P a := by
  intro a ha
  rcases (Option.orElse_eq_some _ _ _).mp ha with e | ⟨_, e⟩
  · exact h a e
  · exact h' a e

theorem forall_mem_map {f : β → α} (h : ∀ b, P (f b)) {o : Option β} : ∀ a ∈ o.map f, P a := by
  intro a ha
  obtain ⟨b, _, rfl⟩ := Option.mem_map.mp ha
  exact h b

theorem forall_mem_reg1 {off base : Nat} {a : α} (h : P a) : ∀ b ∈ reg1 off base a, P b := by
  intro b hb
  unfold reg1 at hb
  split at hb
  · exact Option.some.inj hb ▸ h
  · cases hb

theorem forall_mem_regN {off base stride n : Nat} {f : Nat → α} (h : ∀ i, P (f i)) : ∀ b ∈ regN off base stride n f, P b :=
  forall_mem_map h

end

end Sys2Proof.Machine
end

section
/-!
SUPPORT. What the operations over cores, the fabric, the step protocol and the links leave as it was (`State.kept`).
-/
namespace Sys2Proof.Machine

/-! ### Ops -/

@[simp] theorem State.putCrucible_kept (s : State) (c : Cru) (x : Crucible) : (s.putCrucible c x).kept = s.kept := rfl

@[simp] theorem State.atCrucible_kept (s : State) (c : Cru) (f : Crucible → Crucible) : (s.atCrucible c f).kept = s.kept := rfl

@[simp] theorem State.emit_kept (s : State) (os : List Out) : (s.emit os).kept = s.kept := rfl

theorem State.scalarMismatch_kept (s : State) (k : CoreId) (run : State → State) (h : ∀ t, (run t).kept = t.kept) :
    (s.scalarMismatch k run).kept = s.kept := by
  unfold State.scalarMismatch
  dsimp only
  split
  · exact h s
  · exact kept_if (h _) rfl

theorem State.lastingMismatch_kept (s : State) (k : CoreId) (run : State → State) (h : ∀ t, (run t).kept = t.kept) :
    (s.lastingMismatch k run).kept = s.kept := by
  unfold State.lastingMismatch
  exact kept_if (h s) rfl

theorem State.scalarChecked_kept (s : State) (b : Bool) (k : CoreId) (run : State → State) (h : ∀ t, (run t).kept = t.kept) :
    (s.scalarChecked b k run).kept = s.kept :=
  kept_if (s.scalarMismatch_kept k run h) (h s)

/-! ### EventOps -/

@[simp] theorem State.putHalf_kept (s : State) (h : HalfIx) (v : Half) : (s.putHalf h v).kept = s.kept := rfl

@[simp] theorem State.modHalf_kept (s : State) (h : HalfIx) (f : Half → Half) : (s.modHalf h f).kept = s.kept := rfl

@[simp] theorem State.sendEth_kept (s : State) (h : HalfIx) (m : EthMsg) : (s.sendEth h m).kept = s.kept := rfl

@[simp] theorem State.notify_kept (s : State) (code : W16) (cru : Byte) (body : List Byte) : (s.notify code cru body).kept = s.kept := rfl

@[simp] theorem State.cruEvent_kept (s : State) (code : W16) (c : Cru) (body : List Byte) : (s.cruEvent code c body).kept = s.kept := rfl

@[simp] theorem State.stepStatus_kept (s : State) (result : Byte) (step : W48) : (s.stepStatus result step).kept = s.kept := rfl

@[simp] theorem State.crucibleEvent_kept (s : State) (c : Cru) (state : Byte) : (s.crucibleEvent c state).kept = s.kept := rfl

@[simp] theorem State.linkEvent_kept (s : State) (c : Cru) (n : PortIx) (kind : Byte) (lane : Nat) (cause : Byte) :
    (s.linkEvent c n kind lane cause).kept = s.kept := rfl

@[simp] theorem State.fresh_kept (s : State) : s.fresh.2.kept = s.kept := rfl

/-! ### FabricOps -/

@[simp] theorem State.enterPort_kept (s : State) (c : Cru) (n : PortIx) (vc : Nat) (q : Packet) :
    (s.enterPort c n vc q).kept = s.kept := rfl

@[simp] theorem State.injectNew_kept (s : State) (c : Cru) (n : PortIx) (q : Pkt) : (s.injectNew c n q).kept = s.kept := by
  simp [State.injectNew]

@[simp] theorem State.resendOne_kept (s : State) (c : Cru) (i : Nat) (m : Nat) : (s.resendOne c i m).kept = s.kept := by
  unfold State.resendOne
  dsimp only
  split
  · rfl
  · split
    · rfl
    · exact kept_if rfl rfl

@[simp] theorem State.injectRsp_kept (s : State) (c : Cru) (n : PortIx) (w : RspWait) : (s.injectRsp c n w).kept = s.kept := by
  simp [State.injectRsp]

@[simp] theorem State.sendUc_kept (s : State) (c : Cru) (m : Nat) (d : Cru) (p : Packet) : (s.sendUc c m d p).kept = s.kept := by
  unfold State.sendUc
  dsimp only
  split <;> simp

@[simp] theorem State.retryUc_kept (s : State) (c : Cru) : (s.retryUc c).kept = s.kept := by
  simp [State.retryUc]

@[simp] theorem State.emitUrgent_kept (s : State) (c : Cru) (u : Urgent) : (s.emitUrgent c u).kept = s.kept := by
  simp [State.emitUrgent]

@[simp] theorem State.sendUrgentTo_kept (s : State) (c : Cru) (m : Nat) (loc : W16) (d : Cru) (type : Byte) (payload : List Byte) :
    (s.sendUrgentTo c m loc d type payload).kept = s.kept := by
  simp [State.sendUrgentTo]

@[simp] theorem State.sendUrgent_kept (s : State) (c : Cru) (m : Nat) (d : Cru) (type : Byte) (payload : List Byte) :
    (s.sendUrgent c m d type payload).kept = s.kept := by
  simp [State.sendUrgent]

@[simp] theorem State.endUrgent_kept (s : State) (c : Cru) (num : Nat) : (s.endUrgent c num).kept = s.kept := by
  unfold State.endUrgent
  dsimp only
  split <;> simp

@[simp] theorem State.noticeStale_kept (s : State) (t : Cru) (p : Packet) : (s.noticeStale t p).kept = s.kept := by
  simp [State.noticeStale]

@[simp] theorem State.takesAt_kept (s : State) (kind : Byte) (c : Cru) (n : PortIx) (t : Cru) (p : Packet) :
    (s.takesAt kind c n t p).1.kept = s.kept := by
  unfold State.takesAt
  split
  · rfl
  · split
    · rfl
    · dsimp only
      split
      case h_3 => exact State.noticeStale_kept ..
      all_goals rfl

@[simp] theorem State.takesIn_kept (s : State) (kind : Byte) (c : Cru) (n : PortIx) (p : Packet) :
    (s.takesIn kind c n p).1.kept = s.kept := by
  simp [State.takesIn]

@[simp] theorem State.castTo_kept (s : State) (t d : Cru) (w : Nat) (bs : List Byte) (mask : W128) :
    (s.castTo t d w bs mask).2.kept = s.kept := by
  unfold State.castTo
  dsimp only
  split <;> simp

@[simp] theorem State.applyCast_kept (s : State) (t : Cru) (p : Packet) : (s.applyCast t p).2.kept = s.kept := by
  unfold State.applyCast
  dsimp only
  split <;> simp

@[simp] theorem State.applyRequest_kept (s : State) (t : Cru) (p : Packet) : (s.applyRequest t p).2.kept = s.kept := by
  unfold State.applyRequest
  dsimp only
  split
  · split
    · exact State.applyCast_kept ..
    · split <;> rfl
  · split <;> rfl
  · split <;> rfl

@[simp] theorem State.respond_kept (s : State) (t : Cru) (p : Packet) (r : Reply) : (s.respond t p r).kept = s.kept := by
  unfold State.respond
  dsimp only
  split <;> simp

@[simp] theorem State.serveRequest_kept (s : State) (c : Cru) (n : PortIx) (p : Packet) : (s.serveRequest c n p).kept = s.kept := by
  unfold State.serveRequest
  dsimp only
  have h (t : Cru) : (s.applyRequest t p).2.kept = s.kept := s.applyRequest_kept t p
  refine kept_if ((State.respond_kept ..).trans (h _)) ?_
  split
  · refine kept_if (kept_if (kept_if ?_ ?_) ?_) rfl
    · exact (State.respond_kept ..).trans (State.applyRequest_kept ..)
    · exact (State.respond_kept ..).trans (State.applyRequest_kept ..)
    · exact State.respond_kept ..
  · exact kept_if ((State.respond_kept ..).trans (h _)) rfl

@[simp] theorem State.takeRequest_kept (s : State) (c : Cru) (n : PortIx) (p : Packet) (mismatch : Bool) :
    (s.takeRequest c n p mismatch).kept = s.kept := by
  simp [State.takeRequest]

@[simp] theorem State.retryRequests_kept (s : State) (t : Cru) : (s.retryRequests t).kept = s.kept := by
  simp [State.retryRequests]

@[simp] theorem State.takeUrgent_kept (s : State) (type : Byte) (c : Cru) (n : PortIx) (p : Packet) :
    (s.takeUrgent type c n p).1.kept = s.kept := by
  unfold State.takeUrgent
  dsimp only
  split
  · rfl
  · split
    next t ht => exact kept_of_fst ht (s.takesIn_kept 0x20 c n p)
    next t ht => simp [kept_of_fst ht (s.takesIn_kept 0x20 c n p)]

/-! ### StepOps -/

@[simp] theorem State.eachLive_kept (s : State) (f : Cru → Crucible → Crucible) : (s.eachLive f).kept = s.kept := by
  simp [State.eachLive]

@[simp] theorem State.record_kept (s : State) (c : Cru) (w : RecWrite) : (s.record c w).kept = s.kept := by
  simp [State.record]

@[simp] theorem State.sendRecords_kept (s : State) : s.sendRecords.kept = s.kept := by
  simp [State.sendRecords]

@[simp] theorem State.stepSend_kept (s : State) (type : Byte) (m : StepMsg) (dest : Nat) : (s.stepSend type m dest).kept = s.kept := by
  unfold State.stepSend
  split
  · exact State.sendUrgent_kept ..
  · rfl

@[simp] theorem State.stepUp_kept (s : State) (type : Byte) (m : StepMsg) : (s.stepUp type m).kept = s.kept := by
  unfold State.stepUp
  split
  · exact State.stepSend_kept ..
  · rfl

@[simp] theorem State.stepDown_kept (s : State) (type : Byte) (m : StepMsg) : (s.stepDown type m).kept = s.kept :=
  foldl_kept (fun s _ => s.stepSend_kept type m _) _ s

@[simp] theorem State.layRings_kept (s : State) (at_ : Nat) (ns : List Nat) : (s.layRings at_ ns).kept = s.kept := by
  induction ns generalizing s at_ with
  | nil => rfl
  | cons n ns ih =>
    unfold State.layRings
    split
    · exact ih ..
    · exact ih ..

@[simp] theorem State.actOn_kept (s : State) (p : Placement) : (s.actOn p).kept = s.kept :=
  (foldl_kept (fun s _ => s.layRings_kept ..) _ _).trans (State.eachLive_kept ..)

@[simp] theorem State.takeNext_kept (s : State) : s.takeNext.kept = s.kept := by
  unfold State.takeNext
  split
  · split
    · split
      · exact State.actOn_kept ..
      · rfl
    · rfl
  · rfl

@[simp] theorem State.sendCredit_kept (s : State) (r : Ring) : (s.sendCredit r).kept = s.kept := by
  unfold State.sendCredit
  split <;> rfl

@[simp] theorem State.checkRings_kept (s : State) (n : Nat) : (s.checkRings n).kept = s.kept := by
  simp [State.checkRings]

@[simp] theorem State.stepDone_kept (s : State) : s.stepDone.kept = s.kept := by
  simp [State.stepDone]

@[simp] theorem State.applyChecked_kept (s : State) (m : StepMsg) : (s.applyChecked m).kept = s.kept :=
  kept_if ((State.stepDone_kept _).trans (State.stepDown_kept ..)) rfl

@[simp] theorem State.cleanCheck_kept (s : State) : s.cleanCheck.kept = s.kept := by
  unfold State.cleanCheck
  dsimp only
  split
  · split
    · rfl
    · exact kept_if (kept_if (State.applyChecked_kept ..) rfl) (State.stepUp_kept ..)
  · rfl

@[simp] theorem State.haltCores_kept (s : State) : s.haltCores.kept = s.kept := by
  simp [State.haltCores]

@[simp] theorem State.enterBarrier_kept (s : State) (r : W48) (g : W16) (hold epoch : Bool) :
    (s.enterBarrier r g hold epoch).kept = s.kept := by
  simp [State.enterBarrier]

@[simp] theorem State.applyReplay_kept (s : State) (m : StepMsg) : (s.applyReplay m).kept = s.kept := by
  simp [State.applyReplay]

@[simp] theorem State.leaderReplay_kept (s : State) (m : StepMsg) : (s.leaderReplay m).kept = s.kept := State.applyReplay_kept ..

@[simp] theorem State.faultyUp_kept (s : State) (m : StepMsg) : (s.faultyUp m).kept = s.kept :=
  kept_if rfl (kept_if (State.leaderReplay_kept ..) (State.stepUp_kept ..))

@[simp] theorem State.reportFaulty_kept (s : State) (n : Nat) (hold : Bool) : (s.reportFaulty n hold).kept = s.kept :=
  kept_if rfl (kept_if (kept_if rfl (State.faultyUp_kept ..)) (kept_if rfl (State.faultyUp_kept ..)))

@[simp] theorem State.gatherFaults_kept (s : State) : s.gatherFaults.kept = s.kept := by
  simp [State.gatherFaults]

@[simp] theorem State.restoreJob_kept (s : State) (c : Cru) : (s.restoreJob c).kept = s.kept := by
  refine kept_if rfl ?_
  split <;> rfl

@[simp] theorem State.clearCores_kept (s : State) (c : Cru) : (s.clearCores c).kept = s.kept := by
  simp [State.clearCores]

@[simp] theorem State.replaceUnits_kept (s : State) (c : Cru) : (s.replaceUnits c).kept = s.kept := by
  unfold State.replaceUnits
  refine foldl_kept (fun s u => ?_) _ s
  rfl

@[simp] theorem State.drainCrucible_kept (s : State) (restore : Bool) (c : Cru) : (s.drainCrucible restore c).kept = s.kept := by
  simp [State.drainCrucible]

@[simp] theorem State.resumeNow_kept (s : State) (m : StepMsg) : (s.resumeNow m).kept = s.kept := by
  unfold State.resumeNow
  split
  · exact kept_if (State.stepDown_kept ..) rfl
  · rfl

@[simp] theorem State.drainCheck_kept (s : State) : s.drainCheck.kept = s.kept := by
  unfold State.drainCheck
  split
  · split
    · split
      · rfl
      · exact kept_if (kept_if (State.resumeNow_kept ..) rfl) (State.stepUp_kept ..)
    · rfl
  · rfl

@[simp] theorem State.enterHeld_kept (s : State) : s.enterHeld.kept = s.kept := rfl

@[simp] theorem State.rerunPrologue_kept (s : State) : s.rerunPrologue.kept = s.kept := by
  unfold State.rerunPrologue
  split
  · rfl
  · exact State.eachLive_kept ..

@[simp] theorem State.drainEnd_kept (s : State) : s.drainEnd.kept = s.kept := by
  unfold State.drainEnd
  split
  · split
    · rfl
    · simp
  · rfl

@[simp] theorem State.epochChanged_kept (s : State) : s.epochChanged.kept = s.kept := by
  unfold State.epochChanged
  dsimp only
  split <;> simp

@[simp] theorem State.freeRisers_kept (s : State) : s.freeRisers.kept = s.kept := by
  simp [State.freeRisers]

@[simp] theorem State.settleIngot_kept (s : State) : s.settleIngot.kept = s.kept := by
  unfold State.settleIngot
  split
  · rfl
  · split
    · exact kept_if (State.freeRisers_kept _) rfl
    · rfl

@[simp] theorem State.failIngot_kept (s : State) (target : Byte) (status : W16) : (s.failIngot target status).kept = s.kept := by
  unfold State.failIngot
  split
  · rfl
  · exact State.settleIngot_kept _

@[simp] theorem State.spoilShards_kept (s : State) (c : Cru) : (s.spoilShards c).kept = s.kept := by
  unfold State.spoilShards
  refine foldl_kept (fun s u => ?_) _ s
  rfl

@[simp] theorem State.settleRestore_kept (s : State) : s.settleRestore.kept = s.kept := by
  unfold State.settleRestore
  split
  · rfl
  · split
    · exact kept_if (kept_if rfl (foldl_kept State.spoilShards_kept _ s)) rfl
    · rfl

@[simp] theorem State.failRestore_kept (s : State) (target : Byte) (status : W16) : (s.failRestore target status).kept = s.kept := by
  unfold State.failRestore
  split
  · rfl
  · exact State.settleRestore_kept _

@[simp] theorem State.failTransfers_kept (s : State) : s.failTransfers.kept = s.kept :=
  (State.failRestore_kept ..).trans (State.failIngot_kept ..)

@[simp] theorem State.enterFenced_kept (s : State) (epoch : W16) (m : Nat) : (s.enterFenced epoch m).kept = s.kept := by
  simp [State.enterFenced]

/-! ### CoreCtl -/

@[simp] theorem State.reloadCore_kept (s : State) (k : CoreId) : (s.reloadCore k).kept = s.kept := by
  unfold State.reloadCore
  dsimp only
  split <;> simp

/-! ### LinkOps -/

@[simp] theorem State.noticeAll_kept (s : State) (c : Cru) (n : PortIx) (type : Byte) : (s.noticeAll c n type).kept = s.kept := by
  simp [State.noticeAll]

@[simp] theorem State.rerouteOne_kept (s : State) (c : Cru) (n : PortIx) (w : CreditWait) : (s.rerouteOne c n w).kept = s.kept := by
  unfold State.rerouteOne
  dsimp only
  split
  · split <;> rfl
  · refine kept_if ?_ (kept_if (State.sendUc_kept ..) rfl)
    split <;> rfl

@[simp] theorem State.losePort_kept (s : State) (c : Cru) (n : PortIx) (cause : BitVec 4) (next : PortMode) :
    (s.losePort c n cause next).kept = s.kept := by
  simp [State.losePort]

@[simp] theorem State.tellUp_kept (s : State) (c : Cru) (n : PortIx) : (s.tellUp c n).kept = s.kept := by
  simp [State.tellUp]

@[simp] theorem State.recordLanes_kept (s : State) (c : Cru) (n : PortIx) (page : W64) (ls : List Nat) (kind : Byte) :
    (s.recordLanes c n page ls kind).kept = s.kept := by
  simp [State.recordLanes]

@[simp] theorem State.newPartner_kept (s : State) (c : Cru) (n : PortIx) (page : W64) : (s.newPartner c n page).kept = s.kept := by
  unfold State.newPartner
  split
  · rfl
  · exact kept_if (State.record_kept ..) rfl

@[simp] theorem State.resendCodeword_kept (s : State) (c : Cru) (n : PortIx) (w : TxCodeword) :
    (s.resendCodeword c n w).kept = s.kept := rfl

@[simp] theorem State.dropLane_kept (s : State) (c : Cru) (n : PortIx) (l : Nat) : (s.dropLane c n l).kept = s.kept := by
  have h := foldl_kept (fun s w => s.resendCodeword_kept c n w)
  exact kept_if ((State.losePort_kept ..).trans (h _ _)) (h _ _)

@[simp] theorem State.applyChange_kept (s : State) (c : Cru) (n : PortIx) (g : LaneChange) : (s.applyChange c n g).kept = s.kept :=
  kept_if rfl (kept_if rfl (kept_if (State.dropLane_kept ..) rfl))

@[simp] theorem State.settlePort_kept (s : State) (c : Cru) (n : PortIx) : (s.settlePort c n).kept = s.kept := by
  have h := foldl_kept (fun s g => s.applyChange_kept c n g)
  unfold State.settlePort
  dsimp only
  split
  · exact h _ _
  · exact h _ _

@[simp] theorem State.loseLane_kept (s : State) (c : Cru) (n : PortIx) (l : Nat) : (s.loseLane c n l).kept = s.kept := by
  simp [State.loseLane]

@[simp] theorem State.badCodeword_kept (s : State) (c : Cru) (n : PortIx) (l number k : Nat) :
    (s.badCodeword c n l number k).kept = s.kept := by
  simp [State.badCodeword]

@[simp] theorem State.goodCodeword_kept (s : State) (c : Cru) (n : PortIx) (number : Nat) (w : Codeword) :
    (s.goodCodeword c n number w).kept = s.kept :=
  (State.emit_kept ..).trans (State.putCrucible_kept ..)

@[simp] theorem State.newCodeword_kept (s : State) (c : Cru) (n : PortIx) (w : Codeword) : (s.newCodeword c n w).kept = s.kept := by
  simp [State.newCodeword]

@[simp] theorem State.oldCodeword_kept (s : State) (c : Cru) (n : PortIx) (w : Codeword) : (s.oldCodeword c n w).kept = s.kept := by
  refine kept_if ?_ ?_
  · split
    · exact State.goodCodeword_kept ..
    · rfl
  · split
    · exact State.badCodeword_kept ..
    · rfl

/-! ### ResetOps -/

@[simp] theorem State.modulePowerOn_kept (s : State) : s.modulePowerOn.kept = s.kept := rfl

@[simp] theorem State.commitSlot_kept (s : State) (v : SlotState) : (s.commitSlot v).1.kept = s.kept := rfl

@[simp] theorem State.firmwareEvent_kept (s : State) (kind : Byte) (reason : W16) : (s.firmwareEvent kind reason).kept = s.kept := rfl

@[simp] theorem State.failActivation_kept (s : State) (code : W16) : (s.failActivation code).kept = s.kept := by
  simp [State.failActivation]

@[simp] theorem State.hangMeets_kept (s : State) (c : Cru) : (s.hangMeets c).kept = s.kept := by
  unfold State.hangMeets
  split
  · exact kept_if (State.failActivation_kept ..) rfl
  · rfl

/-! ### HangOps -/

@[simp] theorem State.declareHang_kept (s : State) (c : Cru) (cause : BitVec 2) (units : List StallUnit) :
    (s.declareHang c cause units).kept = s.kept :=
  (State.hangMeets_kept ..).trans (State.failTransfers_kept _)

@[simp] theorem State.crucibleHistory_kept (s : State) (c : Cru) (type about : Byte) (body : List Byte) :
    (s.crucibleHistory c type about body).kept = s.kept := by
  simp [State.crucibleHistory]

@[simp] theorem State.resetFaulty_kept (s : State) : s.resetFaulty.kept = s.kept := State.reportFaulty_kept ..

@[simp] theorem State.countedReset_kept (s : State) (c : Cru) (resets : Nat) (body : List Byte) :
    (s.countedReset c resets body).kept = s.kept := by
  unfold State.countedReset
  dsimp only
  split
  · split
    · exact (State.resetFaulty_kept _).trans (State.crucibleHistory_kept ..)
    · rfl
  · exact (State.resetFaulty_kept _).trans (State.crucibleHistory_kept ..)

@[simp] theorem State.hangReset_kept (s : State) (c : Cru) : (s.hangReset c).kept = s.kept := by
  unfold State.hangReset
  split
  · rfl
  · exact State.countedReset_kept ..

/-! ### RegRead -/

@[simp] theorem State.pdUnassigned_kept (s : State) (h : HalfIx) (off : Nat) : (s.pdUnassigned h off).kept = s.kept := by
  unfold State.pdUnassigned
  split <;> rfl

end Sys2Proof.Machine
end

section
/-!
SUPPORT. Activation, the store, the registers, the host's answers and the boot: only a raise of the version writes the OTP, so what can
come to one keeps every fuse (`Follows`) and the rest leaves the OTP as it was (`State.kept`).
-/
namespace Sys2Proof.Machine

/-! ### ActivationOps -/

@[simp] theorem State.secBump_kept (s : State) (k : Nat) : (s.secBump k).kept = s.kept := rfl

theorem follows_tryConfirm (s : State) : Follows s s.tryConfirm := by
  unfold State.tryConfirm
  split
  · exact .refl s
  · split
    · dsimp only
      split
      next t ht => exact (Follows.of_kept (kept_of_fst ht (State.commitSlot_kept ..))).trans (follows_raiseFuses _)
      next t ht => exact .of_kept (kept_of_fst ht (State.commitSlot_kept ..))
    · exact .refl s

@[simp] theorem State.restartCrucible_kept (s : State) (c : Cru) : (s.restartCrucible c).kept = s.kept :=
  (State.resetFaulty_kept _).trans (State.failTransfers_kept _)

theorem follows_nextRestart (s : State) (a : Activation) (k : Nat) : Follows s (s.nextRestart a k) := by
  unfold State.nextRestart
  dsimp only
  split
  · exact .of_kept (kept_if (State.restartCrucible_kept ..) rfl)
  · exact follows_tryConfirm { s with boot := { s.boot with activation := some { a with stage := 7 } } }

@[simp] theorem State.rejoin_kept (s : State) (c : Cru) : (s.rejoin c).kept = s.kept := by
  unfold State.rejoin
  dsimp only
  split <;> simp

theorem follows_crucibleBack (s : State) (c : Cru) : Follows s (s.crucibleBack c) := by
  unfold State.crucibleBack
  dsimp only
  split
  · split
    · refine Follows.trans (.of_kept ?_) (follows_nextRestart ..)
      simp
    · refine Follows.trans (.of_kept ?_) (follows_tryConfirm _)
      simp
  · refine Follows.trans (.of_kept ?_) (follows_tryConfirm _)
    simp

/-! ### Store -/

@[simp] theorem State.openStore_kept (s : State) : s.openStore.kept = s.kept := by
  unfold State.openStore
  split
  · dsimp only
    rw [State.kept_mk_boot, State.fresh_kept]
  · rfl

@[simp] theorem State.afterDurable_kept (s : State) (w : RecWrite) : (s.afterDurable w).kept = s.kept := by
  unfold State.afterDurable
  split <;> rfl

/-! ### Links -/

theorem State.atPort_kept (s : State) (c : Cru) (n : PortIx) (ms : List PortMode) (f : Port → State) (h : ∀ p, (f p).kept = s.kept) :
    (s.atPort c n ms f).kept = s.kept :=
  kept_if (h _) rfl

@[simp] theorem State.putPort_kept (s : State) (c : Cru) (n : PortIx) (p : Port) : (s.putPort c n p).kept = s.kept := rfl

theorem State.atMessage_kept (s : State) (c : Cru) (n : PortIx) (f : Port → State) (h : ∀ p, (f p).kept = s.kept) :
    (s.atMessage c n f).kept = s.kept :=
  s.atPort_kept c n _ _ (fun p => kept_if (h p) rfl)

@[simp] theorem State.scheduleChange_kept (s : State) (c : Cru) (n : PortIx) (point : BitVec 12) (lane : Nat) (join : Bool)
    (out : Option Nat) :
    (s.scheduleChange c n point lane join out).kept = s.kept := State.settlePort_kept ..

@[simp] theorem State.setEnable_kept (s : State) (c : Cru) (n : PortIx) (value : Bool) : (s.setEnable c n value).kept = s.kept := by
  simp [State.setEnable]

@[simp] theorem State.retrain_kept (s : State) (c : Cru) (n : PortIx) : (s.retrain c n).kept = s.kept := by
  simp [State.retrain]

/-! ### RegWrite -/

@[simp] theorem State.calibration_kept (s : State) (c : Cru) (l : Nat) : (s.calibration c l).kept = s.kept := rfl

@[simp] theorem State.clearNumEvent_kept (s : State) (a : Accessor) (c : Cru) (l : Nat) : (s.clearNumEvent a c l).kept = s.kept := by
  simp [State.clearNumEvent]

@[simp] theorem State.clearUePending_kept (s : State) (a : Accessor) (c : Cru) : (s.clearUePending a c).kept = s.kept := by
  simp [State.clearUePending]

@[simp] theorem State.historyNow_kept (s : State) (c : Cru) (es : List (List Byte)) : (s.historyNow c es).1.kept = s.kept := by
  unfold State.historyNow
  dsimp only
  split
  · rfl
  · split
    · split <;> rfl
    · rfl

@[simp] theorem State.clearTallyLog_kept (s : State) (a : Accessor) (c : Cru) : (s.clearTallyLog a c).kept = s.kept := by
  unfold State.clearTallyLog
  dsimp only
  split <;> simp

@[simp] theorem State.popFault_kept (s : State) (a : Accessor) (c : Cru) : (s.popFault a c).kept = s.kept := by
  unfold State.popFault
  split
  · rfl
  · split
    next t ok ht =>
      have h : t.kept = s.kept := by
        refine kept_of_fst ht ?_
        split
        · exact State.historyNow_kept ..
        · rfl
      exact kept_if h h

@[simp] theorem State.forceHangNow_kept (s : State) (c : Cru) : (s.forceHangNow c).kept = s.kept := kept_if (State.declareHang_kept ..) rfl

@[simp] theorem State.clearNumFlags_kept (s : State) (a : Accessor) (c : Cru) (i : Nat) (v : W32) :
    (s.clearNumFlags a c i v).kept = s.kept := by
  simp [State.clearNumFlags]

@[simp] theorem State.writeHbmStatus_kept (s : State) (a : Accessor) (c : Cru) (v : W32) : (s.writeHbmStatus a c v).kept = s.kept := by
  simp [State.writeHbmStatus]

@[simp] theorem State.writePortCtrl_kept (s : State) (c : Cru) (n : PortIx) (v : W32) : (s.writePortCtrl c n v).kept = s.kept := by
  simp [State.writePortCtrl]

@[simp] theorem State.writeHangCtrl_kept (s : State) (c : Cru) (v : W32) : (s.writeHangCtrl c v).kept = s.kept :=
  kept_if ((State.forceHangNow_kept ..).trans (kept_if rfl rfl)) (kept_if rfl rfl)

theorem State.writeActive_kept (s : State) (a : Accessor) (c : Cru) (off : Nat) (v : W32) :
    ∀ t ∈ s.writeActive a c off v, t.kept = s.kept := by
  refine forall_mem_orElse ?_ (forall_mem_orElse ?_ (forall_mem_orElse ?_ (forall_mem_orElse ?_ (forall_mem_orElse ?_
    (forall_mem_orElse ?_ ?_)))))
  · exact forall_mem_regN fun i => State.clearNumFlags_kept ..
  · exact forall_mem_reg1 (State.writeHbmStatus_kept ..)
  · exact forall_mem_regN fun i => State.writePortCtrl_kept ..
  · exact forall_mem_reg1 rfl
  · exact forall_mem_reg1 (kept_if (State.clearTallyLog_kept ..) rfl)
  · exact forall_mem_reg1 (kept_if (State.popFault_kept ..) rfl)
  · exact forall_mem_reg1 (State.writeHangCtrl_kept ..)

@[simp] theorem State.cruWrite_kept (s : State) (a : Accessor) (c : Cru) (off : Nat) (v : W32) : (s.cruWrite a c off v).kept = s.kept := by
  unfold State.cruWrite
  dsimp only
  split
  next t ht =>
    refine forall_mem_orElse (s.writeActive_kept a c off v) (forall_mem_map ?_) t ht
    exact fun x => rfl
  next => exact kept_if rfl rfl

/-- A register write of the boot block changes no fuse. -/
theorem Boot.write_otp (b : Boot) (off : Nat) (v : W32) : ∀ b' ∈ b.write off v, b'.otp = b.otp := by
  refine forall_mem_orElse (forall_mem_reg1 ?_) (forall_mem_orElse (forall_mem_reg1 rfl) (forall_mem_regN fun k => rfl))
  split <;> rfl

@[simp] theorem State.readResStatus_kept (s : State) (v : W32) : (s.readResStatus v).2.kept = s.kept := by
  unfold State.readResStatus
  split <;> rfl

@[simp] theorem State.cruRegRead_kept (s : State) (a : Accessor) (c : Cru) (off : Nat) : (s.cruRegRead a c off).2.kept = s.kept := by
  unfold State.cruRegRead
  dsimp only
  split
  · rfl
  · split
    case h_5 =>
      split
      · rfl
      · split
        · rfl
        · split
          · exact State.readResStatus_kept ..
          · rfl
    all_goals rfl

@[simp] theorem State.pdWrite_kept (s : State) (h : HalfIx) (off : Nat) (v : W32) : (s.pdWrite h off v).kept = s.kept := by
  unfold State.pdWrite
  split
  next t ht =>
    refine forall_mem_orElse (P := fun u => u.kept = s.kept) ?half (forall_mem_orElse ?store (forall_mem_orElse ?boot ?power)) t ht
    case half =>
      refine forall_mem_map fun w => ?_
      rfl
    case store =>
      refine forall_mem_map fun t => ?_
      rfl
    case boot =>
      intro u hu
      obtain ⟨b, hb, rfl⟩ := Option.mem_map.mp hu
      exact congrArg (Prod.mk _) (s.boot.write_otp off v b hb)
    case power =>
      refine forall_mem_map fun p => ?_
      rfl
  next => exact kept_if rfl (State.pdUnassigned_kept ..)

@[simp] theorem State.ctrlWriteWord_kept (s : State) (a : Accessor) (sp : CtrlSpace) (off : Nat) (v : W32) :
    (s.ctrlWriteWord a sp off v).kept = s.kept := by
  unfold State.ctrlWriteWord
  split
  · exact kept_if (State.cruWrite_kept ..) rfl
  · split
    · exact State.pdWrite_kept ..
    · rfl

@[simp] theorem State.ctrlReadWord_kept (s : State) (a : Accessor) (sp : CtrlSpace) (off : Nat) :
    (s.ctrlReadWord a sp off).2.kept = s.kept := by
  unfold State.ctrlReadWord
  split
  · split
    · exact State.cruRegRead_kept ..
    · rfl
  · split
    · split
      · rfl
      · exact State.pdUnassigned_kept ..
    · rfl

/-! ### HostOps -/

theorem follows_onFrames (s : State) (f : Frame) (n : Nat) (g : State → State) (h : ∀ t, Follows t (g t)) :
    Follows s (s.onFrames f n g) := by
  unfold State.onFrames
  dsimp only
  split
  · exact .refl s
  · split
    · exact h _
    · exact .of_kept rfl

@[simp] theorem State.congested_kept (s : State) (h : HalfIx) (n : Nat) (ce : Bool) : (s.congested h n ce).kept = s.kept := by
  unfold State.congested
  dsimp only
  split <;> simp

@[simp] theorem State.reply_kept (s : State) (a : AnswerTo) (status : W16) (detail : W32) (unavailable : BitVec 4) (body : List Byte) :
    (s.reply a status detail unavailable body).kept = s.kept := by
  unfold State.reply
  split <;> rfl

@[simp] theorem State.ok_kept (s : State) (a : AnswerTo) (unavailable : BitVec 4) (body : List Byte) :
    (s.ok a unavailable body).kept = s.kept := by
  simp [State.ok]

@[simp] theorem State.startWake_kept (s : State) : s.startWake.kept = s.kept := by
  unfold State.startWake
  split <;> rfl

theorem follows_arriveCmd (s : State) (m : CmdMsg) (i : Instr) (w : AwayRule) (run : State → State) (h : ∀ t, Follows t (run t)) :
    Follows s (s.arriveCmd m i w run) := by
  refine follows_onFrames s _ _ _ fun t => ?_
  dsimp only
  split
  · exact .refl t
  · split
    · have hc := t.congested_kept m.half m.qp m.ce
      split
      · exact .of_kept hc
      · split
        · exact .of_kept ((State.startWake_kept _).trans hc)
        · split
          · exact .of_kept hc
          · exact (Follows.of_kept hc).trans (h _)
    · exact .refl t

@[simp] theorem State.readWindow_kept (s : State) (id off n : Nat) : (s.readWindow id off n).2.kept = s.kept := by
  unfold State.readWindow
  split <;> rfl

@[simp] theorem State.eventSpace_kept (s : State) (h : HalfIx) (n : Nat) : (s.eventSpace h n).kept = s.kept := by
  simp [State.eventSpace]

/-! ### Boot -/

@[simp] theorem State.verify_kept (s : State) (n k : Nat) : (s.verify n k).2.kept = s.kept := by
  simp [State.verify]

@[simp] theorem State.loadSettings_kept (s : State) : s.loadSettings.kept = s.kept := rfl

@[simp] theorem State.checkSetting_kept (s : State) (i : RunImage) (g : Nat) : (s.checkSetting i g).kept = s.kept := by
  unfold State.checkSetting
  dsimp only
  split <;> simp

@[simp] theorem State.trainStacks_kept (s : State) (c : Cru) : (s.trainStacks c).kept = s.kept := by
  simp [State.trainStacks]

@[simp] theorem State.recover_kept (s : State) (reason : W16) : (s.recover reason).kept = s.kept := by
  simp [State.recover]

theorem follows_activationBoots (s : State) (i : RunImage) : Follows s (s.activationBoots i) := by
  unfold State.activationBoots
  split
  · exact .refl s
  · split
    · exact .refl s
    · split
      · exact .of_kept rfl
      · split
        · exact .of_kept (State.failActivation_kept ..)
        · exact follows_nextRestart ..

@[simp] theorem State.wakeEvents_kept (s : State) : s.wakeEvents.kept = s.kept := by
  simp [State.wakeEvents]

theorem follows_bootImage (s : State) (slot : Nat) (trial : Bool) (reason : W16) : Follows s (s.bootImage slot trial reason) := by
  unfold State.bootImage
  dsimp only
  refine Follows.trans (.ite (Follows.trans (.of_kept ?_) (follows_raiseFuses _)) (.of_kept ?_))
    ((Follows.of_kept (State.wakeEvents_kept _)).trans (follows_activationBoots _ _))
  all_goals exact foldl_kept (fun t g => State.checkSetting_kept t _ g) _ _

theorem follows_bootOther (s : State) (st : SlotState) : Follows s (s.bootOther st) := by
  unfold State.bootOther
  dsimp only
  split
  next t ht => exact .of_kept ((State.recover_kept ..).trans (kept_of_fst ht (State.commitSlot_kept ..)))
  next t ht =>
    refine Follows.trans (.of_kept (kept_of_fst ht (State.commitSlot_kept ..))) (.ite ?_ (.of_kept ?_))
    · refine Follows.trans (.of_kept ?_) (follows_bootImage ..)
      exact State.verify_kept ..
    · refine (State.recover_kept ..).trans ?_
      exact State.verify_kept ..

theorem follows_bootStable (s : State) (st : SlotState) : Follows s (s.bootStable st) := by
  refine Follows.trans (.of_kept (s.verify_kept st.active 0)) (.ite ?_ (.ite ?_ ?_))
  · exact follows_bootImage ..
  · exact .of_kept (State.recover_kept ..)
  · exact follows_bootOther ..

@[simp] theorem State.trialReason_kept (s : State) (st : SlotState) : (s.trialReason st).2.kept = s.kept := by
  unfold State.trialReason
  split <;> rfl

theorem follows_trialFailed (s : State) (st : SlotState) (code : W16) : Follows s (s.trialFailed st code) := by
  unfold State.trialFailed
  dsimp only
  split
  · exact .of_kept (State.recover_kept ..)
  · split
    next t ht => exact (Follows.of_kept (kept_of_fst ht (State.commitSlot_kept ..))).trans (follows_bootStable ..)
    next t ht => exact .of_kept ((State.recover_kept ..).trans (kept_of_fst ht (State.commitSlot_kept ..)))

theorem follows_chooseSlot (s : State) : Follows s s.chooseSlot := by
  unfold State.chooseSlot
  dsimp only
  split
  · exact follows_bootStable ..
  · split
    · exact (Follows.of_kept (State.trialReason_kept ..)).trans (follows_trialFailed ..)
    · refine Follows.trans (.of_kept (s.verify_kept s.slotState.active 0)) (.ite ?_ ?_)
      · exact follows_trialFailed ..
      · split
        next u hu =>
          refine Follows.trans (.of_kept (kept_of_fst hu (State.commitSlot_kept ..))) (Follows.trans (.of_kept ?_) (follows_bootImage ..))
          rfl
        next u hu => exact .of_kept ((State.recover_kept ..).trans (kept_of_fst hu (State.commitSlot_kept ..)))

@[simp] theorem State.applyCoreMap_kept (s : State) (c : Cru) : (s.applyCoreMap c).kept = s.kept := by
  unfold State.applyCoreMap
  split
  · exact kept_if rfl rfl
  · rfl

@[simp] theorem State.startComponent_kept (s : State) (c : Cru) : (s.startComponent c).kept = s.kept := by
  have h := s.verify_kept s.slotState.active 1
  unfold State.startComponent
  dsimp only
  refine kept_if ((State.applyCoreMap_kept ..).trans h) ?_
  split
  · exact kept_if ((State.failActivation_kept ..).trans h) h
  · exact h

end Sys2Proof.Machine
end

section
/-!
SUPPORT. The host's commands, the storage transfers, the update of the firmware, the power rails and Banked mode.
-/
namespace Sys2Proof.Machine

/-! ### HostSteps -/

theorem follows_cmdIdentify (s : State) (m : CmdMsg) : Follows s (s.cmdIdentify m) :=
  follows_serve _ _ _ _ fun _ => .of_kept (State.ok_kept ..)

theorem follows_cmdSubscribe (s : State) (m : CmdMsg) : Follows s (s.cmdSubscribe m) :=
  follows_serve _ _ _ _ fun _ => .of_kept ((State.ok_kept ..).trans (kept_if rfl (State.eventSpace_kept ..)))

@[simp] theorem State.cmdUnknown_kept (s : State) (m : CmdMsg) (opcode : W16) : (s.cmdUnknown m opcode).kept = s.kept := by
  unfold State.cmdUnknown
  dsimp only
  split <;> simp

@[simp] theorem State.endJob_kept (s : State) (r : Running) : (s.endJob r).kept = s.kept := by
  unfold State.endJob
  dsimp only
  split <;> simp

@[simp] theorem State.fanJob_kept (s : State) (m : CmdMsg) (a : AnswerTo) (epoch : W16) (jobTag : Option W16) (f : JobSet → JobSet) :
    (s.fanJob m a epoch jobTag f).kept = s.kept := by
  have h := foldl_kept (f := fun (s : State) c => s.atCrucible c (fun x => x.stageJob f)) (fun _ _ => rfl)
  exact kept_if (State.reply_kept ..) (kept_if (State.ok_kept ..) (h _ s))

theorem follows_cmdJobSet (s : State) (m : CmdMsg) : Follows s (s.cmdJobSet m) := by
  refine follows_serve _ _ _ _ fun a => follows_checked _ _ _ ?_
  simp only
  refine .of_kept ((State.fanJob_kept ..).trans ?_)
  split
  · rfl
  · exact State.readWindow_kept ..

theorem follows_cmdSetEpoch (s : State) (m : CmdMsg) : Follows s (s.cmdSetEpoch m) :=
  follows_serve _ _ _ _ fun _ => follows_checked _ _ _ (.of_kept (State.fanJob_kept ..))

@[simp] theorem State.jobAnswered_kept (s : State) (c : Cru) (rejected away : Bool) : (s.jobAnswered c rejected away).kept = s.kept := by
  simp [State.jobAnswered]

@[simp] theorem State.settleJobs_kept (s : State) : s.settleJobs.kept = s.kept := by
  simp [State.settleJobs]

@[simp] theorem State.fencedHeld_kept (s : State) : s.fencedHeld.kept = s.kept := by
  simp [State.fencedHeld]

@[simp] theorem State.jobTaken_kept (s : State) (old new : JobSet) : (s.jobTaken old new).kept = s.kept := by
  simp [State.jobTaken]

@[simp] theorem State.renewNext_kept (s : State) (old new : HealthMap) : (s.renewNext old new).kept = s.kept := by
  unfold State.renewNext
  dsimp only
  split <;> simp

@[simp] theorem State.takeMap_kept (s : State) (h : HealthMap) : (s.takeMap h).kept = s.kept := by
  unfold State.takeMap
  dsimp only
  split <;> simp

theorem follows_cmdSetHealthMap (s : State) (m : CmdMsg) : Follows s (s.cmdSetHealthMap m) := by
  refine follows_serve _ _ _ _ fun _ => follows_checked _ _ _ ?_
  refine (Follows.of_kept (State.readWindow_kept ..)).trans (follows_checked _ _ _ ?_)
  exact .of_kept ((State.ok_kept ..).trans (State.takeMap_kept ..))

theorem follows_cmdSetXrack (s : State) (m : CmdMsg) : Follows s (s.cmdSetXrack m) := by
  refine follows_serve _ _ _ _ fun _ => follows_checked _ _ _ (.of_kept ?_)
  have h := foldl_kept (s := s) (f := fun s c => s.atCrucible c (fun x =>
    (x.shadowXrack (fun _ => ⟨BitVec.ofNat 12 (cmdField m 0 2), BitVec.ofNat 16 (cmdField m 2 2)⟩)).xrackCommit)) (fun _ _ => rfl)
  exact kept_if (State.reply_kept ..) (kept_if ((State.reply_kept ..).trans (h _)) ((State.ok_kept ..).trans (h _)))

theorem follows_cmdTakeOver (s : State) (m : CmdMsg) : Follows s (s.cmdTakeOver m) :=
  follows_serve _ _ _ _ fun _ => follows_checked _ _ _ (.of_kept (State.ok_kept ..))

@[simp] theorem State.takeUnits_kept (s : State) (step : W48) (c : Cru) : (s.takeUnits step c).kept = s.kept := by
  unfold State.takeUnits
  refine foldl_kept (fun t u => ?_) _ _
  rfl

@[simp] theorem State.commitRegulators_kept (s : State) : s.commitRegulators.kept = s.kept := by
  unfold State.commitRegulators
  split
  · rfl
  · exact State.eachLive_kept ..

@[simp] theorem State.openSteps_kept (s : State) (first : Nat) : (s.openSteps first).kept = s.kept := by
  unfold State.openSteps
  dsimp only
  split
  · rfl
  · simp

@[simp] theorem State.leaveHeld_kept (s : State) (first : Nat) : (s.leaveHeld first).kept = s.kept := by
  simp [State.leaveHeld]

@[simp] theorem State.queueStep_kept (s : State) (q : StepCmd) : (s.queueStep q).kept = s.kept := rfl

theorem follows_cmdStep (s : State) (m : CmdMsg) : Follows s (s.cmdStep m) := by
  refine follows_serve _ _ _ _ fun _ => follows_checked _ _ _ (.of_kept ?_)
  simp

theorem follows_cmdStop (s : State) (m : CmdMsg) : Follows s (s.cmdStop m) :=
  follows_serve _ _ _ _ fun _ => .of_kept (State.ok_kept ..)

/-! ### HostWindows -/

@[simp] theorem State.addWindow_kept (s : State) (c : Cru) (access : BitVec 2) (off len : Nat) (ring : Option Nat) :
    (s.addWindow c access off len ring).2.kept = s.kept := rfl

theorem follows_cmdDefineWindow (s : State) (m : CmdMsg) : Follows s (s.cmdDefineWindow m) :=
  follows_serve _ _ _ _ fun _ => follows_checked _ _ _ (.of_kept ((State.ok_kept ..).trans (State.addWindow_kept ..)))

theorem follows_cmdDeleteWindow (s : State) (m : CmdMsg) : Follows s (s.cmdDeleteWindow m) :=
  follows_serve _ _ _ _ fun _ => follows_checked _ _ _ (.of_kept (State.ok_kept ..))

theorem follows_cmdDefineRing (s : State) (m : CmdMsg) : Follows s (s.cmdDefineRing m) := by
  refine follows_serve _ _ _ _ fun _ => follows_checked _ _ _ (.of_kept ?_)
  simp

theorem follows_cmdRingCredit (s : State) (m : CmdMsg) : Follows s (s.cmdRingCredit m) := by
  refine follows_serve _ _ _ _ fun _ => ?_
  dsimp only
  split
  · exact follows_checked _ _ _ (.refl s)
  · exact follows_checked _ _ _ (.of_kept (State.ok_kept ..))

@[simp] theorem State.ctrlAnswer_kept (s : State) (a : AnswerTo) (away : Bool) (c : Nat) (body : List Byte) :
    (s.ctrlAnswer a away c body).kept = s.kept := by
  simp [State.ctrlAnswer]

@[simp] theorem State.ctrlReads_kept (s : State) (v : Accessor) (sp : CtrlSpace) (off n : Nat) :
    (s.ctrlReads v sp off n).2.kept = s.kept := by
  induction n generalizing s off with
  | zero => rfl
  | succ n ih =>
    unfold State.ctrlReads
    refine (ih _ _).trans ?_
    split
    · exact State.ctrlReadWord_kept ..
    · rfl

@[simp] theorem State.ctrlWrites_kept (s : State) (v : Accessor) (sp : CtrlSpace) (off : Nat) (bs : List Byte) (n : Nat) :
    (s.ctrlWrites v sp off bs n).kept = s.kept := by
  induction n generalizing s off bs with
  | zero => rfl
  | succ n ih => exact (ih ..).trans (kept_if (State.ctrlWriteWord_kept ..) rfl)

theorem follows_cmdCtrlRead (s : State) (m : CmdMsg) : Follows s (s.cmdCtrlRead m) :=
  follows_serve _ _ _ _ fun _ => follows_checked _ _ _ (.of_kept ((State.ctrlAnswer_kept ..).trans (State.ctrlReads_kept ..)))

theorem follows_cmdCtrlWrite (s : State) (m : CmdMsg) : Follows s (s.cmdCtrlWrite m) :=
  follows_serve _ _ _ _ fun _ => follows_checked _ _ _ (.of_kept ((State.ctrlAnswer_kept ..).trans (State.ctrlWrites_kept ..)))

@[simp] theorem State.rdmaAnswer_kept (s : State) (h : HalfIx) (q : Nat) (r : RdmaReply) : (s.rdmaAnswer h q r).kept = s.kept := rfl

theorem follows_onQp (s : State) (f : Frame) (q n : Nat) (g : Qp → State → State) (h : ∀ v t, Follows t (g v t)) :
    Follows s (s.onQp f q n g) := by
  refine follows_onFrames _ _ _ _ fun t => ?_
  split
  · split
    · exact .refl t
    · exact (Follows.of_kept (State.congested_kept ..)).trans (h ..)
  · exact .refl t

@[simp] theorem State.breakQp_kept (s : State) (h : HalfIx) (q : Nat) : (s.breakQp h q).kept = s.kept := rfl

@[simp] theorem State.refuse_kept (s : State) (h : HalfIx) (q : Nat) (r : RdmaReply) : (s.refuse h q r).kept = s.kept := by
  simp [State.refuse]

theorem follows_rdmaInto (s : State) (f : Frame) (r : RdmaReq) (g : State → Window → State) (h : ∀ t w, (g t w).kept = t.kept) :
    Follows s (s.rdmaInto f r g) := by
  refine follows_onQp _ _ _ _ _ fun v t => .of_kept ?_
  split
  · exact State.refuse_kept ..
  · exact (State.rdmaAnswer_kept ..).trans (h ..)

@[simp] theorem State.announce_kept (s : State) (h : HalfIx) (w : Window) (imm : W32) : (s.announce h w imm).kept = s.kept := by
  unfold State.announce
  dsimp only
  split
  · rfl
  · refine kept_if rfl ?_
    split <;> rfl

/-! ### Graph -/

theorem follows_cmdRegisterKernel (s : State) (m : CmdMsg) : Follows s (s.cmdRegisterKernel m) := by
  refine follows_serve _ _ _ _ fun _ => follows_checked _ _ _ ?_
  exact (Follows.of_kept (State.readWindow_kept ..)).trans (follows_checked _ _ _ (.of_kept (State.ok_kept ..)))

theorem follows_cmdSubmitGraph (s : State) (m : CmdMsg) : Follows s (s.cmdSubmitGraph m) := by
  refine follows_serve _ _ _ _ fun _ => follows_checked _ _ _ ?_
  refine (Follows.of_kept (State.readWindow_kept ..)).trans (follows_checked _ _ _ (.of_kept ?_))
  split
  · rfl
  · rfl

@[simp] theorem State.take_kept (s : State) (p : Option Placement) : (s.take p).kept = s.kept := State.takeNext_kept _

@[simp] theorem State.place_kept (s : State) (p : Placement) : (s.place p).kept = s.kept := State.take_kept ..

@[simp] theorem State.endGraph_kept (s : State) (g : GraphRun) (report : List Byte) (body : List Byte) :
    (s.endGraph g report body).kept = s.kept := by
  simp [State.endGraph]

@[simp] theorem State.rejectGraph_kept (s : State) (g : GraphRun) (status : Byte) (d : W32) : (s.rejectGraph g status d).kept = s.kept :=
  (State.endGraph_kept ..).trans (kept_if (State.take_kept ..) rfl)

/-! ### IngotOps -/

theorem State.issueNvme_kept {s t : State} {h : HalfIx} {cs : List NvmeCmd} {target : Nat} {use : NvmeUse} {op : Byte} {lba blocks : Nat}
    {c : NvmeCmd} (e : s.issueNvme h cs target use op lba blocks = some (c, t)) : t.kept = s.kept := by
  unfold State.issueNvme at e
  split at e
  · cases e
  · cases e
    rfl

@[simp] theorem State.issueExtent_kept (s : State) (i : Nat) : (s.issueExtent i).kept = s.kept := by
  unfold State.issueExtent
  split
  · rfl
  · split
    · dsimp only
      refine kept_if rfl (kept_if (State.failIngot_kept ..) ?_)
      split
      next => rfl
      next c t ht => exact (State.issueNvme_kept ht :)
    · rfl

@[simp] theorem State.ingotCmd_kept (s : State) (h : HalfIx) (target : Nat) (use : NvmeUse) (op : Byte) (lba blocks : Nat) :
    (s.ingotCmd h target use op lba blocks).kept = s.kept := by
  unfold State.ingotCmd
  split
  · rfl
  · refine kept_if rfl (kept_if (State.failIngot_kept ..) ?_)
    split
    next => rfl
    next c t ht => exact (State.issueNvme_kept ht :)

@[simp] theorem State.issueFlushes_kept (s : State) (g : IngotRun) : (s.issueFlushes g).kept = s.kept :=
  foldl_kept (fun _ _ => State.ingotCmd_kept ..) _ s

@[simp] theorem State.issueManifest_kept (s : State) (g : IngotRun) : (s.issueManifest g).kept = s.kept := by
  unfold State.issueManifest
  split
  · rfl
  · refine foldl_kept (fun t e => ?_) _ s
    exact kept_if (State.ingotCmd_kept ..) (State.ingotCmd_kept ..)

@[simp] theorem State.nextStage_kept (s : State) : s.nextStage.kept = s.kept := by
  unfold State.nextStage
  split
  · rfl
  · refine kept_if rfl ?_
    split
    · rfl
    · exact kept_if (State.issueFlushes_kept ..) rfl
    · exact State.issueManifest_kept ..
    · exact State.ingotCmd_kept ..
    · rfl

@[simp] theorem State.pushIngot_kept (s : State) : s.pushIngot.kept = s.kept := by
  unfold State.pushIngot
  split
  · rfl
  · exact kept_if rfl ((State.nextStage_kept _).trans ((State.nextStage_kept _).trans (foldl_kept State.issueExtent_kept _ s)))

/-! ### Ingot -/

@[simp] theorem State.connectHalf_kept (s : State) (n : Nat) (h : HalfIx) : (s.connectHalf n h).kept = s.kept := by
  unfold State.connectHalf
  split <;> rfl

@[simp] theorem State.connectExchange_kept (s : State) (n k : Nat) (h : HalfIx) : (s.connectExchange n k h).kept = s.kept := by
  refine kept_if (foldl_kept (fun t st => ?_) _ s) rfl
  rfl

@[simp] theorem State.tryConnect_kept (s : State) (n : Nat) (connected formatOk : Bool) (status : W16) :
    (s.tryConnect n connected formatOk status).kept = s.kept := by
  simp [State.tryConnect]

theorem follows_cmdStorageTarget (s : State) (m : CmdMsg) (connected : Bool) (blocks : Nat) (formatOk : Bool) (status : W16) :
    Follows s (s.cmdStorageTarget m connected blocks formatOk status) := by
  refine follows_serve _ _ _ _ fun _ => follows_checked _ _ _ ?_
  refine (Follows.of_kept (State.tryConnect_kept ..)).trans (follows_checked _ _ _ (.of_kept ?_))
  exact (State.ok_kept ..).trans (foldl_kept (fun _ _ => State.connectHalf_kept ..) _ _)

theorem follows_acceptIngot (s : State) (a : AnswerTo) (m : CmdMsg) (p : Placement) (part : ShardPart) (bs : List Byte) :
    Follows s (s.acceptIngot a m p part bs) :=
  follows_checked _ _ _ (.of_kept (State.ok_kept ..))

theorem follows_cmdIngot (s : State) (m : CmdMsg) : Follows s (s.cmdIngot m) := by
  refine follows_serve _ _ _ _ fun _ => follows_checked _ _ _ ?_
  dsimp only
  split
  · exact follows_checked _ _ _ (follows_checked _ _ _ (.refl s))
  · split
    · exact follows_checked _ _ _ (.of_kept (State.ok_kept ..))
    · exact follows_checked _ _ _ ((Follows.of_kept (State.readWindow_kept ..)).trans (follows_acceptIngot ..))

@[simp] theorem State.storageCe_kept (s : State) (h : HalfIx) (c : NvmeCmd) (ce : Bool) : (s.storageCe h c ce).kept = s.kept := by
  unfold State.storageCe
  split
  · exact State.congested_kept ..
  · rfl

theorem State.readPart_kept (s : State) (h : HalfIx) (cs : List NvmeCmd) (target : Nat) (use : NvmeUse) (lba n : Nat)
    (r : NvmeCmd → Option RestoreRun) :
    (if s.storageDown h target then s.failRestore 0xFF 0
      else match s.issueNvme h cs target use 2 lba n with
        | none => s
        | some (c, s) => { s with restore := r c }).kept = s.kept := by
  refine kept_if (State.failRestore_kept ..) ?_
  split
  next => rfl
  next c t ht => exact (State.issueNvme_kept ht :)

@[simp] theorem State.readManifests_kept (s : State) : s.readManifests.kept = s.kept := by
  unfold State.readManifests
  split
  · rfl
  · split
    · split
      · refine kept_if (State.readPart_kept ..) ?_
        split
        · exact State.readPart_kept ..
        · rfl
      · rfl
    · exact State.readPart_kept ..
    · rfl

@[simp] theorem State.chooseExtents_kept (s : State) (r : RestoreRun) : (s.chooseExtents r).kept = s.kept :=
  kept_if (State.failRestore_kept ..) rfl

@[simp] theorem State.readExtent_kept (s : State) (i : Nat) : (s.readExtent i).kept = s.kept := by
  unfold State.readExtent
  split
  · rfl
  · split
    · rfl
    · dsimp only
      refine kept_if rfl (kept_if (State.failRestore_kept ..) ?_)
      split
      next => rfl
      next c t ht => exact (State.issueNvme_kept ht :)

theorem State.restoreCrucible_kept (s : State) (r : RestoreRun) (p : RestorePlan) (c : Cru) :
    ∀ t ∈ s.restoreCrucible r p c, t.kept = s.kept := by
  unfold State.restoreCrucible
  dsimp only
  split
  · refine forall_mem_map fun x => ?_
    rfl
  · split
    · refine forall_mem_map fun x => ?_
      rfl
    · intro t ht
      cases ht

@[simp] theorem State.finishRestore_kept (s : State) (r : RestoreRun) : (s.finishRestore r).kept = s.kept := by
  unfold State.finishRestore
  dsimp only
  split
  next => exact State.failRestore_kept ..
  next t ht => exact foldlM_kept (fun s c => State.restoreCrucible_kept s r _ c) _ s t ht

@[simp] theorem State.pushRestore_kept (s : State) : s.pushRestore.kept = s.kept := by
  unfold State.pushRestore
  split
  next => rfl
  next r _ =>
    have h : (if r.extents.isEmpty && r.data.isEmpty then s.chooseExtents r else s).kept = s.kept :=
      kept_if (State.chooseExtents_kept ..) rfl
    refine kept_if rfl (kept_if (kept_if (State.readManifests_kept _) rfl) ?_)
    dsimp only
    generalize (if r.extents.isEmpty && r.data.isEmpty then s.chooseExtents r else s) = u at h ⊢
    split
    next => exact h
    next q _ =>
      have hq := (foldl_kept State.readExtent_kept (List.range q.extents.length) u).trans h
      refine kept_if h ?_
      split
      · exact hq
      · exact kept_if ((State.finishRestore_kept ..).trans hq) hq

theorem follows_cmdRestore (s : State) (m : CmdMsg) : Follows s (s.cmdRestore m) := by
  refine follows_serve _ _ _ _ fun _ => follows_checked _ _ _ ?_
  have h := s.readWindow_kept (cmdField m 8 4) (cmdField m 16 8) (cmdField m 24 4)
  dsimp only
  generalize s.readWindow (cmdField m 8 4) (cmdField m 16 8) (cmdField m 24 4) = q at h ⊢
  obtain ⟨bs, u⟩ := q
  refine (Follows.of_kept h).trans (follows_checked _ _ _ (.of_kept ?_))
  dsimp only
  split
  · exact (State.pushRestore_kept _).trans ((State.ok_kept ..).trans (State.readWindow_kept ..))
  · exact (State.pushRestore_kept _).trans (State.ok_kept ..)

@[simp] theorem State.ingotCompletion_kept (s : State) (g : IngotRun) (c : NvmeCmd) (status : W16) :
    (s.ingotCompletion g c status).kept = s.kept := by
  unfold State.ingotCompletion
  dsimp only
  refine kept_if (State.failIngot_kept ..) (kept_if ?_ rfl)
  exact (State.pushIngot_kept _).trans (State.settleIngot_kept _)

@[simp] theorem State.stageExtent_kept (s : State) (r : RestoreRun) (data : List Byte) : (s.stageExtent r data).kept = s.kept := rfl

@[simp] theorem State.restoreCompletion_kept (s : State) (r : RestoreRun) (c : NvmeCmd) (status : W16) (data : List Byte) :
    (s.restoreCompletion r c status data).kept = s.kept := by
  unfold State.restoreCompletion
  dsimp only
  refine kept_if (State.failRestore_kept ..) ?_
  refine kept_if ((State.failRestore_kept ..).trans ?_) ((State.pushRestore_kept _).trans ((State.settleRestore_kept _).trans ?_))
  all_goals
    split
    · split
      · exact State.stageExtent_kept ..
      · rfl
    · rfl

/-- A sector written to a slot changes no fuse. -/
theorem Boot.putSlot_otp (b : Boot) (n o : Nat) (bs : List Byte) : (b.putSlot n o bs).otp = b.otp := by
  unfold Boot.putSlot
  split <;> rfl

/-! ### Update -/

@[simp] theorem State.eraseMark_kept (s : State) (sector mark : Nat) : (s.eraseMark sector mark).1.kept = s.kept := rfl

@[simp] theorem State.endUpdate_kept (s : State) (u : UpdateRun) (status : W16) (detail : W32) :
    (s.endUpdate u status detail).kept = s.kept := by
  simp [State.endUpdate]

@[simp] theorem State.startSector_kept (s : State) (u : UpdateRun) : (s.startSector u).kept = s.kept := by
  unfold State.startSector
  refine kept_if (State.endUpdate_kept ..) ?_
  split
  next t ht => exact (State.endUpdate_kept ..).trans (kept_of_fst ht (State.eraseMark_kept ..))
  next t ht =>
    exact (congrArg (Prod.mk _) (Boot.putSlot_otp ..)).trans (kept_of_fst ht (State.eraseMark_kept ..))

theorem follows_cmdUpdateWrite (s : State) (m : CmdMsg) : Follows s (s.cmdUpdateWrite m) := by
  refine follows_serve _ _ _ _ fun _ => follows_checked _ _ _ (.of_kept ?_)
  exact (State.startSector_kept ..).trans (State.readWindow_kept ..)

@[simp] theorem State.beginActivation_kept (s : State) (step : W48) : (s.beginActivation step).kept = s.kept := by
  unfold State.beginActivation
  dsimp only
  split
  next t ht =>
    refine (kept_of_fst ht (State.commitSlot_kept ..) :).trans ?_
    rw [State.kept_mk, State.eachLive_kept]
  next t ht =>
    refine (kept_of_fst ht (State.commitSlot_kept ..) :).trans ?_
    rw [State.kept_mk, State.eachLive_kept]

theorem follows_activateRecovery (s : State) (a : AnswerTo) : Follows s (s.activateRecovery a) := by
  refine follows_checked _ _ _ (.of_kept ?_)
  dsimp only
  split
  next t ht => exact (State.modulePowerOn_kept _).trans ((State.ok_kept ..).trans (kept_of_fst ht (State.commitSlot_kept ..) :))
  next t ht => exact (State.ok_kept ..).trans (kept_of_fst ht (State.commitSlot_kept ..))

theorem follows_cmdActivate (s : State) (m : CmdMsg) : Follows s (s.cmdActivate m) := by
  unfold State.cmdActivate
  split
  · exact .of_kept (State.reply_kept ..)
  · refine follows_serve _ _ _ _ fun a => .ite (follows_activateRecovery ..) (follows_checked _ _ _ (.of_kept ?_))
    exact kept_if (State.ok_kept ..) ((State.beginActivation_kept ..).trans (State.ok_kept ..))

@[simp] theorem State.sign_kept (s : State) (msg : List Byte) : (s.sign msg).2.kept = s.kept := by
  unfold State.sign
  dsimp only
  split
  · rfl
  · split
    · split <;> rfl
    · rfl

theorem follows_cmdAttest (s : State) (m : CmdMsg) : Follows s (s.cmdAttest m) := by
  refine follows_serve _ _ _ _ fun a => .of_kept ?_
  dsimp only
  split
  next sig t ht => exact (State.ok_kept ..).trans (kept_of_snd ht (State.sign_kept ..) :)
  next code t ht => exact (State.reply_kept ..).trans (kept_of_snd ht (State.sign_kept ..))

/-! ### Power -/

@[simp] theorem State.setPowerEvent_kept (s : State) (i : Nat) : (s.setPowerEvent i).kept = s.kept := rfl

@[simp] theorem State.powerEvent_kept (s : State) (kind : Byte) (value : Nat) : (s.powerEvent kind value).kept = s.kept := rfl

@[simp] theorem State.powerDown_kept (s : State) (cause : BitVec 3) : (s.powerDown cause).kept = s.kept := rfl

@[simp] theorem State.inputGone_kept (s : State) : s.inputGone.kept = s.kept := rfl

@[simp] theorem State.inputBad_kept (s : State) (vin : W16) (cause : BitVec 3) (kind : Byte) :
    (s.inputBad vin cause kind).kept = s.kept := by
  simp [State.inputBad]

@[simp] theorem State.throttleChange_kept (s : State) (before : List Nat) : (s.throttleChange before).kept = s.kept := by
  refine kept_if ?_ (kept_if rfl rfl)
  split <;> rfl

@[simp] theorem State.thermalWarn_kept (s old : State) (t : TempReading) (c : Cru) : (s.thermalWarn old t c).kept = s.kept := by
  unfold State.thermalWarn
  split <;> rfl

@[simp] theorem State.thermalTrip_kept (s : State) (at_ temp : Nat) : (s.thermalTrip at_ temp).kept = s.kept := by
  unfold State.thermalTrip
  split <;> rfl

/-! ### Banked -/

@[simp] theorem State.closePorts_kept (s : State) : s.closePorts.kept = s.kept := by
  refine foldl_kept (fun t c => foldl_kept (fun u n => ?_) _ t) _ s
  exact kept_if (State.settlePort_kept ..) rfl

theorem follows_cmdBank (s : State) (m : CmdMsg) : Follows s (s.cmdBank m) :=
  follows_serve _ _ _ _ fun _ => follows_checked _ _ _ (.of_kept (State.closePorts_kept _))

@[simp] theorem State.clocks_kept (s : State) (run : Bool) : (s.clocks run).kept = s.kept := by
  simp [State.clocks]

theorem follows_cmdWake (s : State) (m : CmdMsg) : Follows s (s.cmdWake m) :=
  follows_serve _ _ _ _ fun _ => .of_kept (kept_if (State.ok_kept ..) (State.startWake_kept _))

@[simp] theorem State.lateReset_kept (s : State) (c : Cru) : (s.lateReset c).kept = s.kept := by
  refine kept_if ?_ rfl
  exact (State.hangMeets_kept ..).trans ((State.countedReset_kept ..).trans (State.failTransfers_kept _))

end Sys2Proof.Machine
end

section
/-!
SUPPORT. What the passes, the reduce-scatter, the checks and the comparisons of a step leave as it was (`State.kept`).
-/
namespace Sys2Proof.Machine

/-! ### Optimizer -/

@[simp] theorem State.updateGroup_kept (s : State) (p : Placement) (h : Hyper) (before : Nat) (y : ShardCopy) (c : Cru) (j : Nat) :
    (s.updateGroup p h before y c j).kept = s.kept := rfl

@[simp] theorem State.updateCopy_kept (s : State) (p : Placement) (h : Hyper) (before : Nat) (y : ShardCopy) (c : Cru) :
    (s.updateCopy p h before y c).kept = s.kept :=
  kept_if (foldl_kept (fun _ _ => State.updateGroup_kept ..) _ s) rfl

@[simp] theorem State.updateShards_kept (s : State) (p : Placement) (h : Hyper) : (s.updateShards p h).kept = s.kept := by
  refine foldl_kept (fun s c => ?_) _ s
  exact foldl_fst_kept (fun _ _ => State.updateCopy_kept ..) _ (s, 0)

/-! ### Train -/

@[simp] theorem State.callKernel_kept (s : State) (v : PassEnv) (q : Kernel) (j l rank : Nat) (c : Cru) :
    (s.callKernel v q j l rank c).kept = s.kept := by
  simp [State.callKernel]

@[simp] theorem State.callKernels_kept (s : State) (v : PassEnv) (j : Nat) (back : Bool) : (s.callKernels v j back).kept = s.kept := by
  unfold State.callKernels
  dsimp only
  split <;> simp

@[simp] theorem State.putTile_kept (s : State) (v : PassEnv) (back : Bool) (tag : Nat) (h : HeldTensor) (k : Nat) :
    (s.putTile v back tag h k).kept = s.kept := by
  simp [State.putTile]

@[simp] theorem State.pin_kept (s : State) (v : PassEnv) (h : HeldTensor) : (s.pin v h).kept = s.kept := by
  unfold State.pin
  split
  · rfl
  · exact State.eachLive_kept ..

@[simp] theorem State.putStats_kept (s : State) (v : PassEnv) (back : Bool) (h : HeldStats) : (s.putStats v back h).kept = s.kept := by
  simp [State.putStats]

@[simp] theorem State.sendForward_kept (s : State) (v : PassEnv) (hs : List HeldTensor) : (s.sendForward v hs).kept = s.kept := rfl

@[simp] theorem State.putRing_kept (s : State) (v : PassEnv) (t i j : Nat) (w : W32) : (s.putRing v t i j w).kept = s.kept := by
  unfold State.putRing
  split <;> rfl

@[simp] theorem State.putOutput_kept (s : State) (v : PassEnv) (h : HeldTensor) : (s.putOutput v h).kept = s.kept := by
  simp [State.putOutput]

@[simp] theorem State.putOut_kept (s : State) (v : PassEnv) (back : Bool) (j : Nat) (h : HeldTensor) :
    (s.putOut v back j h).kept = s.kept :=
  (State.putOutput_kept ..).trans (kept_if (State.pin_kept ..) (foldl_kept (fun _ _ => State.putTile_kept ..) _ s))

@[simp] theorem State.readWeights_kept (s : State) (v : PassEnv) (back : Bool) : (s.readWeights v back).kept = s.kept := by
  simp [State.readWeights]

@[simp] theorem State.readRings_kept (s : State) (v : PassEnv) : (s.readRings v).kept = s.kept := by
  refine foldl_kept (fun s t => foldl_kept (fun s i => foldl_kept (fun s j => ?_) _ s) _ s) _ s
  split
  · rfl
  · rfl

/-! ### Ring -/

@[simp] theorem State.ringStore_kept (s : State) (r : RingRun) (off : Nat) (bs : List Byte) : (s.ringStore r off bs).kept = s.kept := rfl

@[simp] theorem State.ringAct_kept (s : State) (r : RingRun) (act : RingAct) : (s.ringAct r act).kept = s.kept := by
  unfold State.ringAct
  split
  case h_5 => exact foldl_kept (fun _ _ => State.ringStore_kept ..) _ s
  all_goals rfl

@[simp] theorem State.runRing_kept (s : State) (v : PassEnv) (j kernel : Nat) (block : Cru → Nat → List Byte)
    (state : Nat → Nat → List Byte) :
    (s.runRing v j kernel block state).kept = s.kept :=
  foldl_kept (fun s _ => kept_if (foldl_kept (fun _ _ => State.ringAct_kept ..) _ s) rfl) _ s

@[simp] theorem State.ringForward_kept (s : State) (v : PassEnv) (j : Nat) (q k w : Mat) : (s.ringForward v j q k w).kept = s.kept := by
  unfold State.ringForward
  exact State.runRing_kept ..

@[simp] theorem State.ringQuery_kept (s : State) (v : PassEnv) (j : Nat) (q k w dO : Mat) (st : List (List SoftRow)) :
    (s.ringQuery v j q k w dO st).kept = s.kept := by
  unfold State.ringQuery
  exact State.runRing_kept ..

@[simp] theorem State.ringKey_kept (s : State) (v : PassEnv) (j : Nat) (q k w dO : Mat) (st : List (List SoftRow)) :
    (s.ringKey v j q k w dO st).kept = s.kept := by
  unfold State.ringKey
  exact State.runRing_kept ..

/-! ### Backward -/

@[simp] theorem State.putKept_kept (s : State) (v : PassEnv) (back : Bool) (st : List HeldStats) : (s.putKept v back st).kept = s.kept := by
  simp [State.putKept]

@[simp] theorem State.ringOp_kept (s : State) (v : PassEnv) (hs : List HeldTensor) (j : Nat) : (s.ringOp v hs j).kept = s.kept :=
  kept_if (State.ringForward_kept ..) rfl

@[simp] theorem State.runOps_kept (s : State) (v : PassEnv) (back : Bool) (hs : List HeldTensor) (st : List HeldStats) (js : List Nat) :
    (s.runOps v back hs st js).1.kept = s.kept := by
  refine foldl_fst_kept (fun a j => ?_) js (s, hs, st)
  exact (State.putKept_kept ..).trans ((foldl_kept (fun _ _ => State.putOut_kept ..) _ _).trans
    ((State.ringOp_kept ..).trans (State.callKernels_kept ..)))

@[simp] theorem State.forwardPass_kept (s : State) (v : PassEnv) : (s.forwardPass v).kept = s.kept := by
  simp [State.forwardPass]

@[simp] theorem State.putChains_kept (s : State) (v : PassEnv) (t : Nat) (cs : List Chain) : (s.putChains v t cs).kept = s.kept := by
  simp [State.putChains]

@[simp] theorem State.addTerms_kept (s : State) (v : PassEnv) (t j : Nat) (step : Nat → Nat → Chain → Chain) :
    (s.addTerms v t j step).kept = s.kept := by
  simp [State.addTerms]

@[simp] theorem State.addProducts_kept (s : State) (v : PassEnv) (t j : Nat) (f32 : Bool) (x dy : Mat) :
    (s.addProducts v t j f32 x dy).kept = s.kept := by
  simp [State.addProducts]

@[simp] theorem State.addSums_kept (s : State) (v : PassEnv) (t j : Nat) (m : Mat) : (s.addSums v t j m).kept = s.kept := by
  simp [State.addSums]

theorem Backward.kept_if {c : Prop} [Decidable c] {u v w : Backward} (h : u.s.kept = w.s.kept) (k : v.s.kept = w.s.kept) :
    (if c then u else v).s.kept = w.s.kept := by
  split
  · exact h
  · exact k

@[simp] theorem Backward.contribute_kept (w : Backward) (v : PassEnv) (j t : Nat) (at_ : Part) (m : Mat) (keep : Nat → Nat → W32 → W32)
    (transposed : Bool) : (Backward.contribute w v j t at_ m keep transposed).s.kept = w.s.kept :=
  Backward.kept_if (State.addSums_kept ..) (Backward.kept_if rfl rfl)

@[simp] theorem Backward.give_kept (w : Backward) (v : PassEnv) (j t : Nat) (at_ : Part) (m : Mat) :
    (Backward.give w v j t at_ m).s.kept = w.s.kept := by
  simp [Backward.give]

@[simp] theorem Backward.products_kept (w : Backward) (v : PassEnv) (j : Nat) (p : OpRec) (y : Nat) (dy : Mat) :
    (Backward.products w v j p y dy).s.kept = w.s.kept := by
  refine Backward.kept_if (Backward.kept_if ((State.addProducts_kept ..).trans ?_) ?_) ((Backward.give_kept ..).trans ?_)
  all_goals exact Backward.kept_if (Backward.contribute_kept ..) rfl

@[simp] theorem Backward.rows_kept (w : Backward) (v : PassEnv) (j : Nat) (p : OpRec) (y : Nat) (dy : Mat) :
    (w.rows v j p y dy).s.kept = w.s.kept := by
  unfold Backward.rows
  dsimp only
  split
  · exact Backward.give_kept ..
  · refine (Backward.give_kept ..).trans (Backward.foldl_kept (fun w k => ?_) _ w)
    split
    · exact Backward.give_kept ..
    · rfl

@[simp] theorem Backward.attention_kept (w : Backward) (v : PassEnv) (j : Nat) (p : OpRec) (y : Nat) (dy : Mat) :
    (w.attention v j p y dy).s.kept = w.s.kept := by
  unfold Backward.attention
  dsimp only
  refine (Backward.foldl_kept (fun w k => Backward.contribute_kept ..) _ _).trans ?_
  dsimp only
  rw [State.ringKey_kept, State.ringQuery_kept]

@[simp] theorem Backward.lanes_kept (w : Backward) (v : PassEnv) (j : Nat) (p : OpRec) (y : Nat) (dy : Mat) :
    (Backward.lanes w v j p y dy).s.kept = w.s.kept := by
  refine Backward.kept_if ?sum (Backward.kept_if ?product (Backward.kept_if ?silu ?loss))
  case sum | product => exact (Backward.give_kept ..).trans (Backward.give_kept ..)
  case silu | loss => exact Backward.give_kept ..

@[simp] theorem Backward.runOp_kept (v : PassEnv) (w : Backward) (j : Nat) : (Backward.runOp v w j).s.kept = w.s.kept := by
  unfold Backward.runOp
  dsimp only
  split
  · rfl
  · split
    · refine (Backward.foldl_kept (fun w t => Backward.give_kept ..) _ _).trans ?_
      exact State.callKernels_kept ..
    · split
      · exact Backward.products_kept ..
      · split
        · exact Backward.attention_kept ..
        · split
          · exact Backward.rows_kept ..
          · exact Backward.lanes_kept ..

@[simp] theorem State.setBack_kept (s : State) (r : Option BackRun) : (s.setBack r).kept = s.kept := rfl

@[simp] theorem State.beginBack_kept (s : State) (v : PassEnv) : (s.beginBack v).kept = s.kept := by
  simp [State.beginBack]

@[simp] theorem State.endBack_kept (s : State) (v : PassEnv) (grads : List HeldTensor) : (s.endBack v grads).kept = s.kept := rfl

@[simp] theorem State.advanceBack_kept (s : State) (v : PassEnv) (r : BackRun) : (s.advanceBack v r).kept = s.kept := by
  unfold State.advanceBack
  split
  · exact (State.setBack_kept ..).trans (Backward.runOp_kept ..)
  · exact (State.setBack_kept ..).trans (State.runOps_kept ..)
  · exact State.endBack_kept ..

@[simp] theorem State.goBack_kept (s : State) (v : PassEnv) (more : BackRun → Bool) : (s.goBack v more).kept = s.kept := by
  refine foldl_kept (fun s n => ?_) _ s
  split
  · exact kept_if (State.advanceBack_kept ..) rfl
  · rfl

@[simp] theorem State.backwardPass_kept (s : State) (v : PassEnv) : (s.backwardPass v).kept = s.kept :=
  (State.goBack_kept ..).trans (State.beginBack_kept ..)

@[simp] theorem State.runPass_kept (s : State) (p : Placement) (n : Nat) (q : Pass) : (s.runPass p n q).kept = s.kept :=
  kept_if (State.backwardPass_kept ..) (State.forwardPass_kept ..)

@[simp] theorem State.tickPasses_kept (s : State) : s.tickPasses.kept = s.kept := by
  unfold State.tickPasses
  dsimp only
  split
  · split
    · rw [State.kept_mk]
      refine kept_if (State.goBack_kept ..) ?_
      split
      · exact State.runPass_kept ..
      · rfl
    · rfl
  · rfl

@[simp] theorem State.endPasses_kept (s : State) : s.endPasses.kept = s.kept := by
  unfold State.endPasses
  split
  · exact (foldl_kept (fun s q => State.runPass_kept ..) _ _).trans (State.goBack_kept ..)
  · rfl

theorem State.goBackTo_kept (s : State) (v : PassEnv) (o : Option Nat) (more : Nat → BackRun → Bool) :
    (match o with
      | some j => s.goBack v (more j)
      | none => s).kept = s.kept := by
  split
  · exact State.goBack_kept ..
  · rfl

@[simp] theorem State.finishTile_kept (s : State) (p : Placement) (n t : Nat) : (s.finishTile p n t).kept = s.kept := by
  unfold State.finishTile
  refine (State.goBackTo_kept _ _ _ fun j r => r.awaits j).trans (kept_if rfl ?_)
  have h := foldl_kept (fun s q => s.runPass_kept p n q) (s.steps.passes.filter (· != (⟨true, p.microBatches - 1⟩ : Pass))) s
  exact kept_if ((State.beginBack_kept ..).trans h) h

/-! ### Reduce -/

@[simp] theorem State.noteSent_kept (s : State) (c : Cru) (chunk : Nat) : (s.noteSent c chunk).kept = s.kept := rfl

@[simp] theorem State.noteReduced_kept (s : State) (own : Bool) (c : Cru) (chunk : Nat) (bs : List Byte) :
    (s.noteReduced own c chunk bs).kept = s.kept := rfl

@[simp] theorem State.sendChunk_kept (s : State) (p : Placement) (step : Nat) (c : Cru) (chunk : Nat) :
    (s.sendChunk p step c chunk).kept = s.kept := by
  unfold State.sendChunk
  dsimp only
  split <;> simp

@[simp] theorem State.announceChunks_kept (s : State) (p : Placement) (c : Cru) (chunks : List Nat) :
    (s.announceChunks p c chunks).kept = s.kept := by
  unfold State.announceChunks
  split <;> rfl

@[simp] theorem State.sendChunks_kept (s : State) (p : Placement) (step : Nat) (go : Cru → Nat → Bool) :
    (s.sendChunks p step go).kept = s.kept := by
  simp [State.sendChunks]

@[simp] theorem State.takeChunk_kept (s : State) (p : Placement) (step : Nat) (y : ShardCopy) (c : Cru) (chunk : Nat) :
    (s.takeChunk p step y c chunk).kept = s.kept := by
  unfold State.takeChunk
  dsimp only
  split <;> simp

@[simp] theorem State.takeChunks_kept (s : State) (p : Placement) (step : Nat) (come : Bool → Cru → Nat → Bool) :
    (s.takeChunks p step come).kept = s.kept := by
  refine foldl_kept (fun s c => kept_if (foldl_kept (fun s y => foldl_kept (fun s k => ?_) _ s) _ s) rfl) _ s
  exact kept_if (State.takeChunk_kept ..) rfl

@[simp] theorem State.tickReduce_kept (s : State) : s.tickReduce.kept = s.kept := by
  unfold State.tickReduce
  dsimp only
  split
  · split
    · exact kept_if ((State.takeChunks_kept ..).trans (State.sendChunks_kept ..)) rfl
    · rfl
  · rfl

@[simp] theorem State.endReduce_kept (s : State) (p : Placement) (step : Nat) : (s.endReduce p step).kept = s.kept :=
  (State.takeChunks_kept ..).trans (State.sendChunks_kept ..)

/-! ### Steps -/

theorem State.takeStep_kept (s : State) (type : Byte) (c : Cru) (n : PortIx) (p : Packet) (f : State → StepMsg → State)
    (h : ∀ t m, (f t m).kept = t.kept) : (s.takeStep type c n p f).kept = s.kept := by
  unfold State.takeStep
  split
  next t ht =>
    have k := kept_of_fst ht (State.takeUrgent_kept ..)
    exact kept_if k ((h ..).trans k)
  next t ht => exact kept_of_fst ht (State.takeUrgent_kept ..)

@[simp] theorem State.updateStep_kept (s : State) (p : Placement) (h : Hyper) : (s.updateStep p h).kept = s.kept :=
  kept_if ((State.updateShards_kept ..).trans ((State.eachLive_kept ..).trans (State.endReduce_kept ..))) rfl

/-! ### Errors -/

@[simp] theorem State.noseFirst_kept (s : State) (cs : List Cru) : (s.noseFirst cs).kept = s.kept := by
  unfold State.noseFirst
  dsimp only
  split
  · refine (State.reportFaulty_kept ..).trans (foldl_kept (fun s c => ?_) _ s)
    rfl
  · refine foldl_kept (fun s c => ?_) _ s
    rfl

@[simp] theorem State.noseAgain_kept (s : State) : s.noseAgain.kept = s.kept := by
  refine foldl_kept (fun s c => ?_) _ s
  dsimp only
  split
  · exact State.reportFaulty_kept ..
  · rfl

@[simp] theorem State.putCrcList_kept (s : State) (c : Cru) : (s.putCrcList c).kept = s.kept := by
  unfold State.putCrcList
  exact kept_if rfl ((State.atCrucible_kept ..).trans s.fresh_kept)

@[simp] theorem State.pageEngines_kept (s : State) : s.pageEngines.kept = s.kept := by
  refine (foldl_kept State.putCrcList_kept _ _).trans (foldl_kept (fun s c => ?_) _ s)
  rfl

@[simp] theorem State.sendDigests_kept (s : State) (p : Placement) (r : Role) (d : List Byte) : (s.sendDigests p r d).kept = s.kept := by
  unfold State.sendDigests
  dsimp only
  split <;> simp

@[simp] theorem State.endSillage_kept (s : State) (result : BitVec 2) (peer : Nat) : (s.endSillage result peer).kept = s.kept :=
  kept_if rfl (State.reportFaulty_kept ..)

end Sys2Proof.Machine
end

section
/-!
SUPPORT. Frames, packets and what the module does when no command waits.
-/
namespace Sys2Proof.Machine

/-! ### Ethernet -/

theorem follows_frame (s : State) (f : Frame) (own : Bool) (o : EthMsg) : Follows s (s.frame f own o) :=
  follows_onFrames _ _ _ _ fun _ => .of_kept (kept_if rfl rfl)

theorem State.loseRestore_kept (s : State) (lost : NvmeCmd → Bool) :
    (match s.restore with
      | some r =>
        if r.cmds.any lost then { s with restore := some { r with cmds := r.cmds.filter (fun c => !lost c) } }.failRestore 0xFF 0 else s
      | none => s).kept = s.kept := by
  split
  · exact kept_if (State.failRestore_kept ..) rfl
  · rfl

@[simp] theorem State.loseCmds_kept (s : State) (lost : NvmeCmd → Bool) : (s.loseCmds lost).kept = s.kept := by
  unfold State.loseCmds
  refine (State.loseRestore_kept _ lost).trans ?_
  split
  · exact kept_if (State.failIngot_kept ..) rfl
  · rfl

@[simp] theorem State.qpError_kept (s : State) (h : HalfIx) (n : Nat) : (s.qpError h n).kept = s.kept := by
  unfold State.qpError
  split
  · rfl
  · dsimp only
    split
    · exact kept_if ((State.failRestore_kept ..).trans ((State.failIngot_kept ..).trans (State.loseCmds_kept ..))) (State.loseCmds_kept ..)
    · rfl

/-! ### Fabric -/

@[simp] theorem State.arriveRequest_kept (s : State) (kind : Byte) (c : Cru) (n : PortIx) (p : Packet) (mismatch : Bool) :
    (s.arriveRequest kind c n p mismatch).kept = s.kept := by
  unfold State.arriveRequest
  split
  next t ht => exact (State.takeRequest_kept ..).trans (kept_of_fst ht (State.takesIn_kept ..))
  next t ht => exact kept_of_fst ht (State.takesIn_kept ..)

@[simp] theorem State.arriveResponse_kept (s : State) (kind : Byte) (c : Cru) (n : PortIx) (p : Packet) (r : Cru) :
    (s.arriveResponse kind c n p r).kept = s.kept := by
  unfold State.arriveResponse
  split
  next t ht => exact (kept_of_fst ht (State.takesAt_kept ..) :)
  next t ht => exact (kept_of_fst ht (State.takesAt_kept ..) :)

@[simp] theorem State.portNotice_kept (s : State) (type : Byte) (up : Bool) (c : Cru) (n : PortIx) (p : Packet) :
    (s.portNotice type up c n p).kept = s.kept := by
  unfold State.portNotice
  split
  next t ht => exact (kept_of_fst ht (State.takeUrgent_kept ..) :)
  next t ht => exact (kept_of_fst ht (State.takeUrgent_kept ..) :)

/-! ### Host -/

theorem follows_runHost (s : State) (i : Instr) : Follows s (s.runHost i) := by
  unfold State.runHost
  split
  · exact follows_cmdIdentify ..
  · exact follows_cmdSubscribe ..
  · exact follows_cmdJobSet ..
  · exact follows_cmdSetEpoch ..
  · exact follows_cmdSetHealthMap ..
  · exact follows_cmdSetXrack ..
  · exact follows_cmdTakeOver ..
  · exact follows_cmdDefineWindow ..
  · exact follows_cmdDeleteWindow ..
  · exact follows_cmdDefineRing ..
  · exact follows_cmdRingCredit ..
  · exact follows_cmdRegisterKernel ..
  · exact follows_cmdSubmitGraph ..
  · exact follows_cmdStep ..
  · exact follows_cmdStop ..
  · exact follows_cmdStorageTarget ..
  · exact follows_cmdIngot ..
  · exact follows_cmdRestore ..
  · exact follows_cmdCtrlRead ..
  · exact follows_cmdCtrlWrite ..
  · exact follows_cmdUpdateWrite ..
  · exact follows_cmdActivate ..
  · exact follows_cmdAttest ..
  · exact follows_cmdBank ..
  · exact follows_cmdWake ..
  · exact .of_kept (State.cmdUnknown_kept ..)
  · exact .refl s

theorem follows_runHeld {s t : State} (h : s.runHeld = some t) : Follows s t := by
  unfold State.runHeld at h
  split at h
  next i rest _ =>
    cases h
    exact follows_runHost { s with held := rest } i
  next => cases h

theorem follows_runReady (s : State) (n : Nat) : Follows s (s.runReady n) := by
  induction n generalizing s with
  | zero => exact .refl s
  | succ n ih =>
    unfold State.runReady
    split
    next t ht => exact (follows_runHeld ht).trans (ih t)
    next => exact .refl s

theorem follows_arrive (s : State) (m : CmdMsg) (i : Instr) (run : State → State) (h : ∀ t, Follows t (run t)) :
    Follows s (s.arrive m i run) :=
  (follows_runReady ..).trans (follows_arriveCmd _ _ _ _ _ h)

/-! ### LoadStore -/

theorem State.loadChecked_kept (s : State) (b : Bool) (k : CoreId) (f : FmtM) (size : Nat) (run : State → State)
    (h : ∀ t, (run t).kept = t.kept) : (s.loadChecked b k f size run).kept = s.kept :=
  kept_if (s.scalarChecked_kept b k run h) (s.lastingMismatch_kept k run h)

/-! ### Registers -/

@[simp] theorem State.missed_kept (s : State) (a : Accessor) (sp : CtrlSpace) (off : Nat) : (s.missed a sp off).kept = s.kept := by
  unfold State.missed
  split
  · exact kept_if rfl rfl
  · split
    · exact State.pdUnassigned_kept ..
    · rfl

/-! ### Tick -/

@[simp] theorem State.tick_kept (s : State) : s.tick.kept = s.kept := rfl

@[simp] theorem State.settlePorts_kept (s : State) : s.settlePorts.kept = s.kept := by
  refine foldl_kept (fun s c => ?_) _ s
  have h := foldl_kept (fun s n => s.settlePort_kept c (Fin.ofNat 16 n))
    (((s.crucible c).ports.filter (fun e => !e.2.changes.isEmpty || e.2.closing)).map Prod.fst) s
  exact kept_if h ((State.retryUc_kept ..).trans h)

theorem follows_settle (s : State) : Follows s s.settle := by
  unfold State.settle
  refine Follows.trans (.of_kept ?_) (follows_tryConfirm _)
  rw [State.pushRestore_kept, State.pushIngot_kept, State.tickReduce_kept, State.tickPasses_kept, State.takeNext_kept,
    State.gatherFaults_kept, State.sendRecords_kept, State.settleJobs_kept, State.kept_mk]

theorem follows_idle (s : State) : Follows s s.idle := by
  unfold State.idle
  split
  · exact .refl s
  · split
    next t ht => exact follows_runHeld ht
    next =>
      have h : s.tick.settlePorts.kept = s.kept := (State.settlePorts_kept _).trans s.tick_kept
      exact .ite ((Follows.of_kept h).trans (follows_settle _)) (.of_kept h)

end Sys2Proof.Machine
end

section
/-!
SUPPORT. Every command's outcome is a next state in which no fuse is lost (`FollowedBy`): the commands whose effect is cut into cases,
then all of them (`exec_follows`).
-/
namespace Sys2Proof.Machine

/-- A command's outcome is a next state in which no fuse is lost and the queue of commands is as it was. -/
def FollowedBy (s : State) (o : Host.Outcome State Fault Refusal) : Prop := ∃ t, o = .next t ∧ Follows s t

theorem FollowedBy.next {s t : State} (h : Follows s t) : FollowedBy s (.next t) := ⟨t, rfl, h⟩

theorem FollowedBy.kept {s t : State} (h : t.kept = s.kept) : FollowedBy s (.next t) := .next (.of_kept h)

theorem execPacketInject_follows (c : Cru) (i : Nat) (n : PortIx) (s : State) : FollowedBy s (execPacketInject c i n s) := by
  refine .kept (kept_if ?_ rfl)
  split
  · refine kept_if ?_ (State.injectNew_kept ..)
    split
    · rfl
    · exact kept_if (State.resendOne_kept ..) rfl
  · split
    · exact State.injectRsp_kept ..
    · rfl

theorem execEscapeTimeout_follows (c : Cru) (n : PortIx) (s : State) : FollowedBy s (execEscapeTimeout c n s) := by
  refine .kept (kept_if ?_ rfl)
  split <;> rfl

theorem execResendTimeout_follows (c : Cru) (i : Nat) (n : PortIx) (s : State) : FollowedBy s (execResendTimeout c i n s) := by
  refine .kept (kept_if ?_ rfl)
  split
  · split
    · exact kept_if rfl rfl
    · rfl
  · refine kept_if (kept_if rfl rfl) (kept_if rfl (kept_if rfl (kept_if ?_ rfl)))
    exact foldl_kept (fun s m => s.resendOne_kept c i m) _ _

theorem execResendQuietEnd_follows (c : Cru) (i : Nat) (s : State) : FollowedBy s (execResendQuietEnd c i s) := by
  refine .kept (kept_if ?_ rfl)
  split
  · rfl
  · exact kept_if rfl rfl

theorem execUrgentAck_follows (c : Cru) (n : PortIx) (p : Packet) (s : State) : FollowedBy s (execUrgentAck c n p s) := by
  refine .kept ?_
  split
  next t ht => exact kept_of_fst ht (State.takesIn_kept ..)
  next t ht =>
    have h := kept_of_fst ht (s.takesIn_kept ..)
    dsimp only
    split
    · exact (State.endUrgent_kept ..).trans h
    · exact h

theorem execUrgentResend_follows (c : Cru) (i : Nat) (s : State) : FollowedBy s (execUrgentResend c i s) := by
  refine .kept (kept_if ?_ rfl)
  split
  · rfl
  · exact kept_if (State.emitUrgent_kept ..) (State.endUrgent_kept ..)

theorem execEpochStale_follows (c : Cru) (n : PortIx) (p : Packet) (s : State) : FollowedBy s (execEpochStale c n p s) := by
  refine .kept ?_
  split
  next t ht => exact kept_of_fst ht (State.takeUrgent_kept ..)
  next t ht =>
    have h := kept_of_fst ht (s.takeUrgent_kept ..)
    exact kept_if ((State.enterFenced_kept ..).trans h) h

theorem execStepReport_follows (c : Cru) (n : PortIx) (p : Packet) (s : State) : FollowedBy s (execStepReport c n p s) :=
  .kept (State.takeStep_kept _ _ _ _ _ _ fun _ _ => kept_if rfl (kept_if (State.cleanCheck_kept _) (State.faultyUp_kept ..)))

theorem execStepChecked_follows (c : Cru) (n : PortIx) (p : Packet) (s : State) : FollowedBy s (execStepChecked c n p s) :=
  .kept (State.takeStep_kept _ _ _ _ _ _ fun _ _ => State.applyChecked_kept ..)

theorem execReplayStep_follows (c : Cru) (n : PortIx) (p : Packet) (s : State) : FollowedBy s (execReplayStep c n p s) :=
  .kept (State.takeStep_kept _ _ _ _ _ _ fun _ _ => State.applyReplay_kept ..)

theorem execDrainedReport_follows (c : Cru) (n : PortIx) (p : Packet) (s : State) : FollowedBy s (execDrainedReport c n p s) :=
  .kept (State.takeStep_kept _ _ _ _ _ _ fun _ _ => kept_if rfl (State.drainCheck_kept _))

theorem execResumeStep_follows (c : Cru) (n : PortIx) (p : Packet) (s : State) : FollowedBy s (execResumeStep c n p s) :=
  .kept (State.takeStep_kept _ _ _ _ _ _ fun _ _ => State.resumeNow_kept ..)

theorem execCodewordReceived_follows (c : Cru) (n : PortIx) (w : Codeword) (s : State) : FollowedBy s (execCodewordReceived c n w s) :=
  .kept (State.atPort_kept _ _ _ _ _ fun _ => kept_if (State.oldCodeword_kept ..) (State.newCodeword_kept ..))

theorem execRetryRequest_follows (c : Cru) (n : PortIx) (number : BitVec 12) (s : State) :
    FollowedBy s (execRetryRequest c n number s) := by
  refine .kept (State.atPort_kept _ _ _ _ _ fun p => ?_)
  split <;> rfl

theorem execRetryRequestTimeout_follows (c : Cru) (n : PortIx) (s : State) : FollowedBy s (execRetryRequestTimeout c n s) := by
  refine .kept (State.atPort_kept _ _ _ _ _ fun p => ?_)
  split <;> rfl

theorem execLaneMarginal_follows (c : Cru) (n : PortIx) (lane : Fin 17) (s : State) : FollowedBy s (execLaneMarginal c n lane s) :=
  .kept (State.atPort_kept _ _ _ _ _ fun _ => kept_if (State.recordLanes_kept ..) rfl)

theorem execSpareAdapted_follows (c : Cru) (n : PortIx) (s : State) : FollowedBy s (execSpareAdapted c n s) := by
  refine .kept (State.atPort_kept _ _ _ _ _ fun p => ?_)
  split
  · exact kept_if rfl rfl
  · rfl

theorem execLaneDrop_follows (c : Cru) (n : PortIx) (lane : Fin 17) (point : BitVec 12) (s : State) :
    FollowedBy s (execLaneDrop c n lane point s) :=
  .kept (State.atMessage_kept _ _ _ _ fun _ => kept_if (State.scheduleChange_kept ..) rfl)

theorem execLaneSwap_follows (c : Cru) (n : PortIx) (lane : Fin 17) (point : BitVec 12) (s : State) :
    FollowedBy s (execLaneSwap c n lane point s) :=
  .kept (State.atMessage_kept _ _ _ _ fun _ => kept_if rfl (kept_if (State.scheduleChange_kept ..) (State.scheduleChange_kept ..)))

theorem execLaneAck_follows (c : Cru) (n : PortIx) (lane : Fin 17) (point : BitVec 12) (s : State) :
    FollowedBy s (execLaneAck c n lane point s) := by
  refine .kept (State.atMessage_kept _ _ _ _ fun p => ?_)
  split
  · exact kept_if (State.scheduleChange_kept ..) rfl
  · rfl

theorem execKeepAlive_follows (c : Cru) (n : PortIx) (point : BitVec 12) (s : State) : FollowedBy s (execKeepAlive c n point s) :=
  .kept (State.atMessage_kept _ _ _ _ fun _ => kept_if (State.settlePort_kept ..) rfl)

theorem execExchangePage_follows (c : Cru) (n : PortIx) (page : W64) (s : State) : FollowedBy s (execExchangePage c n page s) :=
  .kept (State.atPort_kept _ _ _ _ _ fun _ => State.newPartner_kept ..)

theorem execCheckDone_follows (c : Cru) (n : PortIx) (failed : BitVec 17) (s : State) : FollowedBy s (execCheckDone c n failed s) :=
  .kept (State.atPort_kept _ _ _ _ _ fun _ =>
    kept_if ((State.tellUp_kept ..).trans (State.recordLanes_kept ..)) (State.recordLanes_kept ..))

theorem execResumeTimeout_follows (c : Cru) (n : PortIx) (s : State) : FollowedBy s (execResumeTimeout c n s) :=
  .kept (State.atPort_kept _ _ _ _ _ fun _ => kept_if (State.losePort_kept ..) rfl)

theorem execAccountingWindow_follows (c : Cru) (s : State) : FollowedBy s (execAccountingWindow c s) :=
  .kept (kept_if (State.retryRequests_kept ..) rfl)

theorem execJobSetCommitPoint_follows (c : Cru) (s : State) : FollowedBy s (execJobSetCommitPoint c s) :=
  .kept (kept_if ((State.jobAnswered_kept ..).trans (kept_if (State.jobTaken_kept ..) rfl)) rfl)

theorem FollowedBy.onReach {s : State} {a : Accessor} {c : Cru} {f : State → State} (h : ∀ t, (f t).kept = t.kept) :
    FollowedBy s (s.onReach a c f) :=
  .kept (kept_if (h s) rfl)

theorem FollowedBy.readReach {s : State} {a : Accessor} {c : Cru} {f : State → W32 × State} (h : ∀ t, (f t).2.kept = t.kept) :
    FollowedBy s (s.readReach a c f) := by
  unfold State.readReach
  split
  next v t ht =>
    have k : t.kept = s.kept := by
      refine kept_of_snd ht ?_
      split
      · exact h s
      · rfl
    exact .kept k

theorem execUnassignedAccess_follows (a : Accessor) (sp : CtrlSpace) (off width : Nat) (s : State) :
    FollowedBy s (execUnassignedAccess a sp off width s) :=
  .kept (kept_if (State.missed_kept ..) rfl)

theorem execTakeoverCopyDone_follows (ok : Bool) (s : State) : FollowedBy s (execTakeoverCopyDone ok s) := by
  refine .kept ?_
  split
  · rfl
  · dsimp only
    refine kept_if ?_ rfl
    rw [State.stepStatus_kept, State.kept_mk]
    exact foldl_kept (fun s c => kept_if (s.takeUnits_kept _ c) rfl) _ _

theorem execPlacementDone_follows (r : TundishResult) (s : State) : FollowedBy s (execPlacementDone r s) := by
  refine .kept ?_
  split
  · rfl
  · refine kept_if rfl (kept_if (State.rejectGraph_kept ..) ?_)
    split
    · exact State.rejectGraph_kept ..
    · exact (State.endGraph_kept ..).trans (State.place_kept ..)

theorem execIngotStart_follows (s : State) : FollowedBy s (execIngotStart s) := by
  refine .kept ?_
  split
  · rfl
  · exact kept_if (State.pushIngot_kept _) rfl

theorem execActivationStart_follows (s : State) : FollowedBy s (execActivationStart s) := by
  refine .kept ?_
  split
  · exact kept_if (State.beginActivation_kept ..) rfl
  · rfl

theorem execCrucibleRestartDone_follows (c : Cru) (s : State) : FollowedBy s (execCrucibleRestartDone c s) := by
  refine .next ?_
  split
  · exact .ite (follows_crucibleBack ..) (.ite (follows_tryConfirm s) (.refl s))
  · exact .refl s

theorem execActivationPauseTimeout_follows (part : UpdatePart) (s : State) : FollowedBy s (execActivationPauseTimeout part s) := by
  refine .kept ?_
  split
  · exact kept_if (State.failActivation_kept ..) rfl
  · exact kept_if (State.failActivation_kept ..) rfl
  · rfl

theorem execBankedEntered_follows (s : State) : FollowedBy s (execBankedEntered s) := by
  refine .kept (kept_if (kept_if ((State.startWake_kept _).trans ?_) ?_) rfl)
  all_goals
    split
    · exact (State.ok_kept ..).trans (State.clocks_kept ..)
    · exact State.clocks_kept ..

theorem execWakeEnd_follows (late : BitVec 4) (s : State) : FollowedBy s (execWakeEnd late s) := by
  refine .kept (kept_if ?_ rfl)
  rw [foldl_kept (fun t m => State.ok_kept ..), foldl_kept State.lateReset_kept, State.powerEvent_kept, State.setPowerEvent_kept,
    State.clocks_kept, State.kept_mk]

theorem execRdmaWrite_follows (f : Frame) (r : RdmaReq) (s : State) : FollowedBy s (execRdmaWrite f r s) :=
  .next (follows_rdmaInto _ _ _ _ fun _ _ => rfl)

theorem execRdmaWriteWithImmediate_follows (f : Frame) (r : RdmaReq) (imm : W32) (s : State) :
    FollowedBy s (execRdmaWriteWithImmediate f r imm s) :=
  .next (follows_rdmaInto _ _ _ _ fun _ _ => State.announce_kept ..)

theorem execRdmaRead_follows (f : Frame) (r : RdmaReq) (length : Nat) (s : State) : FollowedBy s (execRdmaRead f r length s) := by
  refine .next (follows_onQp _ _ _ _ _ fun v t => .of_kept (kept_if (State.refuse_kept ..) ?_))
  split
  · exact State.refuse_kept ..
  · rfl

theorem execDataQpSend_follows (f : Frame) (qp : Nat) (s : State) : FollowedBy s (execDataQpSend f qp s) :=
  .next (follows_onQp _ _ _ _ _ fun _ _ => .of_kept (kept_if (State.refuse_kept ..) rfl))

theorem execCmReq_follows (f : Frame) (r : CmRequest) (s : State) : FollowedBy s (execCmReq f r s) :=
  .next (follows_onFrames _ _ _ _ fun _ => .of_kept (kept_if (kept_if rfl rfl) rfl))

theorem execCnp_follows (f : Frame) (qp : Nat) (s : State) : FollowedBy s (execCnp f qp s) :=
  .next (follows_onQp _ _ _ _ _ fun _ _ => .of_kept rfl)

theorem execNvmeCompletion_follows (f : Frame) (target : Fin 32) (command : Nat) (status : W16) (data : List Byte) (s : State) :
    FollowedBy s (execNvmeCompletion f target command status data s) := by
  refine .next (follows_onFrames _ _ _ _ fun t => .of_kept (kept_if rfl ?_))
  split
  · split
    · exact (State.ingotCompletion_kept ..).trans (State.storageCe_kept ..)
    · rfl
  · split
    · split
      · exact (State.restoreCompletion_kept ..).trans (State.storageCe_kept ..)
      · rfl
    · rfl

theorem execTargetRdmaRead_follows (f : Frame) (extent : Nat) (s : State) : FollowedBy s (execTargetRdmaRead f extent s) := by
  refine .next (follows_onFrames _ _ _ _ fun t => .of_kept ?_)
  split
  · rfl
  · split
    · refine kept_if (kept_if ((State.freeRisers_kept _).trans ?_) ?_) rfl
      · exact State.storageCe_kept ..
      · exact State.storageCe_kept ..
    · rfl

theorem execOutputEntrySend_follows (ring : Fin 256) (s : State) : FollowedBy s (execOutputEntrySend ring s) := by
  refine .kept ?_
  split
  · rfl
  · split
    · exact kept_if rfl rfl
    · rfl

/-- The port die drops the commands a failed half still held; no command of the queue is one of them. -/
theorem execPortDieHalfFailure_follows (h : HalfIx) (s : State) : FollowedBy s (execPortDieHalfFailure h s) :=
  .kept (kept_if ((State.failTransfers_kept _).trans (State.loseCmds_kept ..)) rfl)

theorem execGradientFinal_follows (tile : Nat) (s : State) : FollowedBy s (execGradientFinal tile s) := by
  refine .kept ?_
  split
  · split
    · exact kept_if rfl (s.finishTile_kept _ _ _ :)
    · rfl
  · rfl

theorem execUpdatePhaseStart_follows (s : State) : FollowedBy s (execUpdatePhaseStart s) := by
  refine .kept (kept_if ?_ rfl)
  split
  · rfl
  · exact ((State.updateStep_kept ..).trans s.endPasses_kept :)

theorem execCheckPhaseEnd_follows (s : State) : FollowedBy s (execCheckPhaseEnd s) := by
  refine .kept (kept_if (kept_if (State.gatherFaults_kept _) ((State.cleanCheck_kept _).trans ?_)) rfl)
  rw [State.kept_mk]
  exact State.gatherFaults_kept _

theorem execNoseRoundEnd_follows (s : State) : FollowedBy s (execNoseRoundEnd s) := by
  refine .kept (kept_if ?_ rfl)
  split
  · exact State.noseAgain_kept s
  · exact State.noseFirst_kept ..

theorem execSillageDigestDone_follows (s : State) : FollowedBy s (execSillageDigestDone s) := by
  refine .kept ?_
  dsimp only
  split
  · rfl
  · refine kept_if ?_ rfl
    rw [State.ite_kept, State.reportFaulty_kept, foldl_kept fun t x => State.sendDigests_kept .., ite_self, State.kept_mk,
      State.atCrucible_kept, State.pageEngines_kept]

theorem execSillageCompare_follows (s : State) : FollowedBy s (execSillageCompare s) := by
  refine .kept ?_
  split
  · split
    · rfl
    · exact State.endSillage_kept ..
    · exact State.endSillage_kept ..
  · rfl

theorem execSillageMissing_follows (s : State) : FollowedBy s (execSillageMissing s) := by
  refine .kept ?_
  split
  · split
    · exact State.endSillage_kept ..
    · rfl
  · rfl

theorem execCoreRetirement_follows (k : CoreId) (s : State) : FollowedBy s (execCoreRetirement k s) := by
  refine .kept ?_
  dsimp only
  split
  · rfl
  · refine kept_if ?_ rfl
    have h : ∀ n, (s.reportFaulty n false).kept = s.kept := fun n => s.reportFaulty_kept n false
    split
    · exact h _
    · exact kept_if (h _) (h _)

theorem execProgressStall_follows (c : Cru) (units : List StallUnit) (s : State) : FollowedBy s (execProgressStall c units s) :=
  .kept (kept_if (State.declareHang_kept ..) rfl)

theorem execHangRecordComplete_follows (c : Cru) (s : State) : FollowedBy s (execHangRecordComplete c s) := by
  refine .kept ?_
  split
  · rfl
  · exact State.hangReset_kept ..

theorem execHangRecordTimeout_follows (c : Cru) (s : State) : FollowedBy s (execHangRecordTimeout c s) := by
  refine .kept ?_
  split
  · rfl
  · exact State.hangReset_kept ..

theorem execCrucibleReturn_follows (c : Cru) (s : State) : FollowedBy s (execCrucibleReturn c s) :=
  .next (.ite (follows_crucibleBack ..) (.refl s))

theorem execBootTimeout_follows (c : Cru) (s : State) : FollowedBy s (execBootTimeout c s) :=
  .kept (kept_if (State.declareHang_kept ..) rfl)

theorem execTemperatureSample_follows (t : TempReading) (s : State) : FollowedBy s (execTemperatureSample t s) := by
  refine .kept ?_
  dsimp only
  refine kept_if ?off ?on
  case off =>
    split
    · exact kept_if (State.thermalTrip_kept ..) (kept_if rfl rfl)
    · rfl
  case on =>
    have h := foldl_kept (fun u c => u.thermalWarn_kept s t c) cruList (s.readTemps t)
    split
    · rw [State.thermalTrip_kept, State.throttleChange_kept]
      exact kept_if h h
    · rw [State.throttleChange_kept]
      exact kept_if h h

theorem execPowerSample_follows (vin iin : W16) (s : State) : FollowedBy s (execPowerSample vin iin s) :=
  .kept (State.throttleChange_kept ..)

theorem execRecordDurable_follows (ok : Bool) (s : State) : FollowedBy s (execRecordDurable ok s) := by
  refine .kept ?_
  split
  · rfl
  · exact kept_if (State.afterDurable_kept ..) (kept_if rfl rfl)

theorem execPortDieBoot_follows (s : State) : FollowedBy s (execPortDieBoot s) := by
  refine .next (.ite (.trans (.of_kept ?_) (follows_chooseSlot _)) (.refl s))
  rw [State.ite_kept, State.loadSettings_kept, State.openStore_kept, ite_self]

theorem execCrucibleBoot_follows (c : Cru) (s : State) : FollowedBy s (execCrucibleBoot c s) :=
  .kept (kept_if (kept_if ((State.startComponent_kept ..).trans (s.trainStacks_kept c)) (s.trainStacks_kept c)) rfl)

theorem execRoceAck_follows (f : Frame) (qp : Nat) (kind : AckKind) (s : State) : FollowedBy s (execRoceAck f qp kind s) := by
  refine .next (follows_onQp _ _ _ _ _ fun v t => .of_kept ?_)
  cases kind with
  | ack => rfl
  | nak => exact State.qpError_kept ..
  | rnrNak => exact kept_if (State.qpError_kept ..) rfl

theorem execRoceAckTimeout_follows (h : HalfIx) (qp : Nat) (s : State) : FollowedBy s (execRoceAckTimeout h qp s) := by
  refine .kept ?_
  split
  · rfl
  · exact kept_if rfl (kept_if (State.qpError_kept ..) rfl)

theorem execSendWithoutReceiveBuffer_follows (f : Frame) (qp : Nat) (s : State) :
    FollowedBy s (execSendWithoutReceiveBuffer f qp s) :=
  .next (follows_onQp _ _ _ _ _ fun _ _ => .of_kept (kept_if rfl rfl))

theorem State.kept_putSlot (s : State) (n o : Nat) (bs : List Byte) :
    State.kept { s with boot := s.boot.putSlot n o bs } = s.kept :=
  congrArg (Prod.mk _) (s.boot.putSlot_otp n o bs)

theorem execFlashSectorDone_follows (ok : Bool) (s : State) : FollowedBy s (execFlashSectorDone ok s) := by
  refine .kept ?_
  split
  · rfl
  · dsimp only
    refine kept_if ((State.startSector_kept ..).trans (State.kept_putSlot ..)) (kept_if ((State.endUpdate_kept ..).trans ?_)
      ((State.startSector_kept ..).trans ?_))
    · exact State.kept_putSlot ..
    · exact State.kept_putSlot ..

theorem execTallyLogClear_follows (a : Accessor) (c : Cru) (s : State) : FollowedBy s (execTallyLogClear a c s) :=
  .onReach fun t => t.clearTallyLog_kept a c

theorem execPopRecord_follows (a : Accessor) (c : Cru) (s : State) : FollowedBy s (execPopRecord a c s) :=
  .onReach fun t => t.popFault_kept a c

theorem execForceHang_follows (a : Accessor) (c : Cru) (s : State) : FollowedBy s (execForceHang a c s) :=
  .onReach fun t => t.forceHangNow_kept c

theorem execEventSummaryClear_follows (a : Accessor) (k : CoreId) (s : State) : FollowedBy s (execEventSummaryClear a k s) :=
  .onReach fun t => t.clearNumEvent_kept a k.cru k.core.val

theorem execTallyWordRead_follows (a : Accessor) (k : CoreId) (ix : Fin 48) (s : State) : FollowedBy s (execTallyWordRead a k ix s) :=
  .readReach fun _ => rfl

theorem execResSigRead_follows (a : Accessor) (k : CoreId) (s : State) : FollowedBy s (execResSigRead a k s) :=
  .readReach fun _ => rfl

theorem execPwrAonRead_follows (a : Accessor) (c : Cru) (s : State) : FollowedBy s (execPwrAonRead a c s) :=
  .readReach fun _ => rfl

theorem FollowedBy.arrive {s : State} {m : CmdMsg} {i : Instr} {run : State → State} (h : ∀ t, Follows t (run t)) :
    FollowedBy s (.next (s.arrive m i run)) :=
  .next (follows_arrive _ _ _ _ h)

/-- Every command follows the state it runs in: by the command, grouped by what its effect comes to. -/
theorem exec_follows (i : Instr) (s : State) : FollowedBy s (exec i s) := by
  cases i
  case st8 | st16 | st32 | st64 | stA | beq | bne | blt | bge | bltu | bgeu | jmp | jr | illegalInstruction | tlySignal | tlyWait |
      waitTakesSignal | tlyTake | tlyInit | fence | fenceRelease | nop | haltCore | trap | queueSpaceIssue | tldW | weightLoadStart |
      tmacI8 | tmacF8 | tmacBf16 | tmacF16 | tmacF32 | tmacStreamStart | rowEntry | tdrain | drainStart | vaccRd | vaccWr | vbcast |
      vaddF32 | vsubF32 | vmulF32 | vfmaF32 | vmaxF32 | vminF32 | vabsF32 | vnegF32 | vexp2F32 | vlog2F32 | vrcpF32 | vrsqrtF32 |
      vrowMax | vrowSum | vrowAmax | vldF32 | vldBf16 | vldF16 | vldE4m3 | vldE5m2 | vldI8 | vstF32 | vstBf16 | vstF16 | vstE4m3 |
      vstE5m2 | vstI8 | vectorOpStart | xcopy | xcopy2d | xcastCore | xcastMod | xtlySignal | xtlyTake | transferStart |
      completionSignal | heldSignalApplied | heldSignalDrop | remapCommitPoint | istoreCopy | istoreCopyDone | tallyXlatCommitPoint |
      hbmWrite | patrolScrub | riserCopyUnit | riserWriteStall | pwrEnHigh | persistentRecord | alwaysOnDomainFailure | ethLinkDown =>
    exact .kept rfl
  case add | sub | andB | orB | xorB | sll | srl | sra | mul | mulhu | slt | sltu | seq | addi | andi | ori | xori | slli | srli | srai
      | li | lih | movAs | movSa | aaddi | aadd | jal | bdnz | tset | tbase | trows | tgetLo | tgetHi | tlyRead | stepStart |
      stepStartProceeds | rdCyc | rdStep | rdSeq | rdId =>
    exact .kept (State.scalarChecked_kept _ _ _ _ fun _ => rfl)
  case ldU8 | ldU16 | ldU32 | ld64 | ldS8 | ldS16 | ldS32 | ldA => exact .kept (State.loadChecked_kept _ _ _ _ _ _ fun _ => rfl)
  case detectTimeout | trainDone | backoffExpiry | backoffReset | runCore | haltRequest | clearFault | remapCommit | istoreCommit |
      numCommit | hbmRegCommit | hbmPmapCommit | tallyXlatCommit | tallyForceCommit | fabCommit | fabJobCommit | fabXrackCommit |
      resNoseCommit | hangWinCommit | storeReadRecord | storeReadHistory | storeAppendConfig | tallyCtxSel | mcKick | fabE2eWrite |
      ethVlanWrite | pwrLimitWrite | intervalWrite | hbmRead | trialTimeout | cnpRateIncrease | pfcPause | unsupportedFrame |
      computePhaseStart | standbyEntry | powerUpComplete | railFault | pwrEnLow | powerDownComplete | vinWarn | sysRstN |
      thermTripRelease | clearFaults | statusWord | readVin | readIin | readTemperature1 | readTemperature2 | readPin | pmbusRevision |
      unsupportedPmbusCommand | storeOpen | wearRecord | storeDailyCheck | ethLinkUp =>
    exact .kept (kept_if rfl rfl)
  case detectSignal | resumeOrderedSet | uePendingClear | eventQueueSpace => exact .kept (kept_if (kept_if rfl rfl) rfl)
  case packetWrite | packetRead | tallySignal | tallyTake => exact .kept (State.arriveRequest_kept ..)
  case response | readData => exact .kept (State.arriveResponse_kept ..)
  case portLossNotice | portUpNotice => exact .kept (State.portNotice_kept ..)
  case registerWrite => exact .kept (State.ctrlWriteWord_kept ..)
  case shadowWrite => exact .kept (kept_if (State.ctrlWriteWord_kept ..) rfl)
  case noseRoundStart => exact .kept (kept_if (State.eachLive_kept ..) rfl)
  case inputLost | inputOverVoltage => exact .kept (kept_if (State.inputBad_kept ..) rfl)
  case drainQuietEnd => exact .kept s.drainEnd_kept
  case laneLockLoss => exact .kept (State.atPort_kept _ _ _ _ _ fun _ => State.loseLane_kept ..)
  case lockLoss => exact .kept (State.atPort_kept _ _ _ _ _ fun _ => State.losePort_kept ..)
  case portDown => exact .kept (State.atMessage_kept _ _ _ _ fun _ => State.losePort_kept ..)
  case portEnable => exact .kept (kept_if (State.setEnable_kept ..) rfl)
  case portRetrain => exact .kept (kept_if (State.retrain_kept ..) rfl)
  case clearingDone => exact .kept (State.reloadCore_kept ..)
  case arp | neighbourDiscovery | icmpEcho => exact .next (follows_frame ..)
  case identify => exact .arrive fun _ => follows_cmdIdentify ..
  case subscribe => exact .arrive fun _ => follows_cmdSubscribe ..
  case attest => exact .arrive fun _ => follows_cmdAttest ..
  case bankCommand => exact .arrive fun _ => follows_cmdBank ..
  case wakeCommand => exact .arrive fun _ => follows_cmdWake ..
  case jobSet => exact .arrive fun _ => follows_cmdJobSet ..
  case setEpoch => exact .arrive fun _ => follows_cmdSetEpoch ..
  case setHealthMap => exact .arrive fun _ => follows_cmdSetHealthMap ..
  case setXrack => exact .arrive fun _ => follows_cmdSetXrack ..
  case takeOver => exact .arrive fun _ => follows_cmdTakeOver ..
  case defineWindow => exact .arrive fun _ => follows_cmdDefineWindow ..
  case deleteWindow => exact .arrive fun _ => follows_cmdDeleteWindow ..
  case defineRing => exact .arrive fun _ => follows_cmdDefineRing ..
  case ringCredit => exact .arrive fun _ => follows_cmdRingCredit ..
  case registerKernel => exact .arrive fun _ => follows_cmdRegisterKernel ..
  case submitGraph => exact .arrive fun _ => follows_cmdSubmitGraph ..
  case stepCommand => exact .arrive fun _ => follows_cmdStep ..
  case stopCommand => exact .arrive fun _ => follows_cmdStop ..
  case storageTarget => exact .arrive fun _ => follows_cmdStorageTarget ..
  case ingot => exact .arrive fun _ => follows_cmdIngot ..
  case restore => exact .arrive fun _ => follows_cmdRestore ..
  case ctrlRead => exact .arrive fun _ => follows_cmdCtrlRead ..
  case ctrlWrite => exact .arrive fun _ => follows_cmdCtrlWrite ..
  case updateWrite => exact .arrive fun _ => follows_cmdUpdateWrite ..
  case activate => exact .arrive fun _ => follows_cmdActivate ..
  case unknownOpcode => exact .next (.ite (.refl s) (follows_arrive _ _ _ _ fun _ => .of_kept (State.cmdUnknown_kept ..)))
  case packetInject => exact execPacketInject_follows ..
  case escapeTimeout => exact execEscapeTimeout_follows ..
  case resendTimeout => exact execResendTimeout_follows ..
  case resendQuietEnd => exact execResendQuietEnd_follows ..
  case urgentAck => exact execUrgentAck_follows ..
  case urgentResend => exact execUrgentResend_follows ..
  case epochStale => exact execEpochStale_follows ..
  case stepReport => exact execStepReport_follows ..
  case stepChecked => exact execStepChecked_follows ..
  case replayStep => exact execReplayStep_follows ..
  case drainedReport => exact execDrainedReport_follows ..
  case resumeStep => exact execResumeStep_follows ..
  case codewordReceived => exact execCodewordReceived_follows ..
  case retryRequest => exact execRetryRequest_follows ..
  case retryRequestTimeout => exact execRetryRequestTimeout_follows ..
  case laneMarginal => exact execLaneMarginal_follows ..
  case spareAdapted => exact execSpareAdapted_follows ..
  case laneDrop => exact execLaneDrop_follows ..
  case laneSwap => exact execLaneSwap_follows ..
  case laneAck => exact execLaneAck_follows ..
  case keepAlive => exact execKeepAlive_follows ..
  case exchangePage => exact execExchangePage_follows ..
  case checkDone => exact execCheckDone_follows ..
  case resumeTimeout => exact execResumeTimeout_follows ..
  case accountingWindow => exact execAccountingWindow_follows ..
  case jobSetCommitPoint => exact execJobSetCommitPoint_follows ..
  case tallyLogClear => exact execTallyLogClear_follows ..
  case tallyWordRead => exact execTallyWordRead_follows ..
  case resSigRead => exact execResSigRead_follows ..
  case pwrAonRead => exact execPwrAonRead_follows ..
  case popRecord => exact execPopRecord_follows ..
  case forceHang => exact execForceHang_follows ..
  case eventSummaryClear => exact execEventSummaryClear_follows ..
  case unassignedAccess => exact execUnassignedAccess_follows ..
  case takeoverCopyDone => exact execTakeoverCopyDone_follows ..
  case placementDone => exact execPlacementDone_follows ..
  case ingotStart => exact execIngotStart_follows ..
  case activationStart => exact execActivationStart_follows ..
  case crucibleRestartDone => exact execCrucibleRestartDone_follows ..
  case activationPauseTimeout => exact execActivationPauseTimeout_follows ..
  case bankedEntered => exact execBankedEntered_follows ..
  case wakeEnd => exact execWakeEnd_follows ..
  case rdmaWrite => exact execRdmaWrite_follows ..
  case rdmaWriteWithImmediate => exact execRdmaWriteWithImmediate_follows ..
  case rdmaRead => exact execRdmaRead_follows ..
  case dataQpSend => exact execDataQpSend_follows ..
  case cmReq => exact execCmReq_follows ..
  case cnp => exact execCnp_follows ..
  case nvmeCompletion => exact execNvmeCompletion_follows ..
  case targetRdmaRead => exact execTargetRdmaRead_follows ..
  case outputEntrySend => exact execOutputEntrySend_follows ..
  case portDieHalfFailure => exact execPortDieHalfFailure_follows ..
  case gradientFinal => exact execGradientFinal_follows ..
  case updatePhaseStart => exact execUpdatePhaseStart_follows ..
  case checkPhaseEnd => exact execCheckPhaseEnd_follows ..
  case noseRoundEnd => exact execNoseRoundEnd_follows ..
  case sillageDigestDone => exact execSillageDigestDone_follows ..
  case sillageCompare => exact execSillageCompare_follows ..
  case sillageMissing => exact execSillageMissing_follows ..
  case coreRetirement => exact execCoreRetirement_follows ..
  case progressStall => exact execProgressStall_follows ..
  case hangRecordComplete => exact execHangRecordComplete_follows ..
  case hangRecordTimeout => exact execHangRecordTimeout_follows ..
  case crucibleReturn => exact execCrucibleReturn_follows ..
  case bootTimeout => exact execBootTimeout_follows ..
  case temperatureSample => exact execTemperatureSample_follows ..
  case powerSample => exact execPowerSample_follows ..
  case recordDurable => exact execRecordDurable_follows ..
  case portDieBoot => exact execPortDieBoot_follows ..
  case crucibleBoot => exact execCrucibleBoot_follows ..
  case roceAck => exact execRoceAck_follows ..
  case roceAckTimeout => exact execRoceAckTimeout_follows ..
  case sendWithoutReceiveBuffer => exact execSendWithoutReceiveBuffer_follows ..
  case flashSectorDone => exact execFlashSectorDone_follows ..

end Sys2Proof.Machine
end

section
/-!
SUPPORT. R626: what the fused version is, and that no step lowers it; the obligation they settle.
-/
namespace Sys2Proof.Machine

/-- The fused version is an upper bound of the set bits. -/
theorem lt_highest {b : Nat → Bool} {n i : Nat} (hi : i < n) (h : b i = true) : i < highest b n := by
  induction n with
  | zero => omega
  | succ n ih =>
    rw [highest_succ]
    split
    next => omega
    next hb => exact ih ((Nat.lt_succ_iff_lt_or_eq.mp hi).resolve_right fun e => hb (e ▸ h))

/-- The fused version is attained: the bit below it is set. -/
theorem highest_sub_one {b : Nat → Bool} {n : Nat} (h : highest b n ≠ 0) : b (highest b n - 1) = true := by
  induction n with
  | zero => exact absurd rfl h
  | succ n ih =>
    rw [highest_succ] at h ⊢
    split at h
    next hb => simp [hb]
    next hb =>
      rw [if_neg hb]
      exact ih h

/-- In a step no fuse is lost, whether it runs the command at the front of the queue or is idle. -/
theorem step_fuse {s t : State} (h : step s = .next t) (i : Nat) (hi : fuse s.boot.otp i = true) : fuse t.boot.otp i = true := by
  unfold step at h
  split at h
  next =>
    cases h
    exact (follows_idle s).2 i hi
  next c rest _ =>
    obtain ⟨u, hu, hf⟩ := exec_follows c { s with pending := rest }
    cases hu.symm.trans h
    exact hf.2 i hi

/-- R626's example: five fuses blown, version 5. -/
theorem fusedVersion_of_five_fuses : fusedVersion (0x1F :: List.replicate 31 0) = 5 := by
  decide +kernel

/-- Settles O60: `highest` bounds the set bits and is attained, and every step keeps every fuse (`step_fuse`), so the version, which
is monotone in the fuses, never falls. -/
theorem fusedVersionNeverFalls : Obligations.FusedVersionNeverFalls := by
  unfold Obligations.FusedVersionNeverFalls
  refine ⟨fun otp => ⟨?bound, highest_le _ 256, ?attained⟩, fusedVersion_of_five_fuses, fun s t h => ⟨step_fuse h, ?mono⟩⟩
  case bound => exact fun i hi h => lt_highest hi h
  case attained => exact highest_sub_one
  case mono => exact fusedVersion_mono (step_fuse h)

end Sys2Proof.Machine
end
